-- ==== Sys2Proof/Word.lean ====
section
/-! DEFINITION. The word types of Exris: bytes, scalar words, register names (spec 00 Table 0.6). -/
namespace Sys2Proof

/-- A byte of memory, register space or a bank (00 R7). -/
abbrev Byte := BitVec 8
/-- A scalar register or a control register (03 R73). -/
abbrev Word := BitVec 64
/-- Scalar register name x0-x63. -/
abbrev XReg := BitVec 6
/-- Scalar predicate name f0-f15. -/
abbrev FReg := BitVec 4
/-- Lane predicate name p0-p15. -/
abbrev PReg := BitVec 4
/-- Vector register name v0-v1023. -/
abbrev VReg := BitVec 10
/-- Tile register name m0-m63. -/
abbrev MReg := BitVec 6
/-- Accumulator name q0-q15. -/
abbrev QReg := BitVec 4
/-- Copy token name k0-k7. -/
abbrev KTok := BitVec 3
/-- Ring name h0-h7. -/
abbrev HRing := BitVec 3

end Sys2Proof
end

