-- ==== Sys2Proof/Syntax.lean ====
section
/-! DEFINITION. The syntax of Exris: operand forms of 07 Table 7.3, the slot instructions of 07 Tables 7.5 to 7.8,
and the events of the operation table. One constructor of `Instr` for each row of the operation table. -/
namespace Sys2Proof

/-- Element formats, codes 0 to 11 of 04 Table 4.1. -/
inductive ElemType where
  | s8 | s16 | s32 | s64 | z8 | z16 | z32 | z64 | bf16 | f32 | t8 | t6
  deriving DecidableEq, Repr

/-- Conditions of SC and VC form (07 R170). -/
inductive Cond where
  | eq | ne | lt | le | gt | ge
  deriving DecidableEq, Repr

/-- Memory scopes (05 R117; 07 R170). -/
inductive Scope where
  | cr | cl | st | pk | dm | sy
  deriving DecidableEq, Repr

/-- Memory orders (05 R118; 07 R170). -/
inductive Order where
  | rlx | acq | rel | ar | sc
  deriving DecidableEq, Repr

/-- What every slot word carries besides opcode and operands (07 Table 7.2), with the unit of its class
(`unit = true` names V1 or C1) and the header's SPEC bit (07 Table 7.1). -/
structure Head where
  unit : Bool
  spec : Bool
  ga : BitVec 4
  gb : BitVec 4
  gc : BitVec 4
  gt : BitVec 8
  tri : Bool
  deriving DecidableEq, Repr

/-- Immediate of an SI-form slot: imm23 with L = 0, or the bundle's literal with L = 1 (07 R170). -/
inductive Imm where
  | imm (v : BitVec 23)
  | lit (v : Word)
  deriving DecidableEq, Repr

/-- Second operand of an SC-form compare (07 Table 7.3). -/
inductive CmpSrc where
  | reg (b : XReg)
  | imm (v : BitVec 17)
  deriving DecidableEq, Repr

/-- Form SR. -/
structure SR where
  d : XReg
  a : XReg
  b : XReg
  c : BitVec 6
  deriving DecidableEq, Repr

/-- Form SI. -/
structure SI where
  d : XReg
  a : XReg
  imm : Imm
  deriving DecidableEq, Repr

/-- Form SP; `sz` is an integer type code 0 to 7. -/
structure SP where
  d : XReg
  a : XReg
  sz : BitVec 3
  off : BitVec 21
  deriving DecidableEq, Repr

/-- Form SC; `z` compares unsigned. -/
structure SC where
  ft : FReg
  ff : FReg
  cc : Cond
  z : Bool
  a : XReg
  src : CmpSrc
  deriving DecidableEq, Repr

/-- Form SM. -/
structure SM where
  fa : FReg
  fb : FReg
  fc : FReg
  fd : FReg
  n : BitVec 4
  deriving DecidableEq, Repr

/-- Form SJ. -/
structure SJ where
  off : BitVec 30
  byte : BitVec 6
  deriving DecidableEq, Repr

/-- Form VR; with `i` the field b holds a10. -/
structure VR where
  d : BitVec 10
  a : BitVec 10
  b : BitVec 10
  ty : ElemType
  i : Bool
  md : Bool
  deriving DecidableEq, Repr

/-- Form VC; with `i` the field b holds a10. -/
structure VC where
  pt : PReg
  pf : PReg
  a : VReg
  b : BitVec 10
  cc : Cond
  ty : ElemType
  i : Bool
  deriving DecidableEq, Repr

/-- Form VM. -/
structure VM where
  v : VReg
  base : XReg
  idx : BitVec 10
  iw : BitVec 2
  sx : Bool
  scale : BitVec 3
  ty : ElemType
  deriving DecidableEq, Repr

/-- Form MA; `ra`, `rb` make A, B name rings. -/
structure MA where
  ra : Bool
  a : MReg
  rb : Bool
  b : MReg
  q : QReg
  wait : BitVec 6
  pop : Bool
  sp : BitVec 3
  deriving DecidableEq, Repr

/-- Form MT. -/
structure MT where
  m : MReg
  base : XReg
  stride : XReg
  t : Bool
  ty : ElemType
  r : Bool
  ring : HRing
  wait : BitVec 6
  pop : Bool
  rep : Bool
  deriving DecidableEq, Repr

/-- Form ML. -/
structure ML where
  d : BitVec 6
  a : BitVec 6
  b : BitVec 6
  q : QReg
  md : BitVec 4
  deriving DecidableEq, Repr

/-- Form CB. -/
structure CB where
  dst : XReg
  src : XReg
  shape : BitVec 6
  token : KTok
  order : BitVec 2
  scope : Scope
  ringed : Bool
  ring : HRing
  flags : BitVec 6
  deriving DecidableEq, Repr

/-- Form CA. -/
structure CA where
  d : XReg
  addr : XReg
  val : XReg
  x : BitVec 6
  size : BitVec 2
  so : Order
  scope : Scope
  token : KTok
  fo : Bool
  deriving DecidableEq, Repr

/-- Form CV. -/
structure CV where
  v : VReg
  addr : XReg
  ty : ElemType
  order : Order
  scope : Scope
  token : KTok
  deriving DecidableEq, Repr

/-- Form CK. -/
structure CK where
  dst : XReg
  hnd : XReg
  arg : XReg
  token : KTok
  ringed : Bool
  ring : HRing
  flags : BitVec 11
  deriving DecidableEq, Repr

/-- The end of a copy: its command, and whether the correction of a scratchpad or weight-store byte of its source fails. -/
structure CopyEnd where
  seq : Nat
  ue : Bool
  deriving DecidableEq, Repr

/-- Where a CXL.mem request of the host arrives: port and host address. -/
structure HostSite where
  port : Nat
  addr : Nat
  deriving DecidableEq, Repr

/-- What an HDM decoder maps: host base, device base, whether two ports interleave. -/
structure HdmMap where
  hpa : Nat
  dpa : Nat
  two : Bool
  deriving DecidableEq, Repr

/-- What the board controller measures: temperatures in 1/16 °C, and watts. -/
structure Sensors where
  die : BitVec 16
  inlet : BitVec 16
  outlet : BitVec 16
  watts : BitVec 12
  deriving DecidableEq, Repr

/-- The instructions and events of Exris.
The slot instructions come first, in the order of the operation table; `h` is the slot word's head and `o` its operands.
An instruction that always reads the bundle's literal carries it as `lit`; an SI-form one carries it in its immediate.
The events follow; `c` is a core number CNUM, `seq` the issue number of an outstanding command of that core. -/
inductive Instr where
  -- scalar slot (08)
  | nop (h : Head)
  | add (h : Head) (o : SR)
  | addi (h : Head) (o : SI)
  | sub (h : Head) (o : SR)
  | mul (h : Head) (o : SR)
  | mulh (h : Head) (o : SR)
  | mulhz (h : Head) (o : SR)
  | div (h : Head) (o : SR)
  | divz (h : Head) (o : SR)
  | rem (h : Head) (o : SR)
  | remz (h : Head) (o : SR)
  | and (h : Head) (o : SR)
  | or (h : Head) (o : SR)
  | xor (h : Head) (o : SR)
  | andn (h : Head) (o : SR)
  | andi (h : Head) (o : SI)
  | ori (h : Head) (o : SI)
  | xori (h : Head) (o : SI)
  | shl (h : Head) (o : SR)
  | shr (h : Head) (o : SR)
  | shra (h : Head) (o : SR)
  | shli (h : Head) (o : SI)
  | shri (h : Head) (o : SI)
  | shrai (h : Head) (o : SI)
  | rot (h : Head) (o : SR)
  | clz (h : Head) (o : SR)
  | popc (h : Head) (o : SR)
  | min (h : Head) (o : SR)
  | max (h : Head) (o : SR)
  | minz (h : Head) (o : SR)
  | maxz (h : Head) (o : SR)
  | mov (h : Head) (o : SR)
  | movi (h : Head) (o : SI)
  | ext (h : Head) (o : SR)
  | ins (h : Head) (o : SR)
  | lea (h : Head) (o : SR)
  | sext (h : Head) (o : SR)
  | ldsp (h : Head) (o : SP)
  | stsp (h : Head) (o : SP)
  | cmp (h : Head) (o : SC)
  | cmpi (h : Head) (o : SC) (lit : Word)
  | tbit (h : Head) (o : SC)
  | pset (h : Head) (o : SR)
  | pget (h : Head) (o : SR)
  | pput (h : Head) (o : SR)
  | cmpt (h : Head) (o : SR)
  | br (h : Head) (o : SJ)
  | brm (h : Head) (o : SM) (lit : Word)
  | jmp (h : Head) (o : SR)
  | call (h : Head) (o : SJ)
  | ret (h : Head) (o : SR)
  | brloop (h : Head) (o : SJ)
  | endTask (h : Head)
  | wait (h : Head) (o : SI)
  | fmt (h : Head) (o : SI)
  | view (h : Head) (o : SI)
  | mvfc (h : Head) (o : SI)
  | mvtc (h : Head) (o : SI)
  | lock (h : Head) (o : SI)
  | unlock (h : Head)
  | bflip (h : Head)
  | specx (h : Head)
  | trap (h : Head) (o : SI)
  | eret (h : Head)
  | tick (h : Head) (o : SR)
  -- vector slots (09)
  | vnop (h : Head)
  | vadd (h : Head) (o : VR)
  | vsub (h : Head) (o : VR)
  | vmul (h : Head) (o : VR)
  | vmad (h : Head) (o : VR)
  | vmin (h : Head) (o : VR)
  | vmax (h : Head) (o : VR)
  | vabs (h : Head) (o : VR)
  | vneg (h : Head) (o : VR)
  | vand (h : Head) (o : VR)
  | vor (h : Head) (o : VR)
  | vxor (h : Head) (o : VR)
  | vshl (h : Head) (o : VR)
  | vshr (h : Head) (o : VR)
  | vshra (h : Head) (o : VR)
  | vclz (h : Head) (o : VR)
  | vpopc (h : Head) (o : VR)
  | vwadd (h : Head) (o : VR)
  | vwmad (h : Head) (o : VR)
  | vsat (h : Head) (o : VR)
  | vcvt (h : Head) (o : VR)
  | vrcp (h : Head) (o : VR)
  | vrsq (h : Head) (o : VR)
  | vexp2 (h : Head) (o : VR)
  | vlog2 (h : Head) (o : VR)
  | vcmp (h : Head) (o : VC)
  | vpset (h : Head) (o : VR)
  | vpcnt (h : Head) (o : VR)
  | vpany (h : Head) (o : VR)
  | vrsum (h : Head) (o : VR)
  | vrmax (h : Head) (o : VR)
  | vrmin (h : Head) (o : VR)
  | vscan (h : Head) (o : VR)
  | vperm (h : Head) (o : VR)
  | vbcast (h : Head) (o : VR)
  | vslide (h : Head) (o : VR)
  | viota (h : Head) (o : VR)
  | vmov (h : Head) (o : VR)
  | vmovi (h : Head) (o : VR)
  | vgetl (h : Head) (o : VR)
  | vputl (h : Head) (o : VR)
  | vld (h : Head) (o : VM)
  | vst (h : Head) (o : VM)
  | vgather (h : Head) (o : VM)
  | vscatter (h : Head) (o : VM)
  | vlds (h : Head) (o : VM)
  | vsts (h : Head) (o : VM)
  | vcmpt (h : Head) (o : VR)
  -- matrix slot (10)
  | mnop (h : Head)
  | mld (h : Head) (o : MT)
  | mst (h : Head) (o : MT)
  | mzero (h : Head) (o : ML)
  | mma (h : Head) (o : MA)
  | mmas (h : Head) (o : MA)
  | mnorm (h : Head) (o : ML)
  | mout (h : Head) (o : ML)
  | mcvt (h : Head) (o : ML)
  | mtrn (h : Head) (o : ML)
  | mfac (h : Head) (o : ML)
  | lrmul (h : Head) (o : ML)
  | lradd (h : Head) (o : ML)
  | mtemper (h : Head) (o : ML)
  | mdense (h : Head) (o : ML)
  | lrmma (h : Head) (o : MA)
  | mrank (h : Head) (o : ML)
  -- copy slots (11)
  | cnop (h : Head)
  | cpy (h : Head) (o : CB)
  | cpyr (h : Head) (o : CB)
  | radv (h : Head) (o : CB)
  | ldg (h : Head) (o : CA)
  | stg (h : Head) (o : CA)
  | vldg (h : Head) (o : CV)
  | vstg (h : Head) (o : CV)
  | amo (h : Head) (o : CA)
  | cas (h : Head) (o : CA)
  | fence (h : Head) (o : CA)
  | waitaddr (h : Head) (o : CA)
  | bind (h : Head) (o : CA)
  | unbind (h : Head) (o : CA)
  | bar (h : Head) (o : CB)
  | bara (h : Head) (o : CB)
  | barw (h : Head) (o : CB)
  | sstep (h : Head) (o : CB)
  | bcast (h : Head) (o : CB)
  | latch (h : Head) (o : CB)
  | lsend (h : Head) (o : CB)
  | lrecv (h : Head) (o : CB)
  | khash (h : Head) (o : CK)
  | klook (h : Head) (o : CK)
  | kopen (h : Head) (o : CK)
  | kwr (h : Head) (o : CK)
  | kseal (h : Head) (o : CK)
  | klease (h : Head) (o : CK)
  | kref (h : Head) (o : CK)
  | kunref (h : Head) (o : CK)
  | kld (h : Head) (o : CK)
  | krepl (h : Head) (o : CK)
  | kstat (h : Head) (o : CK)
  | kdrop (h : Head) (o : CK)
  -- events of a core (03, 10, 11, 16)
  | resultLanding (c : Nat)
  | heldBundleIssue (c : Nat)
  | gatherFreezeEnd (c : Nat)
  | bellowsFreezeEnd (c : Nat)
  | programTrapEntry (c : Nat)
  | eretResume (c : Nat)
  | matrixReadHoldClear (c : Nat)
  | matrixComplete (c : Nat)
  | copyComplete (c : Nat) (o : CopyEnd)
  | memoryAccessComplete (c seq : Nat)
  | crucibleCommandComplete (c seq : Nat)
  | lsendDelivered (c seq : Nat)
  | waitaddrPoll (c seq : Nat)
  | waitaddrTimeout (c seq : Nat)
  | wsRefreshWindowEnd (stk grp : Nat)
  | retryBackoffExpire (c seq : Nat)
  -- Hearth (02, 15)
  | tailWordChange (q : Nat)
  | launchRecord (q : Nat)
  | ageBoundary
  | unplaceableReport (serial : Nat)
  | taskEntry (c : Nat)
  | coreRetire (c : Nat)
  -- memory and directory (05)
  | readMiss (agent line : Nat)
  | checkOut (agent line : Nat)
  | checkIn (agent line : Nat)
  | invalidation (agent line : Nat)
  | invalidationAck (agent line : Nat)
  | silentDrop (agent line : Nat)
  | scPerform (c seq : Nat)
  | stackRemoval (stk : Nat)
  | moduleRemoval (mid : Nat)
  | hostSnoopResponse (line : Nat)
  | hostSnoop (line : Nat) (inval : Bool) (store : List Byte)
  | hostCxlMemWrite (a : HostSite) (bytes : List Byte)
  | hostCxlMemRead (a : HostSite) (len : Nat)
  | cxlMemHeldTimeout (idx : Nat)
  | hdmDecoderCommit (port dec : Nat) (m : HdmMap) (size : Nat)
  -- Crucible (06)
  | sealComplete (slot : Nat)
  | demoteComplete (slot : Nat)
  | leaseExpire (slot : Nat)
  | replicaBlockMoved (c seq : Nat)
  | storeTick
  -- errors and the driver's core requests (16)
  | ueDetected (c bank : Nat) (unit kind : Byte) (addr : Word)
  | ceDetected (bank : Nat) (synd : BitVec 16) (unit kind : Byte) (addr : Word)
  | errorBankClear (bank : Nat) (cev uev : Bool)
  | cctlPhase (c : Nat)
  | cctlForce (c : Nat)
  | cctlResume (c : Nat)
  | cctlEnd (c : Nat)
  | cctlCancel (c : Nat)
  | contextSaveDone (c : Nat)
  | contextRestore (c : Nat)
  | contextRestoreDone (c : Nat)
  | tokclr (c : Nat) (mask : Byte)
  | xlrespRetry (c : Nat) (unit : Bool)
  | xlrespRefuse (c : Nat) (unit : Bool)
  | evheadWrite (v : Word)
  | kill (asid : BitVec 12)
  | killDone
  | frameMigrate (old new : BitVec 36)
  | frameMigrateDone
  | frameReleaseRemap
  -- bring-up and configuration (15)
  | moduleReset
  | fwauthDone (ok0 ok1 : Bool) (ver0 ver1 sec0 sec1 : Nat)
  | meminitDone (hbmOk selfOk : Bool) (halves : List (BitVec 192))
  | mstateGo
  | hcfgWrite (v : Word)
  | shootdown (v : Word)
  | shootdownDone
  | ovlinvByIdent
  | ovlinvByAsid (asid : BitVec 12)
  | ovlinvAll
  | nsCreate (slot : Nat)
  | nsDestroy (slot : Nat)
  | nsRights (slot : Nat)
  | zadmit (v : Word)
  | lqEnable (q : Nat) (v : Word)
  | lqDisable (q : Nat) (v : Word)
  | lqRestart (q : Nat)
  | slabEntryWrite (stk k : Nat) (v : Word)
  | cbindWrite (stk f : Nat) (v : Word)
  | bankRoleWrite (stk k : Nat) (pairs : Bool) (v : Word)
  | roleDrainDone (stk k : Nat)
  | wsLoad (stk : Nat) (v : Word)
  | wsLoadDone (stk : Nat) (ue : Bool)
  | crmarkWrite (v : Word)
  | hlccfgWrite (v : Word)
  | limiterWrite (off : Nat) (v : Word)
  | thermalCapTick (m : Sensors)
  | thermalShutdown (die : BitVec 16)
  | linkEnable (n : Nat)
  | linkTrained (n : Nat) (ok : Bool) (rtt peerMid peerLink peerNmod peerInc : Nat)
  | routeWrite (d : Nat) (v : Word)
  | routeSwitch (d : Nat)
  | registerWrite (off : Nat) (v : Word)
  -- Zilash (15)
  | dataFlit (n : Nat) (bytes : List Byte)
  | linkNak (n : Nat) (seq : BitVec 12)
  | linkPause (n : Nat) (vl : BitVec 2)
  | linkResume (n : Nat) (vl : BitVec 2)
  | linkCpause (n : Nat) (ch : BitVec 12)
  | linkCresume (n : Nat) (ch : BitVec 12)
  | linkIdle (n : Nat) (ack : BitVec 12)
  | nakRepeat (n : Nat)
  | pauseRepeat (n : Nat)
  | resumeRepeat (n : Nat)
  | memoryRequestMsg (n : Nat)
  | responseMsg (n : Nat)
  | linkMessageMsg (n : Nat)
  | barrierMsg (n : Nat)
  | nodeDirectoryMsg (n : Nat)
  | timeBaseMsg (n : Nat)
  | managementMsg (n : Nat)
  -- firmware, attestation and power (16, 17)
  | pldmFirmwareUpdate (ver sec : Nat) (bytes : List Byte)
  | securityFloorAdvance
  | spdmNegotiateAlgorithms
  | spdmGetCertificate
  | spdmChallenge (nonce : BitVec 256)
  | spdmGetMeasurements (idx : Nat)
  | powerUp
  | powerRemoval
  | cxlLinkDown (port : Bool)
  deriving DecidableEq, Repr

end Sys2Proof
end

