-- ==== Sys2Proof/WellFormed.lean ====
section
/-! DEFINITION. Which instructions are well formed: the encoding checks that concern only bits of the slot word
(03 R77; 07 R169 to R171; 08 R187; 09 R219; 10 R240 Table 10.1; 11 R264 Table 11.1), and the ranges of event operands.
The decoder refuses what this predicate refuses. -/
namespace Sys2Proof

/-- The classes of slots (07 R174). -/
inductive SlotClass where
  | S | V | M | C
  deriving DecidableEq, Repr

/-- Head of an S slot whose opcode admits TRI (07 R169). -/
def Head.okTri (h : Head) : Bool := !h.unit

/-- Head of an S or M slot without TRI. -/
def Head.okOne (h : Head) : Bool := !h.unit && !h.tri

/-- Head of a V or C slot. -/
def Head.okTwo (h : Head) : Bool := !h.tri

/-- SR operands of an opcode that uses d, a, b. -/
def SR.dab (o : SR) : Bool := o.c == 0
/-- SR operands of an opcode that uses d, a. -/
def SR.da (o : SR) : Bool := o.b == 0 && o.c == 0
/-- SR operands of an opcode that uses a, b. -/
def SR.ab (o : SR) : Bool := o.d == 0 && o.c == 0
/-- SR operands of an opcode that uses a alone. -/
def SR.onlyA (o : SR) : Bool := o.d == 0 && o.b == 0 && o.c == 0
/-- SR operands of an opcode that uses d alone. -/
def SR.onlyD (o : SR) : Bool := o.a == 0 && o.b == 0 && o.c == 0

/-- The immediate is not the literal and fits `k` bits (07 R170). -/
def Imm.small (k : Nat) : Imm → Bool
  | .imm v => v.toNat < 2 ^ k
  | .lit _ => false

/-- Reserved fields of TBIT (08 R187). -/
def SC.okTbit (o : SC) : Bool :=
  (o.cc == .eq || o.cc == .ne) && !o.z &&
    match o.src with
    | .reg _ => true
    | .imm v => v.toNat < 64

/-- Reserved fields of BRM (07 Table 7.4; 08 R187). -/
def SM.ok (o : SM) : Bool :=
  decide (1 ≤ o.n.toNat) && decide (o.n.toNat ≤ 4) &&
  (decide (2 ≤ o.n.toNat) || o.fb == 0) && (decide (3 ≤ o.n.toNat) || o.fc == 0) &&
  (decide (4 ≤ o.n.toNat) || o.fd == 0)

/-- VR operands with no immediate and no mod, field b unused. -/
def VR.unary (o : VR) : Bool := !o.i && !o.md && o.b == 0
/-- Field b names an x register when no immediate stands there (09 R219). -/
def VR.okLane (o : VR) : Bool := o.i || decide (o.b.toNat < 64)

/-- Form MA: ring operands (07 R170). -/
def MA.ok (o : MA) : Bool :=
  (!o.ra || decide (o.a.toNat < 8)) && (!o.rb || decide (o.b.toNat < 8)) &&
  !(o.ra && o.rb && o.a == o.b) && (o.ra || o.rb || (o.wait == 0 && !o.pop))

/-- Form MT without a ring: ring, wait and POP are zero (07 R170). -/
def MT.okRing (o : MT) : Bool := o.r || (o.ring == 0 && o.wait == 0 && !o.pop)

/-- CB operands of an opcode without a ring. -/
def CB.noRing (o : CB) : Bool := !o.ringed && o.ring == 0

/-- Source space code of CPY and CPYR (11 Table 11.3). -/
def CB.ssp (o : CB) : Nat := (o.flags.extractLsb' 4 2).toNat
/-- Destination space code. -/
def CB.dsp (o : CB) : Nat := (o.flags.extractLsb' 2 2).toNat
/-- REP flag. -/
def CB.rep (o : CB) : Bool := o.flags.getLsbD 1

/-- Barriers use the scope alone (11 R280). -/
def CB.onlyScope (o : CB) : Bool :=
  o.dst == 0 && o.src == 0 && o.shape == 0 && o.token == 0 && o.order == 0 && o.noRing && o.flags == 0

/-- CK operands of an opcode other than KLD (11 R285). -/
def CK.plain (o : CK) : Bool := !o.ringed && o.ring == 0 && o.flags == 0

/-- The encoding checks of every slot instruction, and the operand ranges of every event. -/
def Instr.wf : Instr → Bool
  | .nop h => h.okOne
  | .add h o => h.okTri && o.dab
  | .addi h _ => h.okTri
  | .sub h o => h.okTri && o.dab
  | .mul h o => h.okTri && o.dab
  | .mulh h o => h.okTri && o.dab
  | .mulhz h o => h.okTri && o.dab
  | .div h o => h.okTri && o.dab
  | .divz h o => h.okTri && o.dab
  | .rem h o => h.okTri && o.dab
  | .remz h o => h.okTri && o.dab
  | .and h o => h.okTri && o.dab
  | .or h o => h.okTri && o.dab
  | .xor h o => h.okTri && o.dab
  | .andn h o => h.okTri && o.dab
  | .andi h _ => h.okTri
  | .ori h _ => h.okTri
  | .xori h _ => h.okTri
  | .shl h o => h.okTri && o.dab
  | .shr h o => h.okTri && o.dab
  | .shra h o => h.okTri && o.dab
  | .shli h o => h.okTri && o.imm.small 6
  | .shri h o => h.okTri && o.imm.small 6
  | .shrai h o => h.okTri && o.imm.small 6
  | .rot h o => h.okTri && o.dab
  | .clz h o => h.okTri && o.da
  | .popc h o => h.okTri && o.da
  | .min h o => h.okTri && o.dab
  | .max h o => h.okTri && o.dab
  | .minz h o => h.okTri && o.dab
  | .maxz h o => h.okTri && o.dab
  | .mov h o => h.okTri && o.da
  | .movi h o => h.okTri && o.a == 0
  | .ext h o => h.okTri && o.dab
  | .ins h o => h.okTri && o.dab
  | .lea h o => h.okTri && decide (o.c.toNat ≤ 6)
  | .sext h o => h.okTri && o.b == 0 && decide (o.c.toNat ≤ 2)
  | .ldsp h _ => h.okOne
  | .stsp h _ => h.okOne
  | .cmp h _ => h.okTri
  | .cmpi h o _ => h.okTri && o.src == .reg 0
  | .tbit h o => h.okTri && o.okTbit
  | .pset h o => h.okTri && o.da && decide (o.d.toNat < 16)
  | .pget h o => h.okTri && o.onlyD
  | .pput h o => h.okTri && o.ab
  | .cmpt h o => h.okTri && o.ab
  | .br h _ => h.okOne
  | .brm h o _ => h.okOne && o.ok
  | .jmp h o => h.okOne && o.onlyA
  | .call h _ => h.okOne
  | .ret h o => h.okOne && o.onlyA
  | .brloop h _ => h.okOne
  | .endTask h => h.okOne
  | .wait h o => h.okOne && o.d == 0 && o.a == 0 && o.imm.small 8
  | .fmt h o => h.okOne && o.d == 0
  | .view h o => h.okOne && decide (o.d.toNat < 4)
  | .mvfc h o => h.okOne && o.a == 0 && o.imm.small 12
  | .mvtc h o => h.okOne && o.d == 0 && o.imm.small 12
  | .lock h o => h.okOne && o.d == 0 && o.a == 0 && o.imm.small 8
  | .unlock h => h.okOne
  | .bflip h => h.okOne
  | .specx h => h.okOne
  | .trap h o => h.okOne && o.d == 0 && o.a == 0 && o.imm.small 23
  | .eret h => h.okOne
  | .tick h o => h.okOne && o.onlyD
  | .vnop h => h.okTwo
  | .vadd h _ => h.okTwo
  | .vsub h _ => h.okTwo
  | .vmul h _ => h.okTwo
  | .vmad h _ => h.okTwo
  | .vmin h o => h.okTwo && !o.md
  | .vmax h o => h.okTwo && !o.md
  | .vabs h o => h.okTwo && !o.i && o.b == 0
  | .vneg h o => h.okTwo && !o.i && o.b == 0
  | .vand h _ => h.okTwo
  | .vor h _ => h.okTwo
  | .vxor h _ => h.okTwo
  | .vshl h o => h.okTwo && !o.md
  | .vshr h o => h.okTwo && !o.md
  | .vshra h o => h.okTwo && !o.md
  | .vclz h o => h.okTwo && o.unary
  | .vpopc h o => h.okTwo && o.unary
  | .vwadd h _ => h.okTwo
  | .vwmad h _ => h.okTwo
  | .vsat h _ => h.okTwo
  | .vcvt h o => h.okTwo && !o.i && !o.md && o.b.extractLsb' 4 3 == 0 && decide ((o.b.extractLsb' 0 4).toNat < 12)
  | .vrcp h o => h.okTwo && o.unary
  | .vrsq h o => h.okTwo && o.unary
  | .vexp2 h o => h.okTwo && o.unary
  | .vlog2 h o => h.okTwo && o.unary
  | .vcmp h _ => h.okTwo
  | .vpset h o => h.okTwo && !o.md && decide (o.d.toNat < 16) && (!o.i || o.a == 0)
  | .vpcnt h o => h.okTwo && o.unary && decide (o.d.toNat < 64) && decide (o.a.toNat < 16)
  | .vpany h o => h.okTwo && o.unary && decide (o.d.toNat < 16) && decide (o.a.toNat < 16)
  | .vrsum h o => h.okTwo && o.unary
  | .vrmax h o => h.okTwo && o.unary
  | .vrmin h o => h.okTwo && o.unary
  | .vscan h o => h.okTwo && !o.i && o.b == 0
  | .vperm h o => h.okTwo && !o.i && !o.md
  -- VBCAST of a scalar: R218 and R219 do not say whether I = 1 is reserved; the model accepts it (log 58).
  | .vbcast h o => h.okTwo && (if o.md then decide (o.a.toNat < 64) && o.b == 0 else o.okLane)
  | .vslide h o => h.okTwo && o.okLane
  | .viota h o => h.okTwo && o.a == 0
  | .vmov h o => h.okTwo && o.unary
  -- VMOVI: Table 9.1 only calls I = 1 required; the model makes I = 0 a fault of the encoding, suppressed or not (log 58).
  | .vmovi h o => h.okTwo && o.i && !o.md && o.a == 0
  | .vgetl h o => h.okTwo && !o.md && o.okLane && decide (o.d.toNat < 64)
  | .vputl h o => h.okTwo && !o.md && o.okLane && decide (o.a.toNat < 64)
  | .vld h o => h.okTwo && o.idx == 0 && o.iw == 0 && !o.sx && o.scale == 0
  | .vst h o => h.okTwo && o.idx == 0 && o.iw == 0 && !o.sx && o.scale == 0
  | .vgather h o => h.okTwo && decide (o.scale.toNat ≤ 6)
  | .vscatter h o => h.okTwo && decide (o.scale.toNat ≤ 6)
  | .vlds h o => h.okTwo && decide (o.idx.toNat < 64) && o.iw == 0 && !o.sx && decide (o.scale.toNat ≤ 6)
  | .vsts h o => h.okTwo && decide (o.idx.toNat < 64) && o.iw == 0 && !o.sx && decide (o.scale.toNat ≤ 6)
  | .vcmpt h o => h.okTwo && !o.i && !o.md && o.d == 0
  | .mnop h => h.okOne
  | .mld h o => h.okOne && o.okRing
  | .mst h o => h.okOne && !o.r && !o.rep && o.okRing
  | .mzero h o => h.okOne && o.d == 0 && o.b == 0 && decide (o.md.toNat ≤ 1)
  | .mma h o => h.okOne && o.ok && o.sp == 0
  | .mmas h o => h.okOne && o.ok
  | .mnorm h o => h.okOne && o.d == 0 && o.a == 0 && o.b == 0 && o.md == 0
  | .mout h o => h.okOne && o.a == 0 && o.b == 0 && decide (o.md.toNat ≤ 1)
  | .mcvt h o => h.okOne && o.b == 0 && o.q == 0 && o.md == 0
  | .mtrn h o => h.okOne && o.b == 0 && o.q == 0 && o.md == 0
  | .mfac h o => h.okOne && o.q == 0 && decide (o.md.toNat ≤ 2)
  | .lrmul h o => h.okOne && o.q == 0 && o.md == 0
  | .lradd h o => h.okOne && o.q == 0 && decide (o.md.toNat ≤ 1)
  | .mtemper h o => h.okOne && o.b == 0 && o.q == 0 && o.md == 0
  | .mdense h o => h.okOne && o.b == 0 && o.q == 0 && o.md == 0
  | .lrmma h o => h.okOne && o.ok && !o.rb && o.sp == 0
  | .mrank h o => h.okOne && o.b == 0 && o.q == 0 && o.md == 0
  | .cnop h => h.okTwo
  | .cpy h o => h.okTwo && o.noRing && !o.flags.getLsbD 0 && o.shape != 63 && o.ssp != 3 && o.dsp != 3
  | .cpyr h o => h.okTwo && o.ringed && !o.flags.getLsbD 0 && o.shape != 63 && o.ssp != 3 && o.dsp == 0
  | .radv h o => h.okTwo && o.ringed && o.dst == 0 && o.shape == 0 && o.token == 0 && o.order == 0 && o.scope == .cr &&
      decide (o.flags.toNat ≤ 1)
  | .ldg h o => h.okTwo && o.val == 0 && decide (o.x.toNat ≤ 1) && !o.fo
  | .stg h o => h.okTwo && o.d == 0 && o.x == 0 && !o.fo
  | .vldg h _ => h.okTwo
  | .vstg h _ => h.okTwo
  | .amo h o => h.okTwo && decide (o.x.toNat ≤ 8) && !o.fo
  | .cas h _ => h.okTwo
  | .fence h o => h.okTwo && o.d == 0 && o.addr == 0 && o.val == 0 && o.x == 0 && o.size == 0 && !o.fo
  | .waitaddr h o => h.okTwo && !o.fo
  | .bind h o => h.okTwo && o.d == 0 && o.size == 0 && o.so == .rlx && o.scope == .cr && o.token == 0 && !o.fo
  | .unbind h o => h.okTwo && o.d == 0 && o.val == 0 && o.x == 0 && o.size == 0 && o.so == .rlx && o.scope == .cr &&
      o.token == 0 && !o.fo
  | .bar h o => h.okTwo && o.onlyScope
  | .bara h o => h.okTwo && o.onlyScope
  | .barw h o => h.okTwo && o.onlyScope
  | .sstep h o => h.okTwo && o.onlyScope
  | .bcast h o => h.okTwo && o.dst == 0 && o.shape == 0 && o.token == 0 && o.order == 0 && o.scope == .cr && o.noRing && o.flags == 0
  | .latch h o => h.okTwo && o.src == 0 && o.shape == 0 && o.token == 0 && o.order == 0 && o.scope == .cr && o.noRing && o.flags == 0
  | .lsend h o => h.okTwo && o.dst == 0 && o.noRing && o.flags == 0
  | .lrecv h o => h.okTwo && o.src == 0 && o.token == 0 && o.noRing && o.flags == 0
  | .khash h o => h.okTwo && o.plain
  | .klook h o => h.okTwo && !o.ringed && o.ring == 0 && decide (o.flags.toNat < 8)
  | .kopen h o => h.okTwo && o.plain
  | .kwr h o => h.okTwo && o.plain
  | .kseal h o => h.okTwo && o.plain && o.arg == 0
  | .klease h o => h.okTwo && o.plain
  | .kref h o => h.okTwo && o.plain && o.arg == 0
  | .kunref h o => h.okTwo && o.plain && o.arg == 0
  | .kld h o => h.okTwo && decide (o.flags.toNat < 2)
  | .krepl h o => h.okTwo && o.plain && o.arg == 0
  | .kstat h o => h.okTwo && o.plain && o.arg == 0
  | .kdrop h o => h.okTwo && o.plain && o.arg == 0
  | .resultLanding c => decide (c < 896)
  | .heldBundleIssue c => decide (c < 896)
  | .gatherFreezeEnd c => decide (c < 896)
  | .bellowsFreezeEnd c => decide (c < 896)
  | .programTrapEntry c => decide (c < 896)
  | .eretResume c => decide (c < 896)
  | .matrixReadHoldClear c => decide (c < 896)
  | .matrixComplete c => decide (c < 896)
  | .copyComplete c _ => decide (c < 896)
  | .memoryAccessComplete c _ => decide (c < 896)
  | .crucibleCommandComplete c _ => decide (c < 896)
  | .lsendDelivered c _ => decide (c < 896)
  | .waitaddrPoll c _ => decide (c < 896)
  | .waitaddrTimeout c _ => decide (c < 896)
  | .wsRefreshWindowEnd stk grp => decide (stk < 8) && decide (grp < 16)
  | .retryBackoffExpire c _ => decide (c < 896)
  | .tailWordChange q => decide (q < 256)
  | .launchRecord q => decide (q < 256)
  | .ageBoundary => true
  | .unplaceableReport _ => true
  | .taskEntry c => decide (c < 896)
  | .coreRetire c => decide (c < 896)
  | .readMiss agent _ => decide (agent < 88)
  | .checkOut agent _ => decide (agent < 88)
  | .checkIn agent _ => decide (agent < 88)
  | .invalidation agent _ => decide (agent < 88)
  | .invalidationAck agent _ => decide (agent < 88)
  | .silentDrop agent _ => decide (agent < 88)
  | .scPerform c _ => decide (c < 896)
  | .stackRemoval stk => decide (stk < 8)
  | .moduleRemoval mid => decide (mid < 256)
  | .hostSnoopResponse _ => true
  | .hostSnoop _ inval store => decide (store.length = 0) || (inval && decide (store.length = 128))
  | .hostCxlMemWrite a _ => decide (a.port < 2)
  | .hostCxlMemRead a _ => decide (a.port < 2)
  | .cxlMemHeldTimeout _ => true
  | .hdmDecoderCommit port dec _ _ => decide (port < 2) && decide (dec < 4)
  | .sealComplete slot => decide (slot < 67108864)
  | .demoteComplete slot => decide (slot < 67108864)
  | .leaseExpire slot => decide (slot < 67108864)
  | .replicaBlockMoved c _ => decide (c < 896)
  | .storeTick => true
  | .ueDetected c b _ _ _ => decide (c < 896) && decide (b < 65)
  | .ceDetected bank _ _ _ _ => decide (bank < 65)
  | .errorBankClear bank _ _ => decide (bank < 65)
  | .cctlPhase c => decide (c < 896)
  | .cctlForce c => decide (c < 896)
  | .cctlResume c => decide (c < 896)
  | .cctlEnd c => decide (c < 896)
  | .cctlCancel c => decide (c < 896)
  | .contextSaveDone c => decide (c < 896)
  | .contextRestore c => decide (c < 896)
  | .contextRestoreDone c => decide (c < 896)
  | .tokclr c _ => decide (c < 896)
  | .xlrespRetry c _ => decide (c < 896)
  | .xlrespRefuse c _ => decide (c < 896)
  | .evheadWrite _ => true
  | .kill asid => asid != 0
  | .killDone => true
  | .frameMigrate _ _ => true
  | .frameMigrateDone => true
  | .frameReleaseRemap => true
  | .moduleReset => true
  | .fwauthDone _ _ _ _ _ _ => true
  | .meminitDone _ _ halves => decide (halves.length = 8)
  | .mstateGo => true
  | .hcfgWrite _ => true
  | .shootdown _ => true
  | .shootdownDone => true
  | .ovlinvByIdent => true
  | .ovlinvByAsid _ => true
  | .ovlinvAll => true
  | .nsCreate slot => decide (slot < 1024)
  | .nsDestroy slot => decide (slot < 1024)
  | .nsRights slot => decide (slot < 1024)
  | .zadmit _ => true
  | .lqEnable q _ => decide (q < 256)
  | .lqDisable q _ => decide (q < 256)
  | .lqRestart q => decide (q < 256)
  | .slabEntryWrite stk i _ => decide (stk < 8) && decide (i < 88)
  | .cbindWrite stk f _ => decide (stk < 8) && decide (f < 112)
  | .bankRoleWrite stk i _ _ => decide (stk < 8) && decide (i < 88)
  | .roleDrainDone stk i => decide (stk < 8) && decide (i < 88)
  | .wsLoad stk _ => decide (stk < 8)
  | .wsLoadDone stk _ => decide (stk < 8)
  | .crmarkWrite _ => true
  | .hlccfgWrite _ => true
  | .limiterWrite _ _ => true
  | .thermalCapTick _ => true
  | .thermalShutdown _ => true
  | .linkEnable n => decide (n < 16)
  | .linkTrained n _ _ _ _ _ _ => decide (n < 16)
  | .routeWrite d _ => decide (d < 256)
  | .routeSwitch d => decide (d < 256)
  | .registerWrite _ _ => true
  | .dataFlit n bytes => decide (n < 16) && decide (bytes.length = 128)
  | .linkNak n _ => decide (n < 16)
  | .linkPause n _ => decide (n < 16)
  | .linkResume n _ => decide (n < 16)
  | .linkCpause n _ => decide (n < 16)
  | .linkCresume n _ => decide (n < 16)
  | .linkIdle n _ => decide (n < 16)
  | .nakRepeat n => decide (n < 16)
  | .pauseRepeat n => decide (n < 16)
  | .resumeRepeat n => decide (n < 16)
  | .memoryRequestMsg n => decide (n < 16)
  | .responseMsg n => decide (n < 16)
  | .linkMessageMsg n => decide (n < 16)
  | .barrierMsg n => decide (n < 16)
  | .nodeDirectoryMsg n => decide (n < 16)
  | .timeBaseMsg n => decide (n < 16)
  | .managementMsg n => decide (n < 16)
  | .pldmFirmwareUpdate _ _ _ => true
  | .securityFloorAdvance => true
  | .spdmNegotiateAlgorithms => true
  | .spdmGetCertificate => true
  | .spdmChallenge _ => true
  | .spdmGetMeasurements _ => true
  | .powerUp => true
  | .powerRemoval => true
  | .cxlLinkDown _ => true

end Sys2Proof
end

