-- ==== Sys2Proof/Decode.lean ====
section
/-! DEFINITION. Bundles and slot words (07 R165 to R175): the decoder of a bundle's bytes, total on any bytes, and after it
the encoder, both written from 07 Tables 7.1 to 7.9. -/
namespace Sys2Proof

/-- Why a bundle does not decode: ILLBUNDLE (07 R167), or ILLOP in a slot (07 R169 to R173), which carries the slot word.
`slot` is coded as in FREC: 0 S, 1 V0, 2 V1, 3 M, 4 C0, 5 C1 (16 Table 16.3). -/
inductive DecodeError where
  | illBundle
  | illOp (slot : Nat) (word : Word)
  deriving DecidableEq, Repr

/-- A decoded bundle: its instructions in slot order and its length in bytes. -/
structure Bundle where
  slots : List Instr
  len : Nat
  deriving DecidableEq, Repr

/-! ### Field codes -/

def ElemType.code : ElemType → BitVec 4
  | .s8 => 0 | .s16 => 1 | .s32 => 2 | .s64 => 3 | .z8 => 4 | .z16 => 5 | .z32 => 6 | .z64 => 7
  | .bf16 => 8 | .f32 => 9 | .t8 => 10 | .t6 => 11

/-- Codes 12 to 15 are reserved (04 R89). -/
def ElemType.ofCode (c : BitVec 4) : Option ElemType :=
  match c.toNat with
  | 0 => some .s8 | 1 => some .s16 | 2 => some .s32 | 3 => some .s64
  | 4 => some .z8 | 5 => some .z16 | 6 => some .z32 | 7 => some .z64
  | 8 => some .bf16 | 9 => some .f32 | 10 => some .t8 | 11 => some .t6
  | _ => none

def Cond.code : Cond → BitVec 3
  | .eq => 0 | .ne => 1 | .lt => 2 | .le => 3 | .gt => 4 | .ge => 5

def Cond.ofCode (c : BitVec 3) : Option Cond :=
  match c.toNat with
  | 0 => some .eq | 1 => some .ne | 2 => some .lt | 3 => some .le | 4 => some .gt | 5 => some .ge
  | _ => none

def Scope.code : Scope → BitVec 3
  | .cr => 0 | .cl => 1 | .st => 2 | .pk => 3 | .dm => 4 | .sy => 5

def Scope.ofCode (c : BitVec 3) : Option Scope :=
  match c.toNat with
  | 0 => some .cr | 1 => some .cl | 2 => some .st | 3 => some .pk | 4 => some .dm | 5 => some .sy
  | _ => none

def Order.code : Order → BitVec 3
  | .rlx => 0 | .acq => 1 | .rel => 2 | .ar => 3 | .sc => 4

def Order.ofCode (c : BitVec 3) : Option Order :=
  match c.toNat with
  | 0 => some .rlx | 1 => some .acq | 2 => some .rel | 3 => some .ar | 4 => some .sc
  | _ => none

/-- One bit as a flag. -/
def bit (w : BitVec 36) (n : Nat) : Bool := w.getLsbD n

/-! ### Operand forms: reading (07 Table 7.3) -/

/-- Reads form Z. -/
def readZ (w : BitVec 36) (k : Instr) : Option Instr := if w == 0 then some k else none

/-- Reads form SR. -/
def readSR (w : BitVec 36) (k : SR → Instr) : Option Instr :=
  if w.extractLsb' 0 12 == 0 then
    some (k ⟨w.extractLsb' 30 6, w.extractLsb' 24 6, w.extractLsb' 18 6, w.extractLsb' 12 6⟩)
  else none

/-- Reads form SI; with L = 1 the immediate is the literal and imm23 must be zero (07 R170). -/
def readSI (w : BitVec 36) (lit : Word) (k : SI → Instr) : Option Instr :=
  if bit w 23 then
    if w.extractLsb' 0 23 == 0 then some (k ⟨w.extractLsb' 30 6, w.extractLsb' 24 6, .lit lit⟩) else none
  else some (k ⟨w.extractLsb' 30 6, w.extractLsb' 24 6, .imm (w.extractLsb' 0 23)⟩)

/-- Reads form SP. -/
def readSP (w : BitVec 36) (k : SP → Instr) : Option Instr :=
  some (k ⟨w.extractLsb' 30 6, w.extractLsb' 24 6, w.extractLsb' 21 3, w.extractLsb' 0 21⟩)

/-- Reads form SC. -/
def readSC (w : BitVec 36) (k : SC → Instr) : Option Instr :=
  match Cond.ofCode (w.extractLsb' 25 3) with
  | none => none
  | some cc =>
    if bit w 17 then
      some (k ⟨w.extractLsb' 32 4, w.extractLsb' 28 4, cc, bit w 24, w.extractLsb' 18 6, .imm (w.extractLsb' 0 17)⟩)
    else if w.extractLsb' 0 11 == 0 then
      some (k ⟨w.extractLsb' 32 4, w.extractLsb' 28 4, cc, bit w 24, w.extractLsb' 18 6, .reg (w.extractLsb' 11 6)⟩)
    else none

/-- Reads form SM. -/
def readSM (w : BitVec 36) (k : SM → Instr) : Option Instr :=
  if w.extractLsb' 0 16 == 0 then
    some (k ⟨w.extractLsb' 32 4, w.extractLsb' 28 4, w.extractLsb' 24 4, w.extractLsb' 20 4, w.extractLsb' 16 4⟩)
  else none

/-- Reads form SJ. -/
def readSJ (w : BitVec 36) (k : SJ → Instr) : Option Instr :=
  some (k ⟨w.extractLsb' 6 30, w.extractLsb' 0 6⟩)

/-- Reads form VR. -/
def readVR (w : BitVec 36) (k : VR → Instr) : Option Instr :=
  match ElemType.ofCode (w.extractLsb' 2 4) with
  | none => none
  | some ty => some (k ⟨w.extractLsb' 26 10, w.extractLsb' 16 10, w.extractLsb' 6 10, ty, bit w 1, bit w 0⟩)

/-- Reads form VC. -/
def readVC (w : BitVec 36) (k : VC → Instr) : Option Instr :=
  match ElemType.ofCode (w.extractLsb' 1 4), Cond.ofCode (w.extractLsb' 5 3) with
  | some ty, some cc =>
    some (k ⟨w.extractLsb' 32 4, w.extractLsb' 28 4, w.extractLsb' 18 10, w.extractLsb' 8 10, cc, ty, bit w 0⟩)
  | _, _ => none

/-- Reads form VM. -/
def readVM (w : BitVec 36) (k : VM → Instr) : Option Instr :=
  match ElemType.ofCode (w.extractLsb' 0 4) with
  | none => none
  | some ty => some (k ⟨w.extractLsb' 26 10, w.extractLsb' 20 6, w.extractLsb' 10 10, w.extractLsb' 8 2, bit w 7,
      w.extractLsb' 4 3, ty⟩)

/-- Reads form MA. -/
def readMA (w : BitVec 36) (k : MA → Instr) : Option Instr :=
  if w.extractLsb' 0 8 == 0 then
    some (k ⟨bit w 35, w.extractLsb' 29 6, bit w 28, w.extractLsb' 22 6, w.extractLsb' 18 4, w.extractLsb' 12 6, bit w 11,
      w.extractLsb' 8 3⟩)
  else none

/-- Reads form MT. -/
def readMT (w : BitVec 36) (k : MT → Instr) : Option Instr :=
  match ElemType.ofCode (w.extractLsb' 13 4) with
  | none => none
  | some ty =>
    if bit w 0 then none else
    some (k ⟨w.extractLsb' 30 6, w.extractLsb' 24 6, w.extractLsb' 18 6, bit w 17, ty, bit w 12, w.extractLsb' 9 3,
      w.extractLsb' 3 6, bit w 2, bit w 1⟩)

/-- Reads form ML. -/
def readML (w : BitVec 36) (k : ML → Instr) : Option Instr :=
  if w.extractLsb' 0 10 == 0 then
    some (k ⟨w.extractLsb' 30 6, w.extractLsb' 24 6, w.extractLsb' 18 6, w.extractLsb' 14 4, w.extractLsb' 10 4⟩)
  else none

/-- Reads form CB. -/
def readCB (w : BitVec 36) (k : CB → Instr) : Option Instr :=
  match Scope.ofCode (w.extractLsb' 10 3) with
  | none => none
  | some sc => some (k ⟨w.extractLsb' 30 6, w.extractLsb' 24 6, w.extractLsb' 18 6, w.extractLsb' 15 3, w.extractLsb' 13 2, sc,
      bit w 9, w.extractLsb' 6 3, w.extractLsb' 0 6⟩)

/-- Reads form CA. -/
def readCA (w : BitVec 36) (k : CA → Instr) : Option Instr :=
  match Order.ofCode (w.extractLsb' 7 3), Scope.ofCode (w.extractLsb' 4 3) with
  | some so, some sc => some (k ⟨w.extractLsb' 30 6, w.extractLsb' 24 6, w.extractLsb' 18 6, w.extractLsb' 12 6,
      w.extractLsb' 10 2, so, sc, w.extractLsb' 1 3, bit w 0⟩)
  | _, _ => none

/-- Reads form CV. -/
def readCV (w : BitVec 36) (k : CV → Instr) : Option Instr :=
  match ElemType.ofCode (w.extractLsb' 16 4), Order.ofCode (w.extractLsb' 13 3), Scope.ofCode (w.extractLsb' 10 3) with
  | some ty, some so, some sc =>
    if w.extractLsb' 0 7 == 0 then some (k ⟨w.extractLsb' 26 10, w.extractLsb' 20 6, ty, so, sc, w.extractLsb' 7 3⟩) else none
  | _, _, _ => none

/-- Reads form CK. -/
def readCK (w : BitVec 36) (k : CK → Instr) : Option Instr :=
  some (k ⟨w.extractLsb' 30 6, w.extractLsb' 24 6, w.extractLsb' 18 6, w.extractLsb' 15 3, bit w 14, w.extractLsb' 11 3,
    w.extractLsb' 0 11⟩)

/-! ### Opcode maps (07 Tables 7.5 to 7.9) -/

/-- The S class. -/
def readS (h : Head) (op : Nat) (w : BitVec 36) (lit : Word) : Option Instr :=
  match op with
  | 0x00 => readZ w (.nop h)
  | 0x01 => readSR w (.add h)
  | 0x02 => readSI w lit (.addi h)
  | 0x03 => readSR w (.sub h)
  | 0x04 => readSR w (.mul h)
  | 0x05 => readSR w (.mulh h)
  | 0x06 => readSR w (.mulhz h)
  | 0x07 => readSR w (.div h)
  | 0x08 => readSR w (.divz h)
  | 0x09 => readSR w (.rem h)
  | 0x0A => readSR w (.remz h)
  | 0x0B => readSR w (.and h)
  | 0x0C => readSR w (.or h)
  | 0x0D => readSR w (.xor h)
  | 0x0E => readSR w (.andn h)
  | 0x0F => readSI w lit (.andi h)
  | 0x10 => readSI w lit (.ori h)
  | 0x11 => readSI w lit (.xori h)
  | 0x12 => readSR w (.shl h)
  | 0x13 => readSR w (.shr h)
  | 0x14 => readSR w (.shra h)
  | 0x15 => readSI w lit (.shli h)
  | 0x16 => readSI w lit (.shri h)
  | 0x17 => readSI w lit (.shrai h)
  | 0x18 => readSR w (.rot h)
  | 0x19 => readSR w (.clz h)
  | 0x1A => readSR w (.popc h)
  | 0x1B => readSR w (.min h)
  | 0x1C => readSR w (.max h)
  | 0x1D => readSR w (.minz h)
  | 0x1E => readSR w (.maxz h)
  | 0x1F => readSR w (.mov h)
  | 0x20 => readSI w lit (.movi h)
  | 0x21 => readSR w (.ext h)
  | 0x22 => readSR w (.ins h)
  | 0x23 => readSR w (.lea h)
  | 0x24 => readSR w (.sext h)
  | 0x28 => readSP w (.ldsp h)
  | 0x29 => readSP w (.stsp h)
  | 0x30 => readSC w (.cmp h)
  | 0x31 => readSC w (.cmpi h · lit)
  | 0x32 => readSC w (.tbit h)
  | 0x33 => readSR w (.pset h)
  | 0x34 => readSR w (.pget h)
  | 0x35 => readSR w (.pput h)
  | 0x38 => readSR w (.cmpt h)
  | 0x40 => readSJ w (.br h)
  | 0x41 => readSM w (.brm h · lit)
  | 0x42 => readSR w (.jmp h)
  | 0x43 => readSJ w (.call h)
  | 0x44 => readSR w (.ret h)
  | 0x45 => readSJ w (.brloop h)
  | 0x46 => readZ w (.endTask h)
  | 0x48 => readSI w lit (.wait h)
  | 0x49 => readSI w lit (.fmt h)
  | 0x4A => readSI w lit (.view h)
  | 0x4B => readSI w lit (.mvfc h)
  | 0x4C => readSI w lit (.mvtc h)
  | 0x4D => readSI w lit (.lock h)
  | 0x4E => readZ w (.bflip h)
  | 0x4F => readZ w (.specx h)
  | 0x50 => readSI w lit (.trap h)
  | 0x51 => readZ w (.eret h)
  | 0x52 => readZ w (.unlock h)
  | 0x53 => readSR w (.tick h)
  | _ => none

/-- The V class. -/
def readV (h : Head) (op : Nat) (w : BitVec 36) : Option Instr :=
  match op with
  | 0x00 => readZ w (.vnop h)
  | 0x01 => readVR w (.vadd h)
  | 0x02 => readVR w (.vsub h)
  | 0x03 => readVR w (.vmul h)
  | 0x04 => readVR w (.vmad h)
  | 0x05 => readVR w (.vmin h)
  | 0x06 => readVR w (.vmax h)
  | 0x07 => readVR w (.vabs h)
  | 0x08 => readVR w (.vneg h)
  | 0x09 => readVR w (.vand h)
  | 0x0A => readVR w (.vor h)
  | 0x0B => readVR w (.vxor h)
  | 0x0C => readVR w (.vshl h)
  | 0x0D => readVR w (.vshr h)
  | 0x0E => readVR w (.vshra h)
  | 0x0F => readVR w (.vclz h)
  | 0x10 => readVR w (.vpopc h)
  | 0x11 => readVR w (.vwadd h)
  | 0x12 => readVR w (.vwmad h)
  | 0x13 => readVR w (.vsat h)
  | 0x14 => readVR w (.vcvt h)
  | 0x15 => readVR w (.vrcp h)
  | 0x16 => readVR w (.vrsq h)
  | 0x17 => readVR w (.vexp2 h)
  | 0x18 => readVR w (.vlog2 h)
  | 0x20 => readVC w (.vcmp h)
  | 0x21 => readVR w (.vpset h)
  | 0x22 => readVR w (.vpcnt h)
  | 0x23 => readVR w (.vpany h)
  | 0x28 => readVR w (.vrsum h)
  | 0x29 => readVR w (.vrmax h)
  | 0x2A => readVR w (.vrmin h)
  | 0x2B => readVR w (.vscan h)
  | 0x30 => readVR w (.vperm h)
  | 0x31 => readVR w (.vbcast h)
  | 0x32 => readVR w (.vslide h)
  | 0x33 => readVR w (.viota h)
  | 0x34 => readVR w (.vmov h)
  | 0x35 => readVR w (.vmovi h)
  | 0x36 => readVR w (.vgetl h)
  | 0x37 => readVR w (.vputl h)
  | 0x40 => readVM w (.vld h)
  | 0x41 => readVM w (.vst h)
  | 0x42 => readVM w (.vgather h)
  | 0x43 => readVM w (.vscatter h)
  | 0x44 => readVM w (.vlds h)
  | 0x45 => readVM w (.vsts h)
  | 0x48 => readVR w (.vcmpt h)
  | _ => none

/-- The M class. -/
def readM (h : Head) (op : Nat) (w : BitVec 36) : Option Instr :=
  match op with
  | 0x00 => readZ w (.mnop h)
  | 0x01 => readMT w (.mld h)
  | 0x02 => readMT w (.mst h)
  | 0x03 => readML w (.mzero h)
  | 0x04 => readMA w (.mma h)
  | 0x05 => readMA w (.mmas h)
  | 0x06 => readML w (.mnorm h)
  | 0x07 => readML w (.mout h)
  | 0x08 => readML w (.mcvt h)
  | 0x09 => readML w (.mtrn h)
  | 0x10 => readML w (.mfac h)
  | 0x11 => readML w (.lrmul h)
  | 0x12 => readML w (.lradd h)
  | 0x13 => readML w (.mtemper h)
  | 0x14 => readML w (.mdense h)
  | 0x15 => readMA w (.lrmma h)
  | 0x16 => readML w (.mrank h)
  | _ => none

/-- The C class. -/
def readC (h : Head) (op : Nat) (w : BitVec 36) : Option Instr :=
  match op with
  | 0x00 => readZ w (.cnop h)
  | 0x01 => readCB w (.cpy h)
  | 0x02 => readCB w (.cpyr h)
  | 0x03 => readCB w (.radv h)
  | 0x08 => readCA w (.ldg h)
  | 0x09 => readCA w (.stg h)
  | 0x0A => readCV w (.vldg h)
  | 0x0B => readCV w (.vstg h)
  | 0x0C => readCA w (.amo h)
  | 0x0D => readCA w (.cas h)
  | 0x0E => readCA w (.fence h)
  | 0x0F => readCA w (.waitaddr h)
  | 0x11 => readCA w (.bind h)
  | 0x12 => readCA w (.unbind h)
  | 0x18 => readCB w (.bar h)
  | 0x19 => readCB w (.bara h)
  | 0x1A => readCB w (.barw h)
  | 0x1B => readCB w (.sstep h)
  | 0x20 => readCB w (.bcast h)
  | 0x21 => readCB w (.latch h)
  | 0x22 => readCB w (.lsend h)
  | 0x23 => readCB w (.lrecv h)
  | 0x28 => readCK w (.khash h)
  | 0x29 => readCK w (.klook h)
  | 0x2A => readCK w (.kopen h)
  | 0x2B => readCK w (.kwr h)
  | 0x2C => readCK w (.kseal h)
  | 0x2D => readCK w (.klease h)
  | 0x2E => readCK w (.kref h)
  | 0x2F => readCK w (.kunref h)
  | 0x30 => readCK w (.kld h)
  | 0x31 => readCK w (.krepl h)
  | 0x32 => readCK w (.kstat h)
  | 0x33 => readCK w (.kdrop h)
  | _ => none

/-! ### Slot words (07 Table 7.2) -/

/-- The class of a slot position, coded as in FREC. -/
def slotClass (slot : Nat) : SlotClass :=
  match slot with
  | 0 => .S | 1 => .V | 2 => .V | 3 => .M | _ => .C

/-- Head of a slot word standing in `slot` of a bundle whose SPEC bit is `spec`. -/
def headOf (slot : Nat) (spec : Bool) (w : Word) : Head :=
  { unit := slot == 2 || slot == 5, spec := spec,
    ga := w.extractLsb' 60 4, gb := w.extractLsb' 56 4, gc := w.extractLsb' 52 4, gt := w.extractLsb' 44 8,
    tri := w.getLsbD 43 }

/-- The instruction of a class by its opcode, before the encoding checks. -/
def readClass (c : SlotClass) (h : Head) (op : Nat) (opr : BitVec 36) (lit : Word) : Option Instr :=
  match c with
  | .S => readS h op opr lit
  | .V => readV h op opr
  | .M => readM h op opr
  | .C => readC h op opr

/-- The instruction if it is well formed. -/
def keepWf : Option Instr → Option Instr
  | none => none
  | some i => if i.wf then some i else none

/-- The instruction of a slot word, or none where the encoding checks make it ILLOP. -/
def decodeSlot (slot : Nat) (spec : Bool) (w lit : Word) : Option Instr :=
  keepWf (readClass (slotClass slot) (headOf slot spec w) (w.extractLsb' 36 7).toNat (w.extractLsb' 0 36) lit)

/-- Whether a slot word reads the literal: an SI-form S opcode with L = 1, BRM, CMPI (07 R168, Table 7.9). -/
def readsLiteral (slot : Nat) (w : Word) : Bool :=
  let op := (w.extractLsb' 36 7).toNat
  slot == 0 &&
    (op == 0x41 || op == 0x31 ||
      (w.getLsbD 23 && (op == 0x02 || op == 0x0F || op == 0x10 || op == 0x11 || op == 0x15 || op == 0x16 || op == 0x17 ||
        op == 0x20 || op == 0x48 || op == 0x49 || op == 0x4A || op == 0x4B || op == 0x4C || op == 0x4D || op == 0x50)))

/-- Little-endian number of a list of bytes (00 R7). -/
def leNat : List Byte → Nat
  | [] => 0
  | b :: bs => b.toNat + 256 * leNat bs

/-- The `n` low bytes of a number, least significant first. -/
def leBytes : Nat → Nat → List Byte
  | 0, _ => []
  | n + 1, v => BitVec.ofNat 8 v :: leBytes n (v / 256)

/-- The 64-bit word at byte `k` of a list. -/
def wordAt (bs : List Byte) (k : Nat) : Word := BitVec.ofNat 64 (leNat ((bs.drop k).take 8))

/-! ### Bundles (07 R165 to R168) -/

/-- The slots that a header names present, in slot order. -/
def presentSlots (hdr : Byte) : List Nat := [0, 1, 2, 3, 4, 5].filter (fun k => hdr.getLsbD k)

/-- Decodes the slot words in order, the first ILLOP being the one reported (07 R175). -/
def decodeSlots (spec : Bool) (lit : Word) (body : List Byte) : List Nat → Nat → Except DecodeError (List Instr)
  | [], _ => .ok []
  | k :: ks, at_ =>
    let w := wordAt body at_
    match decodeSlot k spec w lit with
    | none => .error (.illOp k w)
    | some i =>
      match decodeSlots spec lit body ks (at_ + 8) with
      | .error e => .error e
      | .ok is => .ok (i :: is)

/-- Whether some present slot reads the literal. -/
def anyReadsLiteral (body : List Byte) : List Nat → Nat → Bool
  | [], _ => false
  | k :: ks, at_ => readsLiteral k (wordAt body at_) || anyReadsLiteral body ks (at_ + 8)

/-- BFLIP shares its bundle with another present slot: ILLOP whatever the guards (08 R210). -/
def flipNotAlone (is : List Instr) : Bool :=
  match is with
  | .bflip _ :: _ :: _ => true
  | _ => false

/-- Decodes the bundle that begins a list of bytes reaching to the end of its fetch line.
A header with no slot is refused; a 0x00 header (a line skip) is handled by fetch before this.
A BFLIP that is not alone (08 R210), which 07 R175 does not rank, comes after the encoding faults of every slot and before holds and
faults of issue: the model's choice (log 58). -/
def decodeBundle (line : List Byte) : Except DecodeError Bundle :=
  match line with
  | [] => .error .illBundle
  | hdr :: body =>
    let ks := presentSlots hdr
    let lit := hdr.getLsbD 7
    let len := 8 * ks.length + (if lit then 8 else 0)
    if ks.isEmpty then .error .illBundle
    else if body.length < len then .error .illBundle
    else if anyReadsLiteral body ks 0 && !lit then .error .illBundle
    else
      match decodeSlots (hdr.getLsbD 6) (wordAt body (8 * ks.length)) body ks 0 with
      | .error e => .error e
      | .ok is => if flipNotAlone is then .error (.illOp 0 (wordAt body 0)) else .ok ⟨is, 1 + len⟩

/-! ### The encoder -/

/-- A flag as a one-bit field. -/
abbrev fb (b : Bool) : BitVec 1 := BitVec.ofBool b

def SR.bits (o : SR) : BitVec 36 := o.d ++ o.a ++ o.b ++ o.c ++ (0 : BitVec 12)
def SI.bits (o : SI) : BitVec 36 :=
  match o.imm with
  | .imm v => o.d ++ o.a ++ (0 : BitVec 1) ++ v
  | .lit _ => o.d ++ o.a ++ (1 : BitVec 1) ++ (0 : BitVec 23)
def SP.bits (o : SP) : BitVec 36 := o.d ++ o.a ++ o.sz ++ o.off
def SC.bits (o : SC) : BitVec 36 :=
  match o.src with
  | .reg b => o.ft ++ o.ff ++ o.cc.code ++ fb o.z ++ o.a ++ (0 : BitVec 1) ++ b ++ (0 : BitVec 11)
  | .imm v => o.ft ++ o.ff ++ o.cc.code ++ fb o.z ++ o.a ++ (1 : BitVec 1) ++ v
def SM.bits (o : SM) : BitVec 36 := o.fa ++ o.fb ++ o.fc ++ o.fd ++ o.n ++ (0 : BitVec 16)
def SJ.bits (o : SJ) : BitVec 36 := o.off ++ o.byte
def VR.bits (o : VR) : BitVec 36 := o.d ++ o.a ++ o.b ++ o.ty.code ++ fb o.i ++ fb o.md
def VC.bits (o : VC) : BitVec 36 := o.pt ++ o.pf ++ o.a ++ o.b ++ o.cc.code ++ o.ty.code ++ fb o.i
def VM.bits (o : VM) : BitVec 36 := o.v ++ o.base ++ o.idx ++ o.iw ++ fb o.sx ++ o.scale ++ o.ty.code
def MA.bits (o : MA) : BitVec 36 :=
  fb o.ra ++ o.a ++ fb o.rb ++ o.b ++ o.q ++ o.wait ++ fb o.pop ++ o.sp ++ (0 : BitVec 8)
def MT.bits (o : MT) : BitVec 36 :=
  o.m ++ o.base ++ o.stride ++ fb o.t ++ o.ty.code ++ fb o.r ++ o.ring ++ o.wait ++ fb o.pop ++ fb o.rep ++ (0 : BitVec 1)
def ML.bits (o : ML) : BitVec 36 := o.d ++ o.a ++ o.b ++ o.q ++ o.md ++ (0 : BitVec 10)
def CB.bits (o : CB) : BitVec 36 :=
  o.dst ++ o.src ++ o.shape ++ o.token ++ o.order ++ o.scope.code ++ fb o.ringed ++ o.ring ++ o.flags
def CA.bits (o : CA) : BitVec 36 :=
  o.d ++ o.addr ++ o.val ++ o.x ++ o.size ++ o.so.code ++ o.scope.code ++ o.token ++ fb o.fo
def CV.bits (o : CV) : BitVec 36 :=
  o.v ++ o.addr ++ o.ty.code ++ o.order.code ++ o.scope.code ++ o.token ++ (0 : BitVec 7)
def CK.bits (o : CK) : BitVec 36 :=
  o.dst ++ o.hnd ++ o.arg ++ o.token ++ fb o.ringed ++ o.ring ++ o.flags

/-- The literal that an immediate reads, if any. -/
def Imm.literal : Imm → Option Word
  | .imm _ => none
  | .lit v => some v

/-- What the encoder needs of a slot instruction. -/
structure Enc where
  cls : SlotClass
  head : Head
  op : BitVec 7
  opr : BitVec 36
  lit : Option Word
  deriving DecidableEq, Repr

/-- Class, opcode and operand bits of every slot instruction; an event has no encoding. -/
def Instr.enc : Instr → Option Enc
  | .nop h => some ⟨.S, h, 0x00, 0, none⟩
  | .add h o => some ⟨.S, h, 0x01, o.bits, none⟩
  | .addi h o => some ⟨.S, h, 0x02, o.bits, o.imm.literal⟩
  | .sub h o => some ⟨.S, h, 0x03, o.bits, none⟩
  | .mul h o => some ⟨.S, h, 0x04, o.bits, none⟩
  | .mulh h o => some ⟨.S, h, 0x05, o.bits, none⟩
  | .mulhz h o => some ⟨.S, h, 0x06, o.bits, none⟩
  | .div h o => some ⟨.S, h, 0x07, o.bits, none⟩
  | .divz h o => some ⟨.S, h, 0x08, o.bits, none⟩
  | .rem h o => some ⟨.S, h, 0x09, o.bits, none⟩
  | .remz h o => some ⟨.S, h, 0x0A, o.bits, none⟩
  | .and h o => some ⟨.S, h, 0x0B, o.bits, none⟩
  | .or h o => some ⟨.S, h, 0x0C, o.bits, none⟩
  | .xor h o => some ⟨.S, h, 0x0D, o.bits, none⟩
  | .andn h o => some ⟨.S, h, 0x0E, o.bits, none⟩
  | .andi h o => some ⟨.S, h, 0x0F, o.bits, o.imm.literal⟩
  | .ori h o => some ⟨.S, h, 0x10, o.bits, o.imm.literal⟩
  | .xori h o => some ⟨.S, h, 0x11, o.bits, o.imm.literal⟩
  | .shl h o => some ⟨.S, h, 0x12, o.bits, none⟩
  | .shr h o => some ⟨.S, h, 0x13, o.bits, none⟩
  | .shra h o => some ⟨.S, h, 0x14, o.bits, none⟩
  | .shli h o => some ⟨.S, h, 0x15, o.bits, o.imm.literal⟩
  | .shri h o => some ⟨.S, h, 0x16, o.bits, o.imm.literal⟩
  | .shrai h o => some ⟨.S, h, 0x17, o.bits, o.imm.literal⟩
  | .rot h o => some ⟨.S, h, 0x18, o.bits, none⟩
  | .clz h o => some ⟨.S, h, 0x19, o.bits, none⟩
  | .popc h o => some ⟨.S, h, 0x1A, o.bits, none⟩
  | .min h o => some ⟨.S, h, 0x1B, o.bits, none⟩
  | .max h o => some ⟨.S, h, 0x1C, o.bits, none⟩
  | .minz h o => some ⟨.S, h, 0x1D, o.bits, none⟩
  | .maxz h o => some ⟨.S, h, 0x1E, o.bits, none⟩
  | .mov h o => some ⟨.S, h, 0x1F, o.bits, none⟩
  | .movi h o => some ⟨.S, h, 0x20, o.bits, o.imm.literal⟩
  | .ext h o => some ⟨.S, h, 0x21, o.bits, none⟩
  | .ins h o => some ⟨.S, h, 0x22, o.bits, none⟩
  | .lea h o => some ⟨.S, h, 0x23, o.bits, none⟩
  | .sext h o => some ⟨.S, h, 0x24, o.bits, none⟩
  | .ldsp h o => some ⟨.S, h, 0x28, o.bits, none⟩
  | .stsp h o => some ⟨.S, h, 0x29, o.bits, none⟩
  | .cmp h o => some ⟨.S, h, 0x30, o.bits, none⟩
  | .cmpi h o lit => some ⟨.S, h, 0x31, o.bits, some lit⟩
  | .tbit h o => some ⟨.S, h, 0x32, o.bits, none⟩
  | .pset h o => some ⟨.S, h, 0x33, o.bits, none⟩
  | .pget h o => some ⟨.S, h, 0x34, o.bits, none⟩
  | .pput h o => some ⟨.S, h, 0x35, o.bits, none⟩
  | .cmpt h o => some ⟨.S, h, 0x38, o.bits, none⟩
  | .br h o => some ⟨.S, h, 0x40, o.bits, none⟩
  | .brm h o lit => some ⟨.S, h, 0x41, o.bits, some lit⟩
  | .jmp h o => some ⟨.S, h, 0x42, o.bits, none⟩
  | .call h o => some ⟨.S, h, 0x43, o.bits, none⟩
  | .ret h o => some ⟨.S, h, 0x44, o.bits, none⟩
  | .brloop h o => some ⟨.S, h, 0x45, o.bits, none⟩
  | .endTask h => some ⟨.S, h, 0x46, 0, none⟩
  | .wait h o => some ⟨.S, h, 0x48, o.bits, o.imm.literal⟩
  | .fmt h o => some ⟨.S, h, 0x49, o.bits, o.imm.literal⟩
  | .view h o => some ⟨.S, h, 0x4A, o.bits, o.imm.literal⟩
  | .mvfc h o => some ⟨.S, h, 0x4B, o.bits, o.imm.literal⟩
  | .mvtc h o => some ⟨.S, h, 0x4C, o.bits, o.imm.literal⟩
  | .lock h o => some ⟨.S, h, 0x4D, o.bits, o.imm.literal⟩
  | .unlock h => some ⟨.S, h, 0x52, 0, none⟩
  | .bflip h => some ⟨.S, h, 0x4E, 0, none⟩
  | .specx h => some ⟨.S, h, 0x4F, 0, none⟩
  | .trap h o => some ⟨.S, h, 0x50, o.bits, o.imm.literal⟩
  | .eret h => some ⟨.S, h, 0x51, 0, none⟩
  | .tick h o => some ⟨.S, h, 0x53, o.bits, none⟩
  | .vnop h => some ⟨.V, h, 0x00, 0, none⟩
  | .vadd h o => some ⟨.V, h, 0x01, o.bits, none⟩
  | .vsub h o => some ⟨.V, h, 0x02, o.bits, none⟩
  | .vmul h o => some ⟨.V, h, 0x03, o.bits, none⟩
  | .vmad h o => some ⟨.V, h, 0x04, o.bits, none⟩
  | .vmin h o => some ⟨.V, h, 0x05, o.bits, none⟩
  | .vmax h o => some ⟨.V, h, 0x06, o.bits, none⟩
  | .vabs h o => some ⟨.V, h, 0x07, o.bits, none⟩
  | .vneg h o => some ⟨.V, h, 0x08, o.bits, none⟩
  | .vand h o => some ⟨.V, h, 0x09, o.bits, none⟩
  | .vor h o => some ⟨.V, h, 0x0A, o.bits, none⟩
  | .vxor h o => some ⟨.V, h, 0x0B, o.bits, none⟩
  | .vshl h o => some ⟨.V, h, 0x0C, o.bits, none⟩
  | .vshr h o => some ⟨.V, h, 0x0D, o.bits, none⟩
  | .vshra h o => some ⟨.V, h, 0x0E, o.bits, none⟩
  | .vclz h o => some ⟨.V, h, 0x0F, o.bits, none⟩
  | .vpopc h o => some ⟨.V, h, 0x10, o.bits, none⟩
  | .vwadd h o => some ⟨.V, h, 0x11, o.bits, none⟩
  | .vwmad h o => some ⟨.V, h, 0x12, o.bits, none⟩
  | .vsat h o => some ⟨.V, h, 0x13, o.bits, none⟩
  | .vcvt h o => some ⟨.V, h, 0x14, o.bits, none⟩
  | .vrcp h o => some ⟨.V, h, 0x15, o.bits, none⟩
  | .vrsq h o => some ⟨.V, h, 0x16, o.bits, none⟩
  | .vexp2 h o => some ⟨.V, h, 0x17, o.bits, none⟩
  | .vlog2 h o => some ⟨.V, h, 0x18, o.bits, none⟩
  | .vcmp h o => some ⟨.V, h, 0x20, o.bits, none⟩
  | .vpset h o => some ⟨.V, h, 0x21, o.bits, none⟩
  | .vpcnt h o => some ⟨.V, h, 0x22, o.bits, none⟩
  | .vpany h o => some ⟨.V, h, 0x23, o.bits, none⟩
  | .vrsum h o => some ⟨.V, h, 0x28, o.bits, none⟩
  | .vrmax h o => some ⟨.V, h, 0x29, o.bits, none⟩
  | .vrmin h o => some ⟨.V, h, 0x2A, o.bits, none⟩
  | .vscan h o => some ⟨.V, h, 0x2B, o.bits, none⟩
  | .vperm h o => some ⟨.V, h, 0x30, o.bits, none⟩
  | .vbcast h o => some ⟨.V, h, 0x31, o.bits, none⟩
  | .vslide h o => some ⟨.V, h, 0x32, o.bits, none⟩
  | .viota h o => some ⟨.V, h, 0x33, o.bits, none⟩
  | .vmov h o => some ⟨.V, h, 0x34, o.bits, none⟩
  | .vmovi h o => some ⟨.V, h, 0x35, o.bits, none⟩
  | .vgetl h o => some ⟨.V, h, 0x36, o.bits, none⟩
  | .vputl h o => some ⟨.V, h, 0x37, o.bits, none⟩
  | .vld h o => some ⟨.V, h, 0x40, o.bits, none⟩
  | .vst h o => some ⟨.V, h, 0x41, o.bits, none⟩
  | .vgather h o => some ⟨.V, h, 0x42, o.bits, none⟩
  | .vscatter h o => some ⟨.V, h, 0x43, o.bits, none⟩
  | .vlds h o => some ⟨.V, h, 0x44, o.bits, none⟩
  | .vsts h o => some ⟨.V, h, 0x45, o.bits, none⟩
  | .vcmpt h o => some ⟨.V, h, 0x48, o.bits, none⟩
  | .mnop h => some ⟨.M, h, 0x00, 0, none⟩
  | .mld h o => some ⟨.M, h, 0x01, o.bits, none⟩
  | .mst h o => some ⟨.M, h, 0x02, o.bits, none⟩
  | .mzero h o => some ⟨.M, h, 0x03, o.bits, none⟩
  | .mma h o => some ⟨.M, h, 0x04, o.bits, none⟩
  | .mmas h o => some ⟨.M, h, 0x05, o.bits, none⟩
  | .mnorm h o => some ⟨.M, h, 0x06, o.bits, none⟩
  | .mout h o => some ⟨.M, h, 0x07, o.bits, none⟩
  | .mcvt h o => some ⟨.M, h, 0x08, o.bits, none⟩
  | .mtrn h o => some ⟨.M, h, 0x09, o.bits, none⟩
  | .mfac h o => some ⟨.M, h, 0x10, o.bits, none⟩
  | .lrmul h o => some ⟨.M, h, 0x11, o.bits, none⟩
  | .lradd h o => some ⟨.M, h, 0x12, o.bits, none⟩
  | .mtemper h o => some ⟨.M, h, 0x13, o.bits, none⟩
  | .mdense h o => some ⟨.M, h, 0x14, o.bits, none⟩
  | .lrmma h o => some ⟨.M, h, 0x15, o.bits, none⟩
  | .mrank h o => some ⟨.M, h, 0x16, o.bits, none⟩
  | .cnop h => some ⟨.C, h, 0x00, 0, none⟩
  | .cpy h o => some ⟨.C, h, 0x01, o.bits, none⟩
  | .cpyr h o => some ⟨.C, h, 0x02, o.bits, none⟩
  | .radv h o => some ⟨.C, h, 0x03, o.bits, none⟩
  | .ldg h o => some ⟨.C, h, 0x08, o.bits, none⟩
  | .stg h o => some ⟨.C, h, 0x09, o.bits, none⟩
  | .vldg h o => some ⟨.C, h, 0x0A, o.bits, none⟩
  | .vstg h o => some ⟨.C, h, 0x0B, o.bits, none⟩
  | .amo h o => some ⟨.C, h, 0x0C, o.bits, none⟩
  | .cas h o => some ⟨.C, h, 0x0D, o.bits, none⟩
  | .fence h o => some ⟨.C, h, 0x0E, o.bits, none⟩
  | .waitaddr h o => some ⟨.C, h, 0x0F, o.bits, none⟩
  | .bind h o => some ⟨.C, h, 0x11, o.bits, none⟩
  | .unbind h o => some ⟨.C, h, 0x12, o.bits, none⟩
  | .bar h o => some ⟨.C, h, 0x18, o.bits, none⟩
  | .bara h o => some ⟨.C, h, 0x19, o.bits, none⟩
  | .barw h o => some ⟨.C, h, 0x1A, o.bits, none⟩
  | .sstep h o => some ⟨.C, h, 0x1B, o.bits, none⟩
  | .bcast h o => some ⟨.C, h, 0x20, o.bits, none⟩
  | .latch h o => some ⟨.C, h, 0x21, o.bits, none⟩
  | .lsend h o => some ⟨.C, h, 0x22, o.bits, none⟩
  | .lrecv h o => some ⟨.C, h, 0x23, o.bits, none⟩
  | .khash h o => some ⟨.C, h, 0x28, o.bits, none⟩
  | .klook h o => some ⟨.C, h, 0x29, o.bits, none⟩
  | .kopen h o => some ⟨.C, h, 0x2A, o.bits, none⟩
  | .kwr h o => some ⟨.C, h, 0x2B, o.bits, none⟩
  | .kseal h o => some ⟨.C, h, 0x2C, o.bits, none⟩
  | .klease h o => some ⟨.C, h, 0x2D, o.bits, none⟩
  | .kref h o => some ⟨.C, h, 0x2E, o.bits, none⟩
  | .kunref h o => some ⟨.C, h, 0x2F, o.bits, none⟩
  | .kld h o => some ⟨.C, h, 0x30, o.bits, none⟩
  | .krepl h o => some ⟨.C, h, 0x31, o.bits, none⟩
  | .kstat h o => some ⟨.C, h, 0x32, o.bits, none⟩
  | .kdrop h o => some ⟨.C, h, 0x33, o.bits, none⟩
  | _ => none

/-- The slot position of an encoded instruction, coded as in FREC. -/
def Enc.slot (e : Enc) : Nat :=
  match e.cls, e.head.unit with
  | .S, _ => 0
  | .V, false => 1
  | .V, true => 2
  | .M, _ => 3
  | .C, false => 4
  | .C, true => 5

/-- The slot word (07 Table 7.2). -/
def Enc.word (e : Enc) : Word :=
  e.head.ga ++ e.head.gb ++ e.head.gc ++ e.head.gt ++ fb e.head.tri ++ e.op ++ e.opr

/-- The header of the bundle that holds the instruction alone (07 Table 7.1). -/
def Enc.header (e : Enc) : Byte :=
  fb e.lit.isSome ++ fb e.head.spec ++ fb (e.slot == 5) ++ fb (e.slot == 4) ++ fb (e.slot == 3) ++ fb (e.slot == 2) ++
    fb (e.slot == 1) ++ fb (e.slot == 0)

/-- The bytes of the bundle that holds the instruction alone. -/
def Enc.bytes (e : Enc) : List Byte :=
  e.header :: (leBytes 8 e.word.toNat ++
    match e.lit with
    | none => []
    | some v => leBytes 8 v.toNat)

/-- The bytes of the one-slot bundle of a slot instruction; none for an event. -/
def encode (i : Instr) : Option (List Byte) := i.enc.map Enc.bytes

/-! ### The host's question -/

/-- The instruction that the decoder reads from a one-slot bundle whose bytes are `w` (the header byte is bits 7..0), with
zero bytes after the given ones up to the end of a 64-byte fetch line. -/
def decodeTableWord (nbits w : Nat) : Option Instr :=
  match decodeBundle (leBytes (nbits / 8) w ++ List.replicate (64 - nbits / 8) 0) with
  | .ok ⟨[i], _⟩ => some i
  | _ => none

end Sys2Proof
end

