-- ==== Sys2Proof/Machine/State.lean ====
section
/-! DEFINITION. The state of an Exris module as plain data, the state after reset, and the reasons a step can stop.
Groups of fields follow the chapters; each docstring names the rule that gives the state. -/
namespace Sys2Proof.Machine
open Sys2Proof

/-- Byte storage: (address, byte) pairs, addresses strictly rising, no listed byte zero; an unlisted address reads zero
(DESIGN CHOICE, log 2). Used for memory by physical address, register space, banks, the weight store and overlay pages. -/
abbrev Memory := List Host.Cell

/-! ### Registers of a core -/

/-- Programmer's registers of a core (03 R73; 01 R12, R15).
`f` holds f_i in bit i; the member g slice of p_i stands at index 4i + g.
Byte a of member g lies at g * 0x80000 + a of `rf` and at g * 0x100000 + a of `bank`. -/
structure Regs where
  x : Vector Word 64
  f : BitVec 16
  p : Vector (BitVec 256) 64
  rf : Memory
  bank : Memory
  deriving DecidableEq, Repr

/-- Identity registers (01 R18 to R23). -/
structure Ident where
  core : Word
  gang : Word
  cluster : Word
  stack : Word
  module : Word
  dmem : Vector Word 5
  deriving DecidableEq, Repr

/-- Control registers that MVFC and MVTC name (07 Table 7.10), other than rings, tokens and identity. -/
structure Ctl where
  fmt : Word
  tol : Word
  vview : Word
  mview : Word
  qview : Word
  tvec : Word
  epc : Word
  tcause : Word
  taddr : Word
  sticky : Word
  iter : Word
  cyc : Word
  frzcnt : Word
  bstat : Word
  deriving DecidableEq, Repr

/-! ### Rings and tokens -/

/-- Slots claimed by one producer (a copy, KLD or RADV) in reservation order, and whether it has completed (03 R81). -/
structure RingClaim where
  seq : Nat
  n : Nat
  done : Bool
  deriving DecidableEq, Repr

/-- A pop by a consumer (matrix instruction `num`, or RADV head) and whether it has retired (03 R81; 11 R272). -/
structure RingPop where
  num : Nat
  n : Nat
  done : Bool
  deriving DecidableEq, Repr

/-- A ring: the fields of Table 3.8, whether it is configured (14 R304), its reservation counter (16 Table 16.6) and its
claims and pops in order. -/
structure Ring where
  tail : BitVec 12
  head : BitVec 12
  nslot : BitVec 8
  ssz : BitVec 3
  base : BitVec 12
  cons : BitVec 12
  on : Bool
  resv : BitVec 12
  claims : List RingClaim
  pops : List RingPop
  deriving DecidableEq, Repr

/-- A copy token (03 R82 Table 3.9; deferred error 08 R211). `errAt`, `defAt` are the issue numbers of the errors held, `since`
the first issue number after its error was last cleared. -/
structure Token where
  cnt : BitVec 4
  err : BitVec 3
  errAt : Nat
  spec : Bool
  defErr : BitVec 3
  defAt : Nat
  since : Nat
  deriving DecidableEq, Repr

/-! ### Matrix unit -/

/-- Tag of a tile register: form, element format and the rank of each member (03 R68; 10 R241). -/
structure Tile where
  factored : Bool
  ty : ElemType
  rank : Vector (BitVec 8) 4
  deriving DecidableEq, Repr

/-- A register that a matrix instruction names. -/
inductive TReg where
  | tile (n : Nat)
  | acc (n : Nat)
  deriving DecidableEq, Repr

/-- What a matrix instruction brings about when it completes (10 R242, R253, R261). -/
structure MOut where
  rf : Memory
  bank : Memory
  tags : List (Nat × Tile)
  overflow : List Nat
  saturated : List Nat
  deriving DecidableEq, Repr

/-- A matrix instruction in the Anvil's queue, with what it captured at issue (10 R242 to R244).
`start` is the clock period at which it began, `occ` its occupancy, `delay` its delay; `out` is known from the start on. -/
structure MJob where
  num : Nat
  ins : Instr
  ctl : Ctl
  xa : Word
  xb : Word
  ringA : Nat
  ringB : Nat
  reads : List TReg
  writes : List TReg
  pops : List Nat
  slow : Bool
  start : Option Nat
  occ : Nat
  delay : Nat
  read : Bool
  out : MOut
  deriving DecidableEq, Repr

/-! ### Pending results -/

/-- What lands (16 R350 kinds): x, predicates in a mask, a lane predicate, vector bytes by their position in the
register, a control register; or a pending VOTE3 (08 R186). -/
inductive PVal where
  | x (r : XReg) (v : Word)
  | f (mask val : BitVec 16)
  | p (r : PReg) (mask val : Vector (BitVec 256) 4)
  | v (addr : Nat) (bytes : List (Nat × Byte))
  | ctl (n : BitVec 12) (v : Word)
  | vote3
  deriving DecidableEq, Repr

/-- An entry of the pending-write queue: distance in issue cycles, slot, value (03 R86). -/
structure Pend where
  dist : Nat
  slot : Nat
  val : PVal
  deriving DecidableEq, Repr

/-- A scratchpad write on its way (03 R59; log 6): resolved bank cells. -/
structure BWrite where
  dist : Nat
  cells : List Host.Cell
  deriving DecidableEq, Repr

/-- Boundary changes, applied at the end of the issue cycle (08 R185), ring moves (11 R272) and bus errors (03 R84) among them. -/
inductive Bnd where
  | ctl (n : BitVec 12) (v : Word)
  | ring (n : HRing) (v : Word)
  | woff (v : BitVec 10)
  | lockm (m : BitVec 8)
  | jump (pc : BitVec 56)
  | halt
  | bind (base len obj : Word)
  | unbind (obj : Word)
  | fence (lvl : Nat)
  | flip
  | drain
  | claim (n : HRing) (k : RingClaim)
  | pop (n : HRing) (p : RingPop)
  | busErr (a : Word) (trap : Bool)
  deriving DecidableEq, Repr

/-- A condition that holds a bundle (03 R63; 02 R45, R46; 08 R206, R207, R210; 11 R272, R283, R284). -/
inductive Hold where
  | tokens (mask : BitVec 8)
  | tokenFull (k : KTok)
  | ringFill (n : HRing) (w : Nat)
  | ringFull (n : HRing) (k : Nat)
  | ringBusy (n : HRing)
  | regs (reads writes : List TReg)
  | flip
  | empty (ch : BitVec 6)
  | path (ch : BitVec 6)
  | barAhead (lvl : Nat)
  | barGen (lvl gen : Nat)
  | scopeDone (lvl : Nat)
  | lock (mask : BitVec 8)
  | unlock
  deriving DecidableEq, Repr

/-- The waits that are barrier waits and count neither as issue cycles nor in FRZCNT (02 R41; 08 R206; 11 R280). -/
def Hold.isBarrier : Hold → Bool
  | .barAhead _ | .barGen _ _ | .scopeDone _ | .lock _ | .unlock => true
  | _ => false

/-- How the slots of the bundle in issue have fared so far (log 1). -/
inductive Stat where
  | ready | held | stopped
  deriving DecidableEq, Repr

/-! ### C-slot commands -/

/-- An outstanding C-slot command (11 R263, R270; 16 R348, R349).
`ops` are the register operands read at issue, `data` captured bytes (VSTG elements, LSEND message, a BIND cover),
`ring` the ring and the slot reserved, `retry` the line at which its request was refused, `asked` the same until the request is granted, `born` the core's
clock at issue, `stage` how far the command has come
(0 issued; 1 waiting for its covered writes or remote reads; 2 written and waiting for fan-outs or remote homes),
`fence` the widest release FENCE before it (11 R277), `fans` the fan-outs it waits for, `asks` its remote reads outstanding by tag, `got` the remote bytes read, `acks` its
remote writes outstanding (log 9). -/
structure Cmd where
  seq : Nat
  unit : Bool
  ins : Instr
  tok : KTok
  spec : Bool
  ops : List Word
  addr : Nat
  data : List (Nat × Byte)
  ring : Option (Nat × Nat)
  regions : List (Word × Word)
  fence : Nat
  err : BitVec 3
  parked : Option (Word × Bool)
  retry : Option Nat
  asked : Option Nat
  window : Bool
  performed : Bool
  last : Word
  limit : Option Nat
  pins : List Nat
  born : Nat
  stage : Nat
  fans : List Nat
  asks : List (BitVec 32 × Nat × Nat)
  got : List Host.Cell
  acks : List (BitVec 32)
  deriving DecidableEq, Repr

/-- An entry of the phase log: the slot word's instruction, the operands read at issue, and of VLDG and VSTG the enabled
bytes (16 R357). -/
structure LogEntry where
  ins : Instr
  ops : List Word
  data : List (Nat × Byte)
  deriving DecidableEq, Repr

/-! ### A core -/

/-- What the empty issue cycles under way lead to (03 R58, R86; 08 R210). -/
inductive After where
  | issue
  | flip
  | drain
  | resume
  deriving DecidableEq, Repr

/-- Issue state (03 R63 to R65, R84 to R88): `pc` is the bundle in issue or next to issue and `nextPc` its successor;
`gatherFrz` counts the periods left of a conflict freeze, `bellowsFrz` those passed of a Bellows freeze; `arrv` the
barrier arrivals that the held bundle has already made (8 slot + level; from 1,000 up: of the bundle at EPC), `granted` that its LOCK or UNLOCK may now issue; `clock` the core's clock periods,
`busErr` the addresses of bus errors whose trap is to come, `target` the branch target that issues next (08 R196), `corrected` that
the copies of the operation in issue disagreed (08 R186). -/
structure Front where
  pc : BitVec 56
  nextPc : BitVec 56
  bubbles : Nat
  after : After
  gatherFrz : Option Nat
  bellowsFrz : Option Nat
  held : Bool
  holds : List Hold
  arrv : List Nat
  granted : Bool
  ended : Bool
  departed : Bool
  stat : Stat
  bnd : List Bnd
  upset : Vector Word 3
  trapReq : Option (BitVec 23)
  busErr : List Word
  target : Option (BitVec 56)
  corrected : Bool
  accReq : Bool
  povt : BitVec 64
  povq : BitVec 16
  window : List Nat
  clock : Nat
  deriving DecidableEq, Repr

/-- Results on their way. -/
structure Pipe where
  pwq : List Pend
  aside : List Pend
  bwq : List BWrite
  deriving DecidableEq, Repr

/-- The binding table (05 R121): base, length, object. -/
structure Binding where
  base : Word
  len : Word
  obj : Word
  deriving DecidableEq, Repr

/-- Asynchronous units of a core. `fence` is the widest scope level of its release FENCEs, 0 for none (11 R277). -/
structure Units where
  rings : Vector Ring 8
  tokens : Vector Token 8
  tiles : Vector Tile 64
  anvil : List MJob
  nextNum : Nat
  cmds : List Cmd
  nextSeq : Nat
  bindings : List Binding
  fence : Nat
  lamport : Word
  deriving DecidableEq, Repr

/-- Phases: bank pairs' fronts and SPECX marks by member, checkpoint, log and replay (08 R210 to R212; 16 R356, R357).
`flipPc`, `flipSeq`, `flipResv` are the bundle, the next issue number and the rings' reservation counters at the last BFLIP. -/
structure Phase where
  front : Vector (BitVec 16) 4
  invalid : Vector (BitVec 16) 4
  specBanks : BitVec 16
  ckv : Bool
  log : List LogEntry
  logOvf : Bool
  replay : Option Nat
  replays : Nat
  irrevocable : Bool
  flipPc : BitVec 56
  flipSeq : Nat
  flipResv : List (BitVec 12)
  deriving DecidableEq, Repr

/-- An overlay page: identity, ASID, number, virtual page address, bytes by offset, in use by the running task,
marked for invalidation when it retires (02 R55, R56; 15 R324). -/
structure Overlay where
  ident : Word
  asid : BitVec 12
  num : Nat
  va : Nat
  bytes : Memory
  inUse : Bool
  doomed : Bool
  deriving DecidableEq, Repr

/-- The task a core runs (02 R42 to R44; 14 R304; 16 Table 16.6), with the cores it was dispatched onto (08 R206); `started` that its
overlays are resident and its bundles may issue, `entered` that its entry state has been loaded (02 R55), `redone` that it was
re-dispatched elsewhere (16 R356). -/
structure Task where
  serial : Nat
  node : Nat
  asid : BitVec 12
  idx : Nat
  n : Nat
  iter : Nat
  firing : Nat
  dgrp : Nat
  pr : Bool
  cbase : Nat
  clen : Nat
  image : Word
  ident : Word
  started : Bool
  entered : Bool
  redone : Bool
  team : List Nat
  deriving DecidableEq, Repr

/-- What a core keeps of a context that it saved, beside the context area (16 R349; log 21): the task with its binding, its
BSTAT in the barrier engines (02 R49) beside the one saved, what Tables 16.6 and 16.7 have no place for, and the cluster positions that
have left its lockstep group since (08 R207). -/
structure Saved where
  task : Task
  ident : Ident
  bstat : Word
  bstat0 : Word
  aside : List Pend
  votes : List Pend
  bwq : List BWrite
  busErr : List Word
  target : Option (BitVec 56)
  accReq : Bool
  trapReq : Option (BitVec 23)
  arrv : List Nat
  phase : Phase
  cmds : List Cmd
  rings : List Ring
  tokens : List Token
  fence : Nat
  left : BitVec 8
  deriving DecidableEq, Repr

/-- The driver's registers of a core (16 Tables 16.2, 16.3), whether a FORCE awaits its boundary, and the context saved
(16 R354). -/
structure Drv where
  cctl : Word
  caddr : Word
  frec : Word
  fpc : Word
  finfo : Word
  force : Bool
  saved : Option Saved
  deriving DecidableEq, Repr

/-- A core: a front end and its gang (01 R14). -/
structure Core where
  cnum : Nat
  g : Nat
  regs : Regs
  ident : Ident
  ctl : Ctl
  front : Front
  pipe : Pipe
  units : Units
  phase : Phase
  ovl : List Overlay
  task : Option Task
  drv : Drv
  deriving DecidableEq, Repr

/-! ### The module's registers -/

/-- Module registers (15 Table 15.2; 16 Tables 16.4, 16.11; 17 Table 17.1). -/
structure Regs0 where
  mstate : Word
  hcfg : Word
  asidtb : Word
  shoota : Word
  shootb : Word
  ovlid : Word
  ovlinv : Word
  chtb : Word
  cridx : Word
  crhbm : Word
  crcxl : Word
  crmark : Word
  nstb : Word
  nscmd : Word
  domain : Word
  tbase : Word
  hlccfg : Word
  zadmit : Word
  deriving DecidableEq, Repr

/-- Event, kill and frame registers (16 Table 16.4). -/
structure EvRegs where
  evbase : Word
  evctl : Word
  evtail : Word
  evhead : Word
  kill : Word
  freto : Word
  fretn : Word
  badfl : Word
  deriving DecidableEq, Repr

/-- A posted or waiting event record (16 Table 16.5). -/
structure EventRec where
  type : Nat
  cnum : Nat
  info : BitVec 32
  addr : Word
  serial : Nat
  deriving DecidableEq, Repr

/-- Telemetry (17 Table 17.1). -/
structure Telem where
  klookn : Word
  klhit : Word
  klmiss : Word
  collcnt : Word
  brkcnt : Word
  evict0 : Word
  demote : Word
  sfull : Word
  pwr : Word
  temp : Word
  bfrz : Word
  forced : Word
  replay : Word
  redisp : Word
  deriving DecidableEq, Repr

/-- An error bank (16 Table 16.9). -/
structure ErrBank where
  ece : Word
  ecea : Word
  eue : Word
  euea : Word
  deriving DecidableEq, Repr

/-! ### Stacks, memory and its directory -/

/-- A stack's driver registers and state (15 Tables 15.4 to 15.6; 05 R116, R127, R134): `wsjob` the source, target and length of
the weight-store copy under way (15 R317), `gated` that the stack is power-gated (16 R361). -/
structure StackS where
  half : BitVec 192
  slab : Vector Word 88
  srole : Vector Word 88
  spair : Vector Word 88
  cbind : Vector Word 112
  wsgate : Word
  sstat : Word
  wssrc : Word
  wsdst : Word
  wslen : Word
  ws : Memory
  wsphase : BitVec 13
  inc : BitVec 16
  removed : Bool
  floor : Nat × Nat
  slabAsid : Vector (BitVec 12) 88
  drains : List (Nat × Word)
  clock : Nat
  wsjob : Option (Nat × Nat × Nat)
  gated : Bool
  deriving DecidableEq, Repr

/-- A line held by a cluster agent: its copy, whether it is checked out (05 R113, R131), and the (core, virtual line)
pairs through which it was written since, by which a release finds the lines that it covers (05 R122, R132). -/
structure CLine where
  agent : Nat
  line : Nat
  bytes : List Byte
  out : Bool
  wrote : List (Nat × Nat)
  deriving DecidableEq, Repr

/-- Recorded agents of a directory entry (05 R131). -/
inductive Sharers where
  | pointers (agents : List Nat)
  | coarse (vec : BitVec 22)
  deriving DecidableEq, Repr

/-- A fan-out in progress: number, agents still to count, those of them whose invalidation is still to arrive, agents
whose acknowledgement is on its way, the releasing agents that keep a clean copy, whether the host's response is
awaited (05 R132, R133, R137), and the (core, virtual line) pairs whose writes it performs (05 R117, R122). -/
structure FanOut where
  num : Nat
  await : List Nat
  inval : List Nat
  acking : List Nat
  keep : List Nat
  host : Bool
  wrote : List (Nat × Nat)
  deriving DecidableEq, Repr

/-- A directory entry (05 R131, R127). -/
structure DirEntry where
  line : Nat
  sharers : Sharers
  hostShares : Bool
  out : List Nat
  twin : Option (List Byte)
  stamp : Nat × Nat
  fan : Option FanOut
  deriving DecidableEq, Repr

/-- A line of a home L2 slice; a set lists its lines least recently used first (05 R375). -/
structure L2Line where
  line : Nat
  modified : Bool
  deriving DecidableEq, Repr

/-- A line of the host-line cache (05 R136): owned or clean, the ASID it was written under, its stamp (05 R127). -/
structure HLine where
  line : Nat
  bytes : List Byte
  owned : Bool
  asid : BitVec 12
  stamp : Nat × Nat
  deriving DecidableEq, Repr

/-- A cached translation: ASID, virtual page base, log2 of its size, leaf entry (15 R328 to R330). -/
structure Tlb where
  asid : BitVec 12
  va : Nat
  log : Nat
  leaf : Word
  deriving DecidableEq, Repr

/-- A held CXL.mem request with the port that it came by (16 R361). -/
structure HeldReq where
  write : Bool
  addr : Nat
  bytes : List Byte
  len : Nat
  port : Nat
  deriving DecidableEq, Repr

/-- Memory, its directory and its caches.
`mem` holds device memory by physical address and, from 2^60 up, the host memory behind the host-line cache (log 9);
`l2` the sets of the home slices that hold lines; `hostStamp` the stamp of host lines that the cache does not hold (05 R127);
`hostWrites` the host's writes, by address, that await fan-outs (05 R137). -/
structure MemSys where
  mem : Memory
  poison : List Nat
  lines : List CLine
  dir : List DirEntry
  nextFan : Nat
  l2 : List (Nat × List L2Line)
  hostStamp : Nat × Nat
  host : List HLine
  tlb : List Tlb
  remaps : List (Nat × Nat)
  busyFrame : Option (Nat × Nat)
  badFrames : List Nat
  heldReqs : List HeldReq
  hostWrites : List (Nat × List Nat)
  deriving DecidableEq, Repr

/-! ### Hearth -/

/-- A launch-queue descriptor (15 Table 15.7) with what Hearth knows of it: the tail it has seen and the head; `sync` that both
words are still to be read (15 R318). -/
structure LQueue where
  lq0 : Word
  lq1 : Word
  lq2 : Word
  lq3 : Word
  tail : Word
  head : Word
  sync : Bool
  deriving DecidableEq, Repr

/-- A task-graph node as accepted (15 Table 15.10). -/
inductive GKind where
  | task (pl : Nat) (d : Bool) (tt g n : Nat) (arg : Word)
  | cond (va : Word)
  | whileLoop (va : Word) (body exitj cap : Nat)
  | join
  deriving DecidableEq, Repr

/-- A node with its initial and remaining dependence counts, successors, iterations run, firings, whether a task of it
stands ready (and since when), the cluster of the predecessor that completed last, the cluster that its own task was dispatched
onto (02 R40), its re-dispatches and whether an instruction that rules another out has issued (16 R356). -/
structure GNode where
  kind : GKind
  dep : Nat
  left : Nat
  succ0 : Option Nat
  succ1 : Option Nat
  iters : Nat
  firings : Nat
  ready : Option Word
  home : Option Nat
  redispatches : Nat
  noRedo : Bool
  running : Nat
  cluster : Option Nat
  deriving DecidableEq, Repr

/-- Work of the graph walker (02 R36, R37): a node is decremented, or a while node fires; with the cluster of the completed task. -/
inductive Act where
  | dec (node : Nat) (home : Option Nat)
  | go (node : Nat) (home : Option Nat)
  deriving DecidableEq, Repr

/-- A live launch (02 R32, R33, R39, R40); `todo` is the graph walker's work that awaits a condition word. -/
structure Launch where
  serial : Nat
  q : Nat
  seq : BitVec 16
  asid : BitVec 12
  pri : Nat
  g : Nat
  cmax : Nat
  image : Word
  arg : Word
  dgrp : Nat
  dsize : Nat
  drank : Nat
  donePtr : Word
  nodes : List GNode
  ntask : Nat
  fnode : Option Nat
  status : Nat
  capHit : Bool
  stopping : Bool
  lastDispatch : Word
  lastCluster : Option Nat
  reported : Bool
  todo : List Act
  deriving DecidableEq, Repr

/-- For what Hearth reads memory: the words or a record of a queue, a condition word of a launch, the entry of a task. -/
inductive Reader where
  | words (q : Nat)
  | record (q : Nat)
  | cond (serial : Nat)
  | entry (cnum : Nat)
  deriving DecidableEq, Repr

/-- Bytes that Hearth reads from other modules: requests outstanding by tag, bytes that have come, whether a request was lost. -/
structure HRead where
  who : Reader
  asks : List (BitVec 32 × Nat × Nat)
  got : List Host.Cell
  lost : Bool
  deriving DecidableEq, Repr

/-- Hearth of the module (02 R29 to R57), with its reads of other modules' memory, the tags and ASIDs of its writes there that are not
acknowledged (05 R135), and the clock-gated clusters (17 R364). -/
structure Hearth where
  queues : List (Nat × LQueue)
  launches : List Launch
  serial : Nat
  rr : Vector Nat 8
  age : Word
  reads : List HRead
  writes : List (BitVec 32 × BitVec 12)
  gated : List Nat
  deriving DecidableEq, Repr

/-! ### Barriers and channels -/

/-- A barrier group: level and key, members by core identifier with their arrivals, departed members with the
generation from which they count, members on other modules with their arrivals (from 2^64 up: departed), completed
generation, whether the group has formed, the modules that joined, what other modules were told (02 R44 to R49). -/
structure BGroup where
  lvl : Nat
  key : Nat
  launch : Nat
  node : Nat
  nmem : Nat
  arrived : List (Nat × Nat)
  departed : List (Nat × Nat)
  remote : List (Nat × Nat)
  gen : Nat
  formed : Bool
  joined : List Nat
  told : List (Nat × Nat)
  deriving DecidableEq, Repr

/-- What a receive queue holds: a message, or a failed-message marker with its error code (11 R283). -/
inductive QMsg where
  | msg (bytes : List Byte)
  | failed (code : BitVec 3)
  deriving DecidableEq, Repr

/-- A channel's receive queue by channel-table entry index (02 R50), its path down (11 R284), whether CPAUSE
was sent for it, and the module its messages came from. -/
structure Channel where
  entry : Nat
  queue : List QMsg
  down : Bool
  paused : Bool
  src : Option Nat
  deriving DecidableEq, Repr

/-- The broadcast bus of a cluster in an issue cycle of a lockstep group: drivers' segments and latching cores with
their bank addresses (11 R281, R282). -/
structure Bus where
  cluster : Nat
  segs : List (List Byte)
  latches : List (Nat × Nat)
  deriving DecidableEq, Repr

/-! ### The Crucible -/

/-- Node states (06 Table 6.3). -/
inductive NState where
  | free | opened | sealing | sealed | demoting | evicting
  deriving DecidableEq, Repr

/-- A layer block (06 R139): its layer, the granules that hold its payload in order, by physical address, and those of a copy
under way (06 R141). Its header stands in memory. -/
structure Block where
  layer : Nat
  granules : List Nat
  next : List Nat
  deriving DecidableEq, Repr

/-- A node slot of the index (06 R143 to R150, R160): `hdr` where its block headers begin (06 R139), `old` the granules of its former
tier that wait for pins (06 R159), `owner` the launch, or of a replica under way the command that copies it. -/
structure KNode where
  slot : Nat
  st : NState
  frozen : Bool
  gen : BitVec 16
  cxl : Bool
  ns : Word
  name : BitVec 128
  parent : Nat
  depth : Nat
  asid : BitVec 12
  owner : Nat
  hdr : Nat
  blocks : List Block
  old : List Nat
  written : List (Nat × Nat)
  refs : List (Nat × Nat)
  remoteRefs : List (Nat × Nat)
  pins : List Nat
  evictPins : List Nat
  expiry : Word
  bad : Bool
  repl : Bool
  home : Nat
  deriving DecidableEq, Repr

/-- A namespace (06 Table 6.1; 15 Table 15.13) in its slot, with its rights table as last made effective. -/
structure NSpace where
  slot : Nat
  ns : Word
  bt : Nat
  ef : Nat
  nlayer : Nat
  kvh : Nat
  hd : Nat
  temper : Bool
  krmax : Nat
  kabs : BitVec 32
  krel : BitVec 32
  hreg : Word
  hlen : Word
  rights : List (BitVec 4)
  deriving DecidableEq, Repr

/-- A node-directory entry (06 R160, R162): the home with its handle, the replicas with theirs, and of each module the references
and the pins that it holds. -/
structure KDir where
  name : BitVec 128
  home : Nat
  handle : Word
  replicas : List (Nat × Word)
  refs : List (Nat × Nat)
  pins : List (Nat × Nat)
  deriving DecidableEq, Repr

/-- The Crucible controller. `held` counts the references that this module's launches hold on other modules' nodes, by module and
serial (06 R147). -/
structure Crucible where
  spaces : List NSpace
  nodes : List KNode
  gens : List (Nat × BitVec 16)
  dir : List KDir
  walkHbm : Bool
  walkCxl : Bool
  held : List (Nat × Nat)
  deriving DecidableEq, Repr

/-! ### Links -/

/-- A Zilash message (15 Table 15.15 and body). -/
structure Msg where
  dst : Nat
  src : Nat
  minc : BitVec 16
  sinc : BitVec 16
  stk : Nat
  cls : Nat
  chan : Nat
  tag : BitVec 32
  body : List Byte
  deriving DecidableEq, Repr

/-- A Zilash link (15 R337 to R340): registers, sequence numbers, replay buffer, partly received messages by lane,
received messages awaiting handling, memory requests performed whose fan-outs run, pauses received and sent, a pending
NAK, the last ACK sent, and the tick at which it failed. -/
structure Link where
  en : Bool
  state : Nat
  rtt : Nat
  peerMid : Nat
  peerLink : Nat
  sendSeq : BitVec 12
  expect : BitVec 12
  acked : BitVec 12
  buffer : List (BitVec 12 × List Byte)
  replayed : Nat
  partials : List (Nat × List Byte × Nat)
  rx : List Msg
  serving : List (Msg × List Byte × List Nat)
  occ : Vector Nat 4
  paused : Vector Bool 4
  chPaused : List (BitVec 12)
  sentPause : Vector Bool 4
  sentResume : List (Nat × Nat)
  sentCpause : List (BitVec 12)
  nak : Bool
  waiting : List (Nat × Msg)
  ackSent : BitVec 12
  failedAt : Option Nat
  deriving DecidableEq, Repr

/-- Routes and the other modules of the domain (05 R134; 15 R341 to R343): route entries, entries waiting to switch,
removed modules with the incarnation recorded, incarnations known, the module that masters the time base, incarnations that were
removed, incarnations of the other modules' stacks (by 8 module + stack), the writes of killed tasks whose homes are still to
answer, and by link and SEQ the last flits of messages that they sent (16 R355). -/
structure Domain where
  routes : List (Nat × Word)
  pending : List (Nat × Word)
  removed : List (Nat × BitVec 16)
  incs : List (Nat × BitVec 16)
  nextTag : BitVec 32
  master : Option Nat
  oldIncs : List (Nat × BitVec 16)
  sincs : List (Nat × BitVec 16)
  killTags : List (BitVec 32)
  killFlits : List (Nat × BitVec 12)
  deriving DecidableEq, Repr

/-! ### Board controller -/

/-- A firmware slot. -/
structure FwSlot where
  present : Bool
  ver : Nat
  sec : Nat
  bytes : List Byte
  deriving DecidableEq, Repr

/-- An HDM decoder of a port (15 R334, R335): host addresses from `hpa` on, `size` bytes, map onto device addresses from `dpa` on; with
`two` ports interleaved at 256 bytes, this one takes every second piece. -/
structure HdmDec where
  port : Nat
  dec : Nat
  hpa : Nat
  size : Nat
  dpa : Nat
  two : Bool
  deriving DecidableEq, Repr

/-- Board controller, security and host ports (15 R334, R335; 16 R358, R360; 17 R365 to R367). -/
structure Board where
  power : Bool
  thermalCap : Nat
  fw : Vector FwSlot 2
  booted : Option Nat
  floor : Nat
  banks : Vector ErrBank 65
  hdm : List HdmDec
  portUp : Vector Bool 2
  agreed : Bool
  selfTest : Bool
  deriving DecidableEq, Repr

/-- What leaves the module: responses, flits and records that an agent outside reads (log 9). -/
inductive Outward where
  | flit (link : Nat) (bytes : List Byte)
  | hostData (addr : Nat) (bytes : List Byte) (poison : Bool)
  | hostDone (addr : Nat) (ok : Bool)
  | snoopData (line : Nat) (bytes : List Byte)
  | snoopMiss (line : Nat)
  | backInval (line : Nat)
  | hdmError (port dec : Nat)
  | spdm (kind : Nat) (bytes : List Byte)
  | mctpRefused (kind : Nat)
  deriving DecidableEq, Repr

/-- Limiter registers (16 Table 16.11). -/
structure Limits where
  pwr : Word
  lnk : Word
  dma : Vector (Word × Word) 8
  hdm : Vector (Word × Word) 4
  cxlw : Word × Word
  deriving DecidableEq, Repr

/-- Memory-domain and driver registers of the module. -/
structure ModRegs where
  m : Regs0
  ev : EvRegs
  waiting : List EventRec
  telem : Telem
  lim : Limits
  deriving DecidableEq, Repr

/-- The module.
`core` is the core whose turn it is and `others` the rest; `agenda` holds events that the outside or a unit has delivered,
oldest first; `turns` the cores that move next, `ticks` the store ticks that have come (log 1); `free` counts free values taken (log 20). -/
structure State where
  core : Core
  others : List Core
  regs : ModRegs
  stackv : Vector StackS 8
  memory : MemSys
  hearth : Hearth
  groups : List BGroup
  channels : List Channel
  buses : List Bus
  crucible : Crucible
  links : Vector Link 16
  domain : Domain
  board : Board
  outward : List Outward
  agenda : List Instr
  turns : List Nat
  ticks : Nat
  free : Nat
  deriving DecidableEq, Repr

/-! ### Values after reset -/

def Ring.zero : Ring := ⟨0, 0, 0, 0, 0, 0, false, 0, [], []⟩
def Token.zero : Token := ⟨0, 0, 0, false, 0, 0, 0⟩
def Tile.zero : Tile := ⟨false, .s8, Vector.replicate 4 0⟩
def Ctl.zero : Ctl := ⟨0, 0, 0, 0, 0, 0, 0, 0, 0, 0, 0, 0, 0, 0⟩

/-- Registers with x, f, p and storage zero (log 3), the hard-wired f0 and p0 as 03 R73 reads them. -/
def Regs.zero : Regs :=
  { x := Vector.replicate 64 0, f := 1,
    p := Vector.ofFn (fun i => if i.val < 4 then BitVec.allOnes 256 else 0), rf := [], bank := [] }

def Front.zero : Front :=
  { pc := 0, nextPc := 0, bubbles := 0, after := .issue, gatherFrz := none, bellowsFrz := none, held := false, holds := [],
    arrv := [], granted := false, ended := false, departed := false, stat := .ready, bnd := [], upset := Vector.replicate 3 0,
    trapReq := none, busErr := [], target := none, corrected := false, accReq := false, povt := 0, povq := 0, window := [], clock := 0 }

def Units.zero : Units :=
  { rings := Vector.replicate 8 Ring.zero, tokens := Vector.replicate 8 Token.zero, tiles := Vector.replicate 64 Tile.zero,
    anvil := [], nextNum := 0, cmds := [], nextSeq := 0, bindings := [], fence := 0, lamport := 0 }

def Phase.zero : Phase :=
  { front := Vector.replicate 4 0, invalid := Vector.replicate 4 0, specBanks := 0, ckv := false, log := [], logOvf := false,
    replay := none, replays := 0, irrevocable := false, flipPc := 0, flipSeq := 0, flipResv := [] }

/-- FREC resets to SLOT 0xF and TOKEN 0xFF (16 Table 16.3). -/
def Drv.zero : Drv :=
  { cctl := 0, caddr := 0, frec := 0xF0FF000000000000, fpc := 0, finfo := 0, force := false, saved := none }

/-- A core after reset: unbound (`g = 0`), no task, every register at its stated value or zero (log 3). -/
def Core.zero (cnum : Nat) : Core :=
  { cnum := cnum, g := 0, regs := Regs.zero, ident := ⟨0, 0, 0, 0, 0, Vector.replicate 5 0⟩, ctl := Ctl.zero,
    front := Front.zero, pipe := ⟨[], [], []⟩, units := Units.zero, phase := Phase.zero, ovl := [], task := none,
    drv := Drv.zero }

/-- 15 Table 15.2: AGE resets to 0x64, CRMARK to CXLHIGH 0x400, BREAK 0x400, HIGH 0x3C0, LOW 0x300. -/
def Regs0.zero : Regs0 :=
  { mstate := 0, hcfg := 0x640000, asidtb := 0, shoota := 0, shootb := 0, ovlid := 0, ovlinv := 0, chtb := 0, cridx := 0,
    crhbm := 0, crcxl := 0, crmark := 0x801001E0300, nstb := 0, nscmd := 0, domain := 0, tbase := 0, hlccfg := 0, zadmit := 0 }

/-- A stack after reset (15 Tables 15.4 to 15.6). -/
def StackS.zero : StackS :=
  { half := 0, slab := Vector.ofFn (fun i => BitVec.ofNat 64 (i.val % 8 * 1024)),
    srole := Vector.replicate 88 0x5555555555555555, spair := Vector.replicate 88 0,
    cbind := Vector.replicate 112 0x8000000000000000, wsgate := 3, sstat := 0, wssrc := 0, wsdst := 0, wslen := 0,
    ws := [], wsphase := 0, inc := 0, removed := false, floor := (0, 0), slabAsid := Vector.replicate 88 0, drains := [], clock := 0,
    wsjob := none, gated := false }

def Link.zero : Link :=
  { en := false, state := 0, rtt := 0, peerMid := 0, peerLink := 0, sendSeq := 0, expect := 0, acked := 0xFFF, buffer := [],
    replayed := 0, partials := [], rx := [], serving := [], occ := Vector.replicate 4 0, paused := Vector.replicate 4 false, chPaused := [],
    sentPause := Vector.replicate 4 false, sentResume := [], sentCpause := [], nak := false, waiting := [], ackSent := 0xFFF, failedAt := none }

/-- Where HBM ends (01 Table 1.8: 576 GiB), laid out from address 0; above it the module has CXL-attached memory only (log 44). -/
abbrev hbmTop : Nat := 0x9000000000

/-- The end of CXL-attached memory, at most 16 TiB of it (01 Table 1.8), above HBM (log 44). -/
abbrev cxlTop : Nat := hbmTop + 0x100000000000

/-- Fused limits (16 Table 16.11: "fused"; log 4): the full cap, every link and both Ethernet ports allowed, windows over
all addresses, the CXL window over those above HBM. -/
def Limits.fused : Limits :=
  { pwr := 2600, lnk := 0x3FFFF, dma := Vector.replicate 8 (1, 0xFFFFFFFFF0000),
    hdm := Vector.replicate 4 (1, 0xFFFFFFFFF0000), cxlw := (0x9000000001, 0xFFFFFFFFF0000) }

/-- 17 Table 17.1: BUDGET 0x400, ACL 0x58, CAPEFF fused (log 4). -/
def Telem.zero : Telem := ⟨0, 0, 0, 0, 0, 0, 0, 0, 0x8016000A28000, 0, 0, 0, 0, 0⟩

/-- The machine right after POWER_UP: the module is in RESET (15 R309), no front end is bound, nothing is listed. -/
def State.reset : State :=
  { core := Core.zero 0, others := [],
    regs := { m := Regs0.zero, ev := ⟨0, 0, 0, 0, 0, 0, 0, 0⟩, waiting := [], telem := Telem.zero, lim := Limits.fused },
    stackv := Vector.replicate 8 StackS.zero,
    memory := ⟨[], [], [], [], 0, [], (0, 0), [], [], [], none, [], [], []⟩,
    hearth := ⟨[], [], 0, Vector.replicate 8 0, 100, [], [], []⟩,
    groups := [], channels := [], buses := [],
    crucible := ⟨[], [], [], [], false, false, []⟩,
    links := Vector.replicate 16 Link.zero,
    domain := ⟨[], [], [], [], 0, none, [], [], [], []⟩,
    board := { power := true, thermalCap := 2600, fw := Vector.replicate 2 ⟨false, 0, 0, []⟩, booted := none, floor := 0,
               banks := Vector.replicate 65 ⟨0, 0, 0, 0⟩, hdm := [], portUp := Vector.replicate 2 false, agreed := false,
               selfTest := false },
    outward := [], agenda := [], turns := [], ticks := 0, free := 0 }

/-! ### Why a step can stop -/

/-- Reasons for which the machine stops. -/
inductive Fault where
  /-- Raised by `step` when module power is off (17 R365; 16 R360): nothing but POWER_UP acts. Safe. -/
  | unpowered
  deriving DecidableEq, Repr

/-- Reasons for which an instruction or event has no next state. -/
inductive Refusal where
  /-- An arm of `exec` that has no meaning yet. Safe. -/
  | notModelled (mnemonic : String)
  /-- Raised by an event whose precondition the state does not meet (no such command, core, launch or message):
  the event cannot come about in this state, so nothing that the machine could do is shut out. Safe. -/
  | notEnabled (event : String)
  deriving DecidableEq, Repr

end Sys2Proof.Machine
end

