-- ==== Sys2Proof/Machine/Ops.lean ====
section
/-! DEFINITION. The named operations over storage, registers, views, banks, pending results, homes and their line directory,
barriers and events, taking a system fault (16 R345), entering a program trap (03 R85) and returning from one (03 R86). -/
namespace Sys2Proof.Machine
open Sys2Proof

/-! ### Byte storage -/

/-- Reads one byte; an unlisted address reads zero (log 2). -/
def Memory.get : Memory → Nat → Byte
  | [], _ => 0
  | (a, b) :: m, k => if a = k then b else if k < a then 0 else Memory.get m k

/-- Writes one byte, keeping addresses rising and listing no zero. -/
def Memory.set : Memory → Nat → Byte → Memory
  | [], k, v => if v = 0 then [] else [(k, v)]
  | (a, b) :: m, k, v =>
    if a = k then (if v = 0 then m else (a, v) :: m)
    else if k < a then (if v = 0 then (a, b) :: m else (k, v) :: (a, b) :: m)
    else (a, b) :: Memory.set m k v

/-- Every listed address is above `lo` when `lo` is given, addresses rise strictly, no listed byte is zero. -/
def Memory.wfAbove : Option Nat → Memory → Bool
  | _, [] => true
  | lo, (a, b) :: m =>
    (match lo with
     | none => true
     | some l => decide (l < a)) && b != 0 && Memory.wfAbove (some a) m

/-- The canonical form of byte storage. -/
def Memory.wf (m : Memory) : Bool := Memory.wfAbove none m

/-- Reads `n` bytes from `k` on. -/
def Memory.getN (m : Memory) (k n : Nat) : List Byte := (List.range n).map (fun i => m.get (k + i))

/-- Writes bytes from `k` on. -/
def Memory.setN : Memory → Nat → List Byte → Memory
  | m, _, [] => m
  | m, k, b :: bs => Memory.setN (m.set k b) (k + 1) bs

/-- Writes listed cells in order. -/
def Memory.setCells : Memory → List Host.Cell → Memory
  | m, [] => m
  | m, (a, b) :: cs => Memory.setCells (m.set a b) cs

/-- A little-endian number of `n` bytes (00 R7). -/
def Memory.num (m : Memory) (k n : Nat) : Nat := leNat (m.getN k n)

/-! ### Bits -/

/-- The field of `n` bits from bit `lo` up, as a number. -/
def fld (w : BitVec 64) (lo n : Nat) : Nat := (w.toNat / 2 ^ lo) % 2 ^ n

/-- Replaces the field of `n` bits from bit `lo` up. -/
def putFld (w : BitVec 64) (lo n v : Nat) : BitVec 64 :=
  BitVec.ofNat 64 (w.toNat - fld w lo n * 2 ^ lo + (v % 2 ^ n) * 2 ^ lo)

/-- A word masked to its writable bits: those of `mask` from `v`, the others from `w`. -/
def merge (w v mask : BitVec 64) : BitVec 64 := (w &&& ~~~mask) ||| (v &&& mask)

/-- The low `n` bits of a number read as two's complement. -/
def toS (n v : Nat) : Int :=
  let u := v % 2 ^ n
  if n ≠ 0 ∧ 2 ^ (n - 1) ≤ u then (u : Int) - 2 ^ n else u

/-- An integer modulo 2^n. -/
def wrapInt (n : Nat) (v : Int) : Nat := (v % (2 ^ n : Int)).toNat

/-- The list with the element at `i` replaced. -/
def updAt {α : Type} (f : α → α) : Nat → List α → List α
  | _, [] => []
  | 0, a :: as => f a :: as
  | n + 1, a :: as => a :: updAt f n as

/-- Looks a key up in an association list. -/
def lookupN {α : Type} (k : Nat) : List (Nat × α) → Option α
  | [] => none
  | (a, v) :: l => if a = k then some v else lookupN k l

/-- Sets a key in an association list, kept in rising key order. -/
def insertN {α : Type} (k : Nat) (v : α) : List (Nat × α) → List (Nat × α)
  | [] => [(k, v)]
  | (a, w) :: l => if a = k then (k, v) :: l else if k < a then (k, v) :: (a, w) :: l else (a, w) :: insertN k v l

/-- Removes a key from an association list. -/
def eraseN {α : Type} (k : Nat) (l : List (Nat × α)) : List (Nat × α) := l.filter (fun e => e.1 != k)

/-- Inserts into a rising list without repeats. -/
def insertSet (k : Nat) : List Nat → List Nat
  | [] => [k]
  | a :: l => if a = k then a :: l else if k < a then k :: a :: l else a :: insertSet k l

/-- The sum of a list. -/
def sumN (l : List Nat) : Nat := l.foldl (· + ·) 0

/-! ### Vectors by number -/

/-- Element `i` of a vector, or the default outside it. -/
def vget {α : Type} {n : Nat} (v : Vector α n) (i : Nat) (d : α) : α := if h : i < n then v[i] else d

/-- The vector with element `i` replaced; unchanged outside it. -/
def vset {α : Type} {n : Nat} (v : Vector α n) (i : Nat) (a : α) : Vector α n := if h : i < n then v.set i a else v

/-! ### Scalar registers and predicates (03 R73) -/

/-- x0 reads zero. -/
def Core.x (c : Core) (r : XReg) : Word := if r = 0 then 0 else vget c.regs.x r.toNat 0

/-- A write to x0 is discarded. -/
def Core.setX (c : Core) (r : XReg) (v : Word) : Core :=
  if r = 0 then c else { c with regs := { c.regs with x := vset c.regs.x r.toNat v } }

/-- f0 reads true. -/
def Core.f (c : Core) (r : FReg) : Bool := r == 0 || c.regs.f.getLsbD r.toNat

/-- The scalar predicates in the format of PGET (08 R194). -/
def Core.fAll (c : Core) : BitVec 16 := c.regs.f ||| 1

/-- Writes the predicates of a mask; f0 is never written. -/
def Core.setF (c : Core) (mask val : BitVec 16) : Core :=
  let m := mask &&& ~~~(1 : BitVec 16)
  { c with regs := { c.regs with f := (c.regs.f &&& ~~~m) ||| (val &&& m) } }

/-- Member `g`'s slice of a lane predicate; p0 reads all ones. -/
def Core.pslice (c : Core) (r : PReg) (g : Nat) : BitVec 256 :=
  if r = 0 then BitVec.allOnes 256 else vget c.regs.p (4 * r.toNat + g) 0

/-- The bit of a lane predicate at a vector byte position (01 R15). -/
def Core.pbit (c : Core) (r : PReg) (b : Nat) : Bool := (c.pslice r (b / 256)).getLsbD (b % 256)

/-- Writes the masked bits of a lane predicate; p0 is never written. -/
def Core.setP (c : Core) (r : PReg) (mask val : Vector (BitVec 256) 4) : Core :=
  if r = 0 then c else
  { c with regs := { c.regs with p := (List.range 4).foldl (fun p g =>
      let old := vget p (4 * r.toNat + g) 0
      let m := vget mask g 0
      vset p (4 * r.toNat + g) ((old &&& ~~~m) ||| (vget val g 0 &&& m))) c.regs.p } }

/-! ### Guards (03 R74) -/

/-- The truth table at three predicate values. -/
def tableAt (h : Head) (a b c : Bool) : Bool := h.gt.getLsbD (4 * a.toNat + 2 * b.toNat + c.toNat)

/-- Enabled, for an S, M or C slot. -/
def Core.enabled (c : Core) (h : Head) : Bool := tableAt h (c.f h.ga) (c.f h.gb) (c.f h.gc)

/-- Enabled, for the element whose lowest byte position is `b`. -/
def Core.enabledAt (c : Core) (h : Head) (b : Nat) : Bool := tableAt h (c.pbit h.ga b) (c.pbit h.gb b) (c.pbit h.gc b)

/-! ### Identity of a core -/

/-- Core number within the module (01 R19). -/
def Core.stk (c : Core) : Nat := c.cnum / 112
/-- Front end within its stack. -/
def Core.fe (c : Core) : Nat := c.cnum % 112
/-- Cluster within the module (01 R21). -/
def Core.cid (c : Core) : Nat := fld c.ident.cluster 7 7
/-- Cluster position: the SLOT of member 0 (01 R20). -/
def Core.pos (c : Core) : Nat := fld c.ident.gang 10 3
/-- LOCKM (01 R21). -/
def Core.lockm (c : Core) : BitVec 8 := c.ident.cluster.extractLsb' 16 8
/-- The slab entry of member `g` in its stack (15 R312). -/
def Core.slabOf (c : Core) (g : Nat) : Nat := 8 * fld c.ident.cluster 0 4 + fld c.ident.gang (16 * g + 10) 3
/-- NMEM at a level (01 R23). -/
def Core.nmem (c : Core) (lvl : Nat) : Nat := fld (vget c.ident.dmem lvl 0) 20 20
/-- The core runs a task's bundles. -/
def Core.cstate (c : Core) : Nat := fld c.drv.cctl 60 4

def State.stack (s : State) (k : Nat) : StackS := vget s.stackv k StackS.zero

def State.setStack (s : State) (k : Nat) (st : StackS) : State := { s with stackv := vset s.stackv k st }

/-- The core identifier in the domain (01 R19). -/
def State.coreId (s : State) (c : Core) : Nat := fld s.regs.m.domain 0 8 * 1024 + c.cnum

/-- All cores, the one in focus first. -/
def State.cores (s : State) : List Core := s.core :: s.others

/-- Applies a function to every core. -/
def State.mapCores (s : State) (f : Core → Core) : State := { s with core := f s.core, others := s.others.map f }

/-- Brings the core with number `c` into focus. -/
def State.focus (s : State) (c : Nat) : Option State :=
  if s.core.cnum = c then some s
  else match s.others.find? (fun k => k.cnum = c) with
    | none => none
    | some k => some { s with core := k, others := s.core :: s.others.filter (fun j => j.cnum != c) }

/-- Applies a function with core `c` in focus and gives the focus back. -/
def State.atCore (s : State) (c : Nat) (f : State → State) : State :=
  match s.focus c with
  | none => s
  | some s' => ((f s').focus s.core.cnum).getD (f s')

/-- As `atCore`, for a function that may find the event not enabled. -/
def State.atCore? (s : State) (c : Nat) (f : State → Option State) : Option State :=
  match s.focus c with
  | none => none
  | some s' => match f s' with
    | none => none
    | some t => some ((t.focus s.core.cnum).getD t)

/-- The outcome of an event that may not be enabled (log 1). -/
def enabledOr (name : String) : Option State → Host.Outcome State Fault Refusal
  | some s => .next s
  | none => .refused (.notEnabled name)

/-! ### Pending results (03 R58, R61, R86) -/

/-- A result that lands `lat` issue cycles after this one. -/
def Core.push (c : Core) (slot lat : Nat) (v : PVal) : Core :=
  { c with pipe := { c.pipe with pwq := c.pipe.pwq ++ [⟨lat, slot, v⟩] } }

/-- A scratchpad write performed `lat` issue cycles after this one. -/
def Core.pushBank (c : Core) (lat : Nat) (cells : List Host.Cell) : Core :=
  { c with pipe := { c.pipe with bwq := c.pipe.bwq ++ [⟨lat, cells⟩] } }

/-- Writes vector bytes resolved to register space: position b of the register lies in member b / 256. -/
def Core.setVec (c : Core) (addr : Nat) (bytes : List (Nat × Byte)) : Core :=
  { c with regs := { c.regs with
      rf := c.regs.rf.setCells (bytes.map (fun e => (e.1 / 256 * 0x80000 + addr + e.1 % 256, e.2))) } }

/-- The bits of a control register, by its number, that hold something; reserved bits read zero (00 R8). -/
def cregMask (n : Nat) : Word :=
  match n with
  | 0x000 => 0x7FFFFFFF
  | 0x002 => 0x001FFFFFFFFFFFFF
  | 0x003 => 0x1FFFFFF
  | 0x004 => 0xFFFF
  | 0x008 => 0x00FFFFFFFFFFFFC0
  | 0x009 => 0x00FFFFFFFFFFFFFF
  | 0x00A => 0x80007FFFFF00000F
  | 0x019 => 0x0000FFFFFFFF001E
  | _ => 0xFFFFFFFFFFFFFFFF

/-- Writes a control register that lands with latency: FMT or TOL (04 R98, R105). -/
def Core.setLate (c : Core) (n : BitVec 12) (v : Word) : Core :=
  if n = 0 then { c with ctl := { c.ctl with fmt := v &&& cregMask 0 } }
  else if n = 1 then { c with ctl := { c.ctl with tol := v } } else c

/-- Lands one result. A VOTE3 is raised by the step that follows (08 R186). -/
def Core.landVal (c : Core) : PVal → Core
  | .x r v => c.setX r v
  | .f m v => c.setF m v
  | .p r m v => c.setP r m v
  | .v a bs => c.setVec a bs
  | .ctl n v => c.setLate n v
  | .vote3 => c

/-- A vote without majority, which no landing takes away (08 R186). -/
def Pend.isVote (e : Pend) : Bool :=
  match e.val with
  | .vote3 => true
  | _ => false

/-- RESULT_LANDING: everything at distance 0 lands, in the order of R61. -/
def Core.land (c : Core) : Core :=
  let due := c.pipe.pwq.filter (fun e => e.dist == 0)
  let c1 := due.foldl (fun k e => k.landVal e.val) c
  let bank := (c.pipe.bwq.filter (fun e => e.dist == 0)).foldl (fun m e => m.setCells e.cells) c1.regs.bank
  { c1 with
    regs := { c1.regs with bank := bank },
    pipe := { c1.pipe with pwq := c.pipe.pwq.filter (fun e => e.dist != 0 || e.isVote), bwq := c.pipe.bwq.filter (fun e => e.dist != 0) } }

/-- An issue cycle passes: every distance falls by one. -/
def Core.age (c : Core) : Core :=
  { c with pipe := { c.pipe with pwq := c.pipe.pwq.map (fun e => { e with dist := e.dist - 1 }),
                                 bwq := c.pipe.bwq.map (fun e => { e with dist := e.dist - 1 }) } }

/-! ### Views (03 R67 to R70, R72) -/

/-- Phys(n) of R67. -/
def physReg (vview : Word) (n : Nat) : Nat :=
  let rot0 := fld vview 22 10
  let rsize := fld vview 32 11
  let woff := fld vview 43 10
  if rsize ≠ 0 ∧ rot0 ≤ n ∧ n < rot0 + rsize then rot0 + (n - rot0 + rsize - woff % rsize) % rsize else n

/-- The first byte of vn in each member, or none where n ≥ VCNT (R70). -/
def Core.vaddr (c : Core) (n : VReg) : Option Nat :=
  if n.toNat < fld c.ctl.vview 11 11 then some ((fld c.ctl.vview 0 11 + physReg c.ctl.vview n.toNat) * 256) else none

/-- The byte at position `b` of a vector register at `addr`. -/
def Core.vbyte (c : Core) (addr b : Nat) : Byte := c.regs.rf.get (b / 256 * 0x80000 + addr + b % 256)

/-- `n` bytes from position `b` up, little-endian. -/
def Core.vnum (c : Core) (addr b n : Nat) : Nat := leNat ((List.range n).map (fun i => c.vbyte addr (b + i)))

/-- Some byte of `n` from `addr` lies in the slow partition. -/
def inSlow (addr n : Nat) : Bool := decide (n ≠ 0 ∧ 0x40000 < addr + n)

/-- Legal contents of VVIEW (R67, R70); reserved bits are ignored (00 R8). -/
def okVview (v : Word) : Bool :=
  decide (fld v 0 11 ≤ 2047) && decide (fld v 11 11 ≤ 1024) && decide (fld v 32 11 ≤ 1024) &&
  decide ((fld v 0 11 + fld v 11 11) * 256 ≤ 0x80000) &&
  decide (fld v 22 10 + fld v 32 11 ≤ fld v 11 11) &&
  (if fld v 32 11 = 0 then fld v 43 10 == 0 else decide (fld v 43 10 < fld v 32 11))

/-- Legal contents of MVIEW (R68, R70). -/
def okMview (v : Word) : Bool :=
  decide (fld v 11 7 ≤ 64) && decide (fld v 18 6 ≤ 32) && (fld v 18 6 != 0 || fld v 11 7 == 0) &&
  decide (fld v 0 11 * 256 + fld v 11 7 * (fld v 18 6 * 512) ≤ 0x80000)

/-- Legal contents of QVIEW (R69, R70). -/
def okQview (v : Word) : Bool :=
  decide (fld v 11 5 ≤ 16) && decide ((fld v 0 11 + 81 * fld v 11 5) * 256 ≤ 0x80000)

/-! ### Banks (11 R263; 15 R314, R316; 08 R192) -/

/-- SROLE of member 0's slab; all members agree (15 R313). -/
def State.srole (s : State) (c : Core) : Word := vget (s.stack c.stk).srole (c.slabOf 0) 0
/-- SPAIR of member 0's slab. -/
def State.spair (s : State) (c : Core) : Word := vget (s.stack c.stk).spair (c.slabOf 0) 0

/-- Role of a bank: 0 cache, 1 scratchpad, 2 tensor operand buffer, 3 checkpoint. -/
def State.role (s : State) (n : Nat) : Nat := fld (s.srole s.core) (2 * n) 2
/-- Banks 2j and 2j + 1 form a pair. -/
def State.paired (s : State) (j : Nat) : Bool := (s.spair s.core).getLsbD j

/-- A valid scratchpad address (11 R263); bank 2j + 1 of a pair has none (15 R316). -/
def State.okBank (s : State) (a : Nat) : Bool :=
  decide (a < 0x100000) && (s.role (a / 32768) == 1 || s.role (a / 32768) == 2) &&
  !(a / 32768 % 2 == 1 && s.paired (a / 32768 / 2))

/-- Every byte of `n` from `a` is valid. -/
def State.okBanks (s : State) (a n : Nat) : Bool :=
  decide (a + n ≤ 0x100000) && (List.range 32).all (fun k =>
    if k * 32768 < a + n ∧ a < (k + 1) * 32768 then s.okBank (max a (k * 32768)) else true)

/-- Place of byte `a` of member `g`: the front bank of a pair, or with `back` the back bank. -/
def State.bankAddr (s : State) (back : Bool) (g a : Nat) : Nat :=
  let n := a / 32768
  let j := n / 2
  let n' := if s.paired j then 2 * j + (if (vget s.core.phase.front g 0).getLsbD j != back then 1 else 0) else n
  g * 0x100000 + n' * 32768 + a % 32768

/-- Reads `n` bytes at bank address `a` of member `g`, front bank of a pair. -/
def State.bankRead (s : State) (g a n : Nat) : List Byte :=
  (List.range n).map (fun i => s.core.regs.bank.get (s.bankAddr false g (a + i)))

/-- The cells of a write of bytes at bank address `a` in member `g`. -/
def State.bankCells (s : State) (back : Bool) (g a : Nat) (bs : List Byte) : List Host.Cell :=
  (bs.zipIdx).map (fun e => (s.bankAddr back g (a + e.2), e.1))

/-- The same write in every member. -/
def State.bankCellsAll (s : State) (back : Bool) (a : Nat) (bs : List Byte) : List Host.Cell :=
  (List.range s.core.g).flatMap (fun g => s.bankCells back g a bs)

/-- Writes bank cells of the core in focus at once. -/
def State.putBank (s : State) (cells : List Host.Cell) : State :=
  { s with core := { s.core with regs := { s.core.regs with bank := s.core.regs.bank.setCells cells } } }

/-! ### Rings (03 R80, R81) -/

/-- The register word of a ring (Table 3.8). -/
def Ring.word (r : Ring) : Word :=
  r.tail ++ r.head ++ r.nslot ++ r.ssz ++ (0 : BitVec 5) ++ r.base ++ r.cons

/-- Slot size in bytes: 256 × 2^SSZ, where 7 and 6 both denote 16 KiB. -/
def slotBytes (ssz : Nat) : Nat := 256 * 2 ^ (min ssz 6)

/-- R80 accepts a configuration; reserved bits are ignored (00 R8). R80 lists no refusal of pointers that stand more than
NSLOT + 1 apart, although it says that the filled count never exceeds that: the model accepts them (log 38). -/
def State.okRing (s : State) (w : Word) : Bool :=
  let size := (fld w 32 8 + 1) * slotBytes (fld w 29 3)
  let a := fld w 12 12 * 256
  decide (size ≤ 0x40000) && decide (a + size ≤ 0x100000) &&
  (List.range 32).all (fun k =>
    if k * 32768 < a + size ∧ a < (k + 1) * 32768 then s.role k == 2 && s.okBank (k * 32768) else true)

/-- Filled count (TAIL − CONS) mod 4,096. -/
def Ring.filled (r : Ring) : Nat := (r.tail - r.cons).toNat

/-- Bank address at which slot `k` begins. -/
def Ring.slotAddr (r : Ring) (k : Nat) : Nat :=
  r.base.toNat * 256 + (k % (r.nslot.toNat + 1)) * slotBytes r.ssz.toNat

def Core.ring (c : Core) (n : HRing) : Ring := vget c.units.rings n.toNat Ring.zero

def Core.setRing (c : Core) (n : HRing) (r : Ring) : Core :=
  { c with units := { c.units with rings := vset c.units.rings n.toNat r } }

/-- A reservation of `k` more slots does not fit. -/
def Ring.full (r : Ring) (k : Nat) : Bool := decide (r.nslot.toNat + 1 < (r.resv - r.head).toNat + k)

/-- RING_TAIL_ADVANCE: TAIL passes the leading completed claims (R81). -/
def Ring.advanceTail (r : Ring) : Ring :=
  let lead := r.claims.takeWhile (fun k => k.done)
  { r with tail := r.tail + BitVec.ofNat 12 ((lead.map (fun k => k.n)).foldl (· + ·) 0), claims := r.claims.drop lead.length }

/-- HEAD passes the leading retired pops in issue order (R81). -/
def Ring.advanceHead (r : Ring) : Ring :=
  let lead := r.pops.takeWhile (fun k => k.done)
  { r with head := r.head + BitVec.ofNat 12 ((lead.map (fun k => k.n)).foldl (· + ·) 0), pops := r.pops.drop lead.length }

/-- Marks the claim of command `seq` completed. -/
def Ring.claimDone (r : Ring) (seq : Nat) : Ring :=
  Ring.advanceTail { r with claims := r.claims.map (fun k => if k.seq = seq then { k with done := true } else k) }

/-- Marks the pop of consumer `num` retired. A RADV head pop carries done already. -/
def Ring.popDone (r : Ring) (num : Nat) : Ring :=
  Ring.advanceHead { r with pops := r.pops.map (fun k => if k.num = num then { k with done := true } else k) }

/-! ### Tokens (03 R82) -/

def Core.token (c : Core) (k : KTok) : Token := vget c.units.tokens k.toNat Token.zero

def Core.setToken (c : Core) (k : KTok) (t : Token) : Core :=
  { c with units := { c.units with tokens := vset c.units.tokens k.toNat t } }

/-- TOKST (Table 3.9). -/
def Core.tokst (c : Core) : Word :=
  (List.range 8).foldl (fun w n =>
    let t := vget c.units.tokens n Token.zero
    putFld w (8 * n) 8 (t.cnt.toNat * 16 + t.err.toNat * 2 + t.spec.toNat)) 0

/-- An instruction issued as `seq` on the token found an error: of those armed since the error was last cleared the
earliest-issued error is kept; a speculative one is deferred (R82; 08 R211). -/
def Token.record (t : Token) (spec : Bool) (seq : Nat) (code : BitVec 3) : Token :=
  if code = 0 ∨ seq < t.since then t
  else if spec then (if t.defErr = 0 ∨ seq < t.defAt then { t with defErr := code, defAt := seq } else t)
  else if t.err = 0 ∨ seq < t.errAt then { t with err := code, errAt := seq } else t

/-- The count rises at issue. -/
def Token.arm (t : Token) (spec : Bool) : Token := { t with cnt := t.cnt + 1, spec := t.spec || spec }

/-- The count drops at completion. -/
def Token.drop (t : Token) : Token := { t with cnt := t.cnt - 1 }

/-! ### Homes (01 R26; 05 R375; 16 R358) -/

/-- Where host memory stands in `mem` (log 9). -/
abbrev hostBase : Nat := 2 ^ 60
/-- Where a remote byte stands among the bytes that responses brought. -/
abbrev remoteBase : Nat := 2 ^ 61

/-- The lines of a physical range: line, offset, length. -/
def lineParts (pa n : Nat) : List (Nat × Nat × Nat) :=
  if n = 0 then [] else
  (List.range ((pa + n - 1) / 128 - pa / 128 + 1)).map (fun i =>
    let l := pa / 128 + i
    let a := max pa (l * 128)
    let b := min (pa + n) (l * 128 + 128)
    (l, a - l * 128, b - a))

/-- The home stack of a physical address (01 R26). -/
def homeStack (pa : Nat) : Nat := Nat.xor (pa / 128 % 8) (pa / 65536 % 8)

/-- A physical address after the remaps of retired frames (16 R358). -/
def State.frame (s : State) (pa : Nat) : Nat :=
  match lookupN (pa / 65536) s.memory.remaps with
  | some n => n * 65536 + pa % 65536
  | none => pa

/-- Accesses to the frame are held while its migration runs. -/
def State.frameBusy (s : State) (pa : Nat) : Bool :=
  match s.memory.busyFrame with
  | some e => e.1 == pa / 65536
  | none => false

def State.setMem (s : State) (m : Memory) : State := { s with memory := { s.memory with mem := m } }

/-- Bytes at their home. -/
def State.homeRead (s : State) (pa n : Nat) : List Byte := (List.range n).map (fun i => s.memory.mem.get (s.frame (pa + i)))

/-- A number at its home. -/
def State.homeNum (s : State) (pa n : Nat) : Nat := leNat (s.homeRead pa n)

/-- Writes bytes at their home; good bytes end poison. -/
def State.homeStore (s : State) (pa : Nat) (bs : List Byte) : State :=
  let cells := bs.zipIdx.map (fun e => (s.frame (pa + e.2), e.1))
  { s with memory := { s.memory with mem := s.memory.mem.setCells cells,
                                     poison := s.memory.poison.filter (fun a => !cells.any (fun c => c.1 == a)) } }

/-- A byte is poisoned. -/
def State.poisoned (s : State) (pa n : Nat) : Bool :=
  s.memory.poison.any (fun a => (List.range n).any (fun i => s.frame (pa + i) == a))

/-- The set of a line in its home slice (R375). -/
def l2Set (line : Nat) : Nat := homeStack (line * 128) * 524288 + line * 128 / 1024 % 524288

/-- A request reaches the home: its line is allocated, the least recently used of a full set replaced (LINE_REPLACE). -/
def State.touchL2 (s : State) (line : Nat) (write : Bool) : State :=
  let k := l2Set line
  let set := (lookupN k s.memory.l2).getD []
  let was := set.any (fun e => e.line == line && e.modified)
  let rest := set.filter (fun e => e.line != line)
  let rest := if 16 ≤ rest.length then rest.drop 1 else rest
  { s with memory := { s.memory with l2 := insertN k (rest ++ [⟨line, was || write⟩]) s.memory.l2 } }

/-! ### The line directory (05 R131 to R133) -/

def State.entry (s : State) (line : Nat) : Option DirEntry := s.memory.dir.find? (fun d => d.line == line)

/-- Puts an entry in place of the line's own. -/
def State.setEntry (s : State) (d : DirEntry) : State :=
  { s with memory := { s.memory with dir := s.memory.dir.filter (fun e => e.line != d.line) ++ [d] } }

/-- Stamps compare by time, then core. -/
def stampMax (a b : Nat × Nat) : Nat × Nat :=
  if a.1 < b.1 ∨ (a.1 = b.1 ∧ a.2 < b.2) then b else a

/-- DIRECTORY_ENTRY_DROP: the slice's floor stamp takes the line's (05 R127). -/
def State.dropEntry (s : State) (d : DirEntry) : State :=
  let k := homeStack (d.line * 128)
  let st := s.stack k
  let s1 := s.setStack k { st with floor := stampMax st.floor d.stamp }
  { s1 with memory := { s1.memory with dir := s1.memory.dir.filter (fun e => e.line != d.line) } }

/-- A line without an entry: its stamp is the slice's floor. -/
def State.freshEntry (s : State) (line : Nat) : DirEntry :=
  { line := line, sharers := .pointers [], hostShares := false, out := [], twin := none,
    stamp := (s.stack (homeStack (line * 128))).floor, fan := none }

def State.entryOf (s : State) (line : Nat) : DirEntry := (s.entry line).getD (s.freshEntry line)

/-- A fan-out of the line is in progress: other requests receive RETRY (R133). -/
def State.fanBusy (s : State) (line : Nat) : Bool :=
  match s.entry line with
  | some d => d.fan.isSome
  | none => false

/-- The coarse vector of a set of agents. -/
def coarseOf (as : List Nat) : BitVec 22 := as.foldl (fun v a => v ||| (1 : BitVec 22) <<< (a / 4)) 0

/-- Records an agent; a fifth distinct one turns the entry coarse. -/
def Sharers.add (ag : Nat) : Sharers → Sharers
  | .pointers l => if l.contains ag then .pointers l else if l.length < 4 then .pointers (l ++ [ag]) else .coarse (coarseOf (l ++ [ag]))
  | .coarse v => .coarse (v ||| (1 : BitVec 22) <<< (ag / 4))

/-- The agents an invalidation goes to. -/
def Sharers.agents : Sharers → List Nat
  | .pointers l => l
  | .coarse v => (List.range 88).filter (fun a => v.getLsbD (a / 4))

def State.cline (s : State) (ag line : Nat) : Option CLine := s.memory.lines.find? (fun l => l.agent == ag && l.line == line)

def State.dropLine (s : State) (ag line : Nat) : State :=
  { s with memory := { s.memory with lines := s.memory.lines.filter (fun l => !(l.agent == ag && l.line == line)) } }

def State.setLine (s : State) (l : CLine) : State :=
  { s.dropLine l.agent l.line with memory := { (s.dropLine l.agent l.line).memory with
      lines := (s.dropLine l.agent l.line).memory.lines ++ [l] } }

/-- A fan-out has ended: host writes that awaited no other are complete (05 R137). -/
def State.settleHost (s : State) (num : Nat) : State :=
  let ws := s.memory.hostWrites.map (fun e => (e.1, e.2.filter (fun n => n != num)))
  { s with memory := { s.memory with hostWrites := ws.filter (fun e => !e.2.isEmpty) },
           outward := s.outward ++ (ws.filter (fun e => e.2.isEmpty)).map (fun e => Outward.hostDone e.1 true) }

/-- FAN_OUT_COMPLETE: the joined releases are performed, the twin goes, the entry records the agents that keep a copy,
which then holds the home's bytes (log 15); an entry that records nobody is dropped. -/
def State.fanDone (s : State) (d : DirEntry) (f : FanOut) : State :=
  let home := s.homeRead (d.line * 128) 128
  let kept := f.keep.filter (fun a => (s.cline a d.line).isSome)
  let s1 := { s with memory := { s.memory with lines := s.memory.lines.filterMap (fun (l : CLine) =>
    if l.line = d.line then (if kept.contains l.agent then some { l with bytes := home, out := false, wrote := [] } else none)
    else some l) } }
  let d' := { d with sharers := if kept.length ≤ 4 then .pointers kept else .coarse (coarseOf kept), hostShares := false,
                     out := [], twin := none, fan := none }
  (if kept.isEmpty then s1.dropEntry d' else s1.setEntry d').settleHost f.num

/-- A fan-out whose agents and host have all been counted completes. -/
def State.settleFan (s : State) (line : Nat) : State :=
  match s.entry line with
  | none => s
  | some d => match d.fan with
    | none => s
    | some f => if f.await.isEmpty && !f.host then s.fanDone d f else s

/-- FAN_OUT_START: invalidations to every recorded agent but `from_`; of a line the host shares, a snoop to the host
(BACK_INVALIDATION_SNOOP) unless the host itself wrote. Agents of removed stacks are not asked (R134). A fan-out in progress is
joined, and counts the agent. `wrote` tells whose writes it performs. -/
def State.startFan (s : State) (line : Nat) (from_ : Option Nat) (keep byHost : Bool) (wrote : List (Nat × Nat)) : State :=
  let d := s.entryOf line
  let kept := match from_ with
    | some a => if keep then [a] else []
    | none => []
  match d.fan with
  | some f =>
    let counted (a : Nat) : Bool := from_ == some a
    let keepsIt := match from_ with
      | some a => keep && !f.await.contains a
      | none => false
    (s.setEntry { d with fan := some { f with await := f.await.filter (fun a => !counted a),
                                              keep := if keepsIt then f.keep ++ kept else f.keep,
                                              wrote := f.wrote ++ wrote } }).settleFan line
  | none =>
    let ags := d.sharers.agents.filter (fun a => from_ != some a && !(s.stack (a / 11)).removed)
    let host := d.hostShares && !byHost
    let s1 := { s with memory := { s.memory with nextFan := s.memory.nextFan + 1 },
                       outward := if host then s.outward ++ [Outward.backInval line] else s.outward }
    (s1.setEntry { d with hostShares := d.hostShares && !byHost, fan := some ⟨s.memory.nextFan, ags, ags, [], kept, host, wrote⟩ }).settleFan line

/-- CHECK_IN: the home stores the bytes in which the copy differs from the twin. -/
def State.checkIn (s : State) (ag line : Nat) (keep : Bool) : State :=
  match s.cline ag line with
  | none => s
  | some l =>
    let s0 := s.touchL2 line true
    let d := s0.entryOf line
    let old := s0.homeRead (line * 128) 128
    let twin := d.twin.getD old
    let new := (List.range 128).map (fun i =>
      if l.bytes.getD i 0 = twin.getD i 0 then old.getD i 0 else l.bytes.getD i 0)
    let s1 := (s0.homeStore (line * 128) new).setEntry { d with out := d.out.filter (fun a => a != ag) }
    let crossed := match d.fan with
      | some f => f.await.contains ag
      | none => false
    let s2 := if keep && !crossed then s1.setLine { l with out := false, wrote := [] } else s1.dropLine ag line
    s2.startFan line (some ag) (keep && !crossed) false l.wrote

/-- Lines that an agent can hold: the 256 of each cache-role bank of its cluster's slabs (05 R113; 15 R315), of each slab at least the
two banks that R314 leaves it. -/
def State.capacity (s : State) (ag : Nat) : Nat :=
  256 * sumN ((List.range 8).map (fun k =>
    let w := vget (s.stack (ag / 11)).srole (8 * (ag % 11) + k) 0
    max 2 ((List.range 32).filter (fun n => fld w (2 * n) 2 == 0)).length))

/-- A full agent gives a line up for `line`: the one it has held longest, checked in if it is checked out (log 45). -/
def State.makeRoom (s : State) (ag line : Nat) : State :=
  let held := s.memory.lines.filter (fun l => l.agent == ag && l.line != line)
  if held.isEmpty || decide (held.length < s.capacity ag) then s
  else match held.find? (fun l => !s.frameBusy (l.line * 128)) with
    | some v => if v.out then s.checkIn ag v.line false else s.dropLine ag v.line
    | none => s

/-- READ_MISS: the home records the agent, which receives the home copy. -/
def State.readMiss (s : State) (ag line : Nat) : State :=
  let s1 := (s.makeRoom ag line).touchL2 line false
  let d := s1.entryOf line
  (s1.setEntry { d with sharers := d.sharers.add ag }).setLine ⟨ag, line, s1.homeRead (line * 128) 128, false, []⟩

/-- CHECK_OUT: the first one makes the twin; the agent receives the home copy. -/
def State.checkOut (s : State) (ag line : Nat) : State :=
  let s1 := (s.makeRoom ag line).touchL2 line false
  let d := s1.entryOf line
  let copy := s1.homeRead (line * 128) 128
  (s1.setEntry { d with sharers := d.sharers.add ag, out := insertSet ag d.out,
                        twin := if d.out.isEmpty then some copy else d.twin }).setLine ⟨ag, line, copy, true, []⟩

/-- A write of one line performed at the home without a twin (AMO, CAS, sc and host writes, other modules' stores): it fans out. -/
def State.homeWrite (s : State) (pa : Nat) (bs : List Byte) (byHost : Bool) (wrote : List (Nat × Nat) := []) : State :=
  let s1 := (s.touchL2 (pa / 128) true).homeStore pa bs
  match s1.entry (pa / 128) with
  | none => s1
  | some _ => s1.startFan (pa / 128) none false byHost wrote

/-- A write of any extent at its homes. -/
def State.homePut (s : State) (pa : Nat) (bs : List Byte) (byHost : Bool := false) (wrote : List (Nat × Nat) := []) : State :=
  (lineParts pa bs.length).foldl (fun s l =>
    s.homeWrite (l.1 * 128 + l.2.1) ((bs.drop (l.1 * 128 + l.2.1 - pa)).take l.2.2) byHost wrote) s

/-- A read of any extent at its homes, whose lines enter the home slices (R375). -/
def State.homeFetch (s : State) (pa n : Nat) : List Byte × State :=
  (s.homeRead pa n, (lineParts pa n).foldl (fun s l => s.touchL2 l.1 false) s)

/-- No line of an extent is fanning out, and its frame is not migrating. -/
def State.homeFree (s : State) (pa n : Nat) : Bool := (lineParts pa n).all (fun l => !s.fanBusy l.1 && !s.frameBusy (l.1 * 128))

/-- An agent receives an invalidation: a line checked out is checked in, another dropped and acknowledged. -/
def State.invalidate (s : State) (ag line : Nat) : Option State :=
  match s.entry line with
  | none => none
  | some d => match d.fan with
    | none => none
    | some f =>
      if !f.inval.contains ag then none
      else
        let f' := { f with inval := f.inval.filter (fun a => a != ag) }
        let s1 := s.setEntry { d with fan := some f' }
        match s.cline ag line with
        | some l =>
          if l.out then some (s1.checkIn ag line false)
          else some ((s1.dropLine ag line).setEntry { d with fan := some { f' with acking := f'.acking ++ [ag] } })
        | none => some (s1.setEntry { d with fan := some { f' with acking := f'.acking ++ [ag] } })

/-- The home counts an acknowledgement once; one already counted is discarded. -/
def State.ackFan (s : State) (ag line : Nat) : Option State :=
  match s.entry line with
  | none => none
  | some d => match d.fan with
    | none => none
    | some f =>
      if !f.acking.contains ag then none
      else some ((s.setEntry { d with fan := some { f with acking := f.acking.erase ag, await := f.await.filter (fun a => a != ag) } }).settleFan line)

/-- Some fan-out of these numbers runs. -/
def State.fansRun (s : State) (ns : List Nat) : Bool :=
  s.memory.dir.any (fun d => match d.fan with
    | some f => ns.contains f.num
    | none => false)

/-- The fan-outs that perform writes of a core through lines with a property. -/
def State.coveredFans (s : State) (cnum : Nat) (p : Nat → Bool) : List Nat :=
  s.memory.dir.filterMap (fun d => match d.fan with
    | some f => if f.wrote.any (fun w => w.1 == cnum && p w.2) then some f.num else none
    | none => none)

/-- The fan-out number of a line. -/
def State.fanOf (s : State) (line : Nat) : List Nat :=
  match s.entry line with
  | some d => match d.fan with
    | some f => [f.num]
    | none => []
  | none => []

/-! ### Events to the driver (16 R347) -/

/-- The bytes of an event record (Table 16.5). -/
def EventRec.bytes (e : EventRec) (seq : Nat) : List Byte :=
  leBytes 2 e.type ++ leBytes 2 e.cnum ++ leBytes 4 e.info.toNat ++ leBytes 8 e.addr.toNat ++ leBytes 8 e.serial ++ leBytes 8 seq

/-- Types whose event is a count when it cannot be posted (log 14). -/
def EventRec.counts (e : EventRec) : Bool := e.type == 13 || e.type == 15

/-- EVENT_POST: writes the record at its home and advances EVTAIL; with the ring full sets OVF, and the event waits or is counted. -/
def State.post (s : State) (e : EventRec) : State :=
  let ev := s.regs.ev
  let cap := 2 ^ fld ev.evctl 0 4
  if (ev.evtail - ev.evhead).toNat ≥ cap then
    let ctl := putFld ev.evctl 63 1 1
    if e.counts then
      { s with regs := { s.regs with ev := { ev with evctl := putFld ctl 16 32 (fld ctl 16 32 + 1) } } }
    else { s with regs := { s.regs with ev := { ev with evctl := ctl }, waiting := s.regs.waiting ++ [e] } }
  else
    let at_ := fld ev.evbase 12 40 * 4096 + 32 * (ev.evtail.toNat % cap)
    let r := s.homePut at_ (e.bytes ev.evtail.toNat)
    { s with
      memory := r.memory, stackv := r.stackv, outward := r.outward,
      regs := { s.regs with ev := { ev with evtail := ev.evtail + 1 } } }

/-! ### Error banks (16 R360) -/

/-- A correctable error: the first fills the record, later ones count (saturating). -/
def ErrBank.ce (b : ErrBank) (synd : BitVec 16) (unit kind : Byte) (addr : Word) : ErrBank :=
  if b.ece.getLsbD 63 then { b with ece := putFld b.ece 32 31 (min (fld b.ece 32 31 + 1) 0x7FFFFFFF) }
  else { b with ece := (1 : BitVec 1) ++ (1 : BitVec 31) ++ synd ++ unit ++ kind, ecea := addr }

/-- An uncorrectable error: the first fills the record; later ones count, set MULTI and never overwrite it. -/
def ErrBank.ue (b : ErrBank) (cnum : BitVec 16) (unit kind : Byte) (addr : Word) : ErrBank :=
  if b.eue.getLsbD 63 then { b with eue := putFld (putFld b.eue 62 1 1) 32 30 (min (fld b.eue 32 30 + 1) 0x3FFFFFFF) }
  else { b with eue := (2 : BitVec 2) ++ (1 : BitVec 30) ++ cnum ++ unit ++ kind, euea := addr }

def State.bank (s : State) (b : Nat) : ErrBank := vget s.board.banks b ⟨0, 0, 0, 0⟩

/-- A record that is filled posts an event of type 13. -/
def State.logBank (s : State) (b : Nat) (e : ErrBank) (filled : Bool) : State :=
  let s1 := { s with board := { s.board with banks := vset s.board.banks b e } }
  if filled then s1.post ⟨13, 0xFFFF, BitVec.ofNat 32 b, if e.ece = (s.bank b).ece then e.euea else e.ecea, 0⟩ else s1

def State.logCe (s : State) (b : Nat) (synd : BitVec 16) (unit kind : Byte) (addr : Word) : State :=
  s.logBank b ((s.bank b).ce synd unit kind addr) (!(s.bank b).ece.getLsbD 63)

def State.logUe (s : State) (b : Nat) (cnum : BitVec 16) (unit kind : Byte) (addr : Word) : State :=
  s.logBank b ((s.bank b).ue cnum unit kind addr) (!(s.bank b).eue.getLsbD 63)

/-! ### Barriers (02 R44 to R49) -/

/-- Every member has arrived in generation `g`, or departed. -/
def BGroup.complete (b : BGroup) (g : Nat) : Bool :=
  b.formed && b.arrived.all (fun m => decide (g ≤ m.2) || b.departed.any (fun d => d.1 == m.1)) &&
  b.remote.all (fun m => decide (g ≤ m.2))

/-- Some member counts in generation `g` only because it departed. -/
def BGroup.aborted (b : BGroup) (g : Nat) : Bool :=
  b.arrived.any (fun m => decide (m.2 < g) && b.departed.any (fun d => d.1 == m.1)) ||
  b.remote.any (fun m => decide (2 ^ 64 ≤ m.2) && decide (m.2 - 2 ^ 64 < g))

/-- Some member that has not departed arrived in generation `g`. -/
def BGroup.live (b : BGroup) (g : Nat) : Bool :=
  b.arrived.any (fun m => decide (g ≤ m.2) && !b.departed.any (fun d => d.1 == m.1))

/-- BSTAT after generation `g` of level `lvl` completes (Table 2.4). -/
def bstatDone (w : Word) (lvl g : Nat) (abort : Bool) : Word :=
  if lvl = 0 then w
  else
    let w1 := putFld w (8 + 8 * lvl) 8 (g % 256)
    if abort then putFld w1 lvl 1 1 else w1

/-- The group serves a task. -/
def BGroup.serves (b : BGroup) (t : Task) : Bool := b.launch == t.serial && b.node == t.node

/-- A generation completes for a member: BSTAT of its task, also of one whose context is saved (R49). -/
def Core.barrierDone (c : Core) (b : BGroup) (g : Nat) (ab : Bool) : Core :=
  let c1 := if c.task.any b.serves then { c with ctl := { c.ctl with bstat := bstatDone c.ctl.bstat b.lvl g ab } } else c
  { c1 with drv := { c1.drv with saved := c1.drv.saved.map (fun v =>
      if b.serves v.task then { v with bstat := bstatDone v.bstat b.lvl g ab } else v) } }

/-- BARRIER_GENERATION_COMPLETE for one group, at most `fuel` generations. -/
def State.settleGroup : Nat → State → BGroup → State × BGroup
  | 0, s, b => (s, b)
  | n + 1, s, b =>
    let g := b.gen + 1
    if b.complete g && b.live g then
      let ab := b.aborted g
      let s1 := s.mapCores (fun c => if b.arrived.any (fun m => m.1 == s.coreId c) then c.barrierDone b g ab else c)
      State.settleGroup n s1 { b with gen := g }
    else (s, b)

/-- Settles every group. -/
def State.settleGroups (s : State) : State :=
  let r := s.groups.foldl (fun (acc : State × List BGroup) b =>
    let top := (b.arrived.map (fun m => m.2)).foldl max 0
    let q := State.settleGroup (top - b.gen) acc.1 b
    (q.1, acc.2 ++ [q.2])) (s, [])
  { r.1 with groups := r.2 }

/-- The group of the core in focus at a level. -/
def State.groupOf (s : State) (lvl : Nat) : Option BGroup :=
  match s.core.task with
  | none => none
  | some t => s.groups.find? (fun b => b.lvl == lvl && b.launch == t.serial && b.node == t.node &&
      b.arrived.any (fun m => m.1 == s.coreId s.core))

/-- The core's last arrival at a level. -/
def State.lastArrival (s : State) (lvl : Nat) : Nat :=
  match s.groupOf lvl with
  | none => 0
  | some b => (lookupN (s.coreId s.core) b.arrived).getD 0

/-- The core in focus arrives at a level. A core alone at its level completes on its own arrival (R45). -/
def State.arrive (s : State) (lvl : Nat) : State :=
  match s.groupOf lvl with
  | none =>
    let g := if lvl = 0 then 0 else fld s.core.ctl.bstat (8 + 8 * lvl) 8 + 1
    { s with core := { s.core with ctl := { s.core.ctl with bstat := bstatDone s.core.ctl.bstat lvl g false } } }
  | some _ =>
    let me := s.coreId s.core
    State.settleGroups { s with groups := s.groups.map (fun b =>
      if b.lvl == lvl && b.arrived.any (fun m => m.1 == me) &&
         (match s.core.task with
          | some t => b.launch == t.serial && b.node == t.node
          | none => false) then
        { b with arrived := b.arrived.map (fun m => if m.1 = me then (me, m.2 + 1) else m) } else b) }

/-! ### Departure (02 R48; 08 R206, R207) -/

/-- A position leaves a lockstep group: the other members' LOCKM bits clear; a group left with one member dissolves. -/
def dropLock (cid pos : Nat) (c : Core) : Core :=
  if c.cid = cid ∧ c.lockm.getLsbD pos then
    let m := c.lockm &&& ~~~((1 : BitVec 8) <<< pos)
    let own := (1 : BitVec 8) <<< c.pos
    let m' := if c.pos = pos ∨ m = own then 0 else m
    { c with ident := { c.ident with cluster := putFld c.ident.cluster 16 8 m'.toNat } }
  else c

/-- A position is dropped from the masks of held LOCKs (R206). -/
def dropHeldLock (cid pos : Nat) (c : Core) : Core :=
  if c.cid = cid then
    { c with front := { c.front with holds := c.front.holds.map (fun h =>
      match h with
      | .lock m => .lock (m &&& ~~~((1 : BitVec 8) <<< pos))
      | h => h) } }
  else c

/-- The same of a member whose context is saved: the restore leaves the position out (R207). -/
def dropSavedLock (cid pos : Nat) (t : Task) (c : Core) : Core :=
  match c.drv.saved with
  | some v =>
    if fld v.ident.cluster 7 7 = cid ∧ v.ident.cluster.getLsbD (16 + pos) ∧ v.task.serial = t.serial ∧ v.task.node = t.node then
      { c with drv := { c.drv with saved := some { v with left := v.left ||| (1 : BitVec 8) <<< pos } } }
    else c
  | none => c

/-- A core at a cluster position leaves every held LOCK and, where it was in a lockstep group, the group. -/
def State.dropMember (s : State) (cnum cid pos : Nat) (grouped : Bool) (t : Option Task) : State :=
  s.mapCores (fun c => dropHeldLock cid pos (
    if c.cnum = cnum ∨ !grouped then c
    else match t with
      | some t => dropSavedLock cid pos t (dropLock cid pos c)
      | none => dropLock cid pos c))

/-- The core in focus leaves its lockstep group and every held LOCK. -/
def State.leaveLock (s : State) : State :=
  let s1 := s.dropMember s.core.cnum s.core.cid s.core.pos (s.core.lockm != 0) s.core.task
  { s1 with core := { s1.core with ident := { s1.core.ident with cluster := putFld s1.core.ident.cluster 16 8 0 } } }

/-- A launch stops firing nodes and will end with a status (02 R48, R54). Of two causes the first gives the status and the node, which
R48 and R54 leave open: the model's choice (log 49). -/
def Launch.stop (l : Launch) (status node : Nat) : Launch :=
  { l with stopping := true, status := if l.status = 0 then status else l.status,
           fnode := match l.fnode with
             | some n => some n
             | none => some node }

/-- TASK_DEPART of the core in focus: it counts as arrived with ABORT at every level, issues nothing more and its launch
stops with the status given; it retires under R53. -/
def State.depart (s : State) (status : Nat) : State :=
  match s.core.task with
  | none => s
  | some t =>
    let me := s.coreId s.core
    let s1 := s.leaveLock
    let s2 := { s1 with
      groups := s1.groups.map (fun (b : BGroup) =>
        if b.launch = t.serial ∧ b.node = t.node ∧ b.arrived.any (fun m => m.1 == me) ∧ !b.departed.any (fun m => m.1 == me) then
          { b with departed := b.departed ++ [(me, (lookupN me b.arrived).getD 0)] } else b),
      hearth := if status = 0 then s1.hearth else
        { s1.hearth with launches := s1.hearth.launches.map (fun (l : Launch) => if l.serial = t.serial then l.stop status t.node else l) },
      core := { s1.core with
        pipe := ⟨[], [], []⟩,
        front := { s1.core.front with departed := true, ended := true, held := false, holds := [], granted := false, bubbles := 0,
                                      after := .issue,
                                      gatherFrz := none, bellowsFrz := none, trapReq := none, stat := .stopped, bnd := [] } } }
    s2.settleGroups

/-! ### System faults (16 R344 to R346) -/

/-- Fault codes of Table 16.1. -/
abbrev cALIGN : Nat := 1
abbrev cXLATE : Nat := 2
abbrev cUE : Nat := 3
abbrev cSEALED : Nat := 4
abbrev cNOHOLD : Nat := 5
abbrev cSTOREFULL : Nat := 6
abbrev cLINKDOWN : Nat := 7
abbrev cILLBUNDLE : Nat := 8
abbrev cILLOP : Nat := 9
abbrev cPRIV : Nat := 10
abbrev cCMPT : Nat := 11
abbrev cVOTE3 : Nat := 12

/-- Class of a fault: 1 held, 2 taken, 3 recovered (a UE of a token is held). -/
def faultClass (code : Nat) : Nat :=
  if code ≤ 7 then 1 else if code ≤ 10 then 2 else 3

/-- FREC (Table 16.3). -/
def frecWord (slot cls tok code : Nat) : Word :=
  BitVec.ofNat 64 (slot * 2 ^ 60 + cls * 2 ^ 56 + tok * 2 ^ 48 + code)

/-- INFO of an event of types 1 to 3 and 6 (Table 16.5): FREC bits [63:40] and CODE. -/
def frecInfo (frec : Word) : BitVec 32 := BitVec.ofNat 32 (fld frec 40 24 * 256 + fld frec 0 8)

/-- The launch serial of the core in focus, 0 if none. -/
def State.serialOf (s : State) : Nat :=
  match s.core.task with
  | some t => t.serial
  | none => 0

/-- Every other member of the lockstep group of the core in focus stops at the same boundary (16 R345; 08 R208):
a member that runs goes to `STATE`. -/
def State.stopGroup (s : State) (st : Nat) : State :=
  if s.core.lockm = 0 then s
  else { s with others := s.others.map (fun c =>
    if c.cid = s.core.cid ∧ s.core.lockm.getLsbD c.pos ∧ c.cstate = 1 then
      { c with drv := { c.drv with cctl := putFld c.drv.cctl 60 4 st } } else c) }

/-- The members of a lockstep group, by cluster and mask, that stopped with another member run on. -/
def State.resumeAt (s : State) (cid : Nat) (mask : BitVec 8) : State :=
  { s with others := s.others.map (fun (c : Core) =>
    if c.cid = cid ∧ mask.getLsbD c.pos ∧ c.cstate = 2 then { c with drv := { c.drv with cctl := putFld c.drv.cctl 60 4 1 } } else c) }

/-- Other members of the lockstep group that stopped with this core run on. -/
def State.resumeGroup (s : State) : State := if s.core.lockm = 0 then s else s.resumeAt s.core.cid s.core.lockm

/-- CMPT and VOTE3 fill an uncorrectable-error record: of the front-end die, for a vector slot of the base die (Tables 16.9,
16.10). -/
def State.logFault (s : State) (slot code : Nat) : State :=
  let c := s.core
  if code = cCMPT ∨ code = cVOTE3 then
    s.logUe (4 * c.stk + (if slot = 1 ∨ slot = 2 then 0 else 1)) (BitVec.ofNat 16 c.cnum) (BitVec.ofNat 8 c.fe)
      (if code = cVOTE3 then 7 else 8) (c.front.pc.zeroExtend 64)
  else s

/-- SYSTEM_FAULT (R345), shared by every instruction that raises one.
`slot` is coded as in FREC, `tok` is 0xFF for none; `cls` the class.
The bundle does not commit; the record is written, the event posted and CCTL.STATE changed.
A taken fault makes the core depart; a recovered one enters RECOVERING (Recover runs as its event). -/
def State.systemFaultAs (s : State) (cls slot code tok : Nat) (info : Word) : State :=
  let frec := frecWord slot cls tok code
  let st := if cls = 1 then 3 else if cls = 3 then 7 else 0
  let d := { s.core.drv with frec := frec, fpc := s.core.front.pc.zeroExtend 64, finfo := info,
                             cctl := putFld s.core.drv.cctl 60 4 (if cls = 2 then fld s.core.drv.cctl 60 4 else st) }
  let s1 := { s with core := { s.core with drv := d, front := { s.core.front with stat := .stopped, bnd := [] } } }
  let s1 := s1.logFault slot code
  let s2 := if cls = 2 then s1 else s1.stopGroup 2
  let s3 := s2.post ⟨cls, s.core.cnum, frecInfo frec, s.core.front.pc.zeroExtend 64, s.serialOf⟩
  if cls = 2 then s3.depart 1 else s3

/-- A system fault of the class that Table 16.1 gives its code. -/
def State.systemFault (s : State) (slot code tok : Nat) (info : Word) : State :=
  s.systemFaultAs (faultClass code) slot code tok info

/-! ### Fetch (07 R166, R167) -/

/-- The resident page of the running task that holds an address (02 R55). -/
def Core.pageAt (c : Core) (a : Nat) : Option Overlay :=
  match c.task with
  | none => none
  | some t => c.ovl.find? (fun o => o.inUse && o.asid == t.asid && decide (o.va ≤ a) && decide (a < o.va + 4096))

/-- The bytes from an address to the end of its fetch line. -/
def Core.lineAt (c : Core) (a : Nat) : Option (List Byte) :=
  (c.pageAt a).map (fun o => o.bytes.getN (a - o.va) (64 - a % 64))

/-- Lines of the instruction store, the most that fetch can skip. -/
abbrev fetchFuel : Nat := 4097

/-- Finds the bundle at or after `pc`, skipping lines whose header is 0x00; none beside the address where fetch left the
resident overlays. -/
def Core.fetch (c : Core) : Nat → BitVec 56 → BitVec 56 × Option (List Byte)
  | 0, pc => (pc, none)
  | k + 1, pc =>
    match c.lineAt pc.toNat with
    | none => (pc, none)
    | some line =>
      if line.headD 0 = 0 then Core.fetch c k (BitVec.ofNat 56 ((pc.toNat / 64 + 1) * 64)) else (pc, some line)

/-- The address of the bundle that would issue next: fetch passes over a line that ends; where fetch would leave the resident
overlays it stays, for the fault is ERET's (03 R84). -/
def Core.nextBundle (c : Core) : BitVec 56 :=
  match c.fetch fetchFuel c.front.pc with
  | (pc, some _) => pc
  | _ => c.front.pc

/-! ### Program traps (03 R84 to R87; 08 R213, R214) -/

/-- TCAUSE.TH. -/
def Core.inHandler (c : Core) : Bool := c.ctl.tcause.getLsbD 63

/-- The cause to take next, with its code and address: RANKOVF, ACCOVF, BUSERR, TRAP in this order (R85); of the bus errors
that have accumulated (R87) the oldest, one trap for each address (log 37). -/
def Core.trapCause (c : Core) : Option (Nat × Nat × Word) :=
  if c.front.povt ≠ 0 then some (1, 0, c.front.povt)
  else if c.front.accReq then some (2, 0, c.front.povq.zeroExtend 64)
  else match c.front.busErr with
    | a :: _ => some (3, 0, a)
    | [] => match c.front.trapReq with
      | some k => some (4, k.toNat, 0)
      | none => none

/-- The request that a trap takes is withdrawn. -/
def Core.trapTaken (c : Core) (cause : Nat) : Core :=
  { c with front :=
      if cause = 1 then { c.front with povt := 0 }
      else if cause = 2 then { c.front with povq := 0, accReq := false }
      else if cause = 3 then { c.front with busErr := c.front.busErr.drop 1 }
      else { c.front with trapReq := none } }

/-- PROGRAM_TRAP_ENTRY (R85): EPC, TCAUSE, TADDR, the pending-write queue set aside, two bubble cycles, fetch from TVEC.
With TVEC zero the driver gets ILLOP, TCAUSE and TADDR set. -/
def State.trapEntry (s : State) (cause code : Nat) (addr : Word) : State :=
  let tc := BitVec.ofNat 64 (2 ^ 63 + code * 2 ^ 24 + cause)
  let c := s.core.trapTaken cause
  if c.ctl.tvec = 0 then
    State.systemFault { s with core := { c with ctl := { c.ctl with tcause := BitVec.ofNat 64 (code * 2 ^ 24 + cause), taddr := addr } } }
      15 cILLOP 0xFF 0
  else
    { s with core := { c with
        ctl := { c.ctl with epc := c.nextBundle.zeroExtend 64, tcause := tc, taddr := addr },
        pipe := { c.pipe with pwq := [], aside := c.pipe.pwq },
        front := { c.front with pc := c.ctl.tvec.extractLsb' 0 56, target := none, bubbles := 2, after := .issue, held := false, holds := [],
                                arrv := c.front.arrv.map (fun k => k + 1000) } } }

/-- ERET_RESUME (R86): the handler's results have landed; EPC's bundle issues after two bubble cycles and the set-aside
entries count from it. TH clears. A vote of the handler that failed is raised at the boundary that follows (08 R186). -/
def Core.eretResume (c : Core) : Core :=
  { c with
    ctl := { c.ctl with tcause := putFld c.ctl.tcause 63 1 0 },
    pipe := { c.pipe with pwq := c.pipe.pwq.filter Pend.isVote, aside := c.pipe.aside },
    front := { c.front with pc := c.ctl.epc.extractLsb' 0 56, target := none, bubbles := 2, after := .resume,
                            arrv := (c.front.arrv.filter (fun k => decide (1000 ≤ k))).map (fun k => k - 1000) } }

/-- The set-aside entries rejoin the queue when the bundle at EPC is about to issue. -/
def Core.rejoin (c : Core) : Core :=
  { c with pipe := { c.pipe with pwq := c.pipe.aside ++ c.pipe.pwq, aside := [] }, front := { c.front with after := .issue } }

/-! ### Issue of one slot -/

/-- What a slot does at its issue. -/
inductive SlotRes where
  | ok (s : State)
  | fault (code tok : Nat) (info : Word)
  | hold (hs : List Hold)

/-- The slot word of an instruction, which FINFO shows for ILLOP (16 Table 16.2). -/
def slotWord (i : Instr) : Word :=
  match i.enc with
  | some e => e.word
  | none => 0

/-- ILLOP at issue. -/
def SlotRes.illop (i : Instr) : SlotRes := .fault cILLOP 0xFF (slotWord i)

/-- The outcome of a slot: its effect, a system fault at its bundle, or a hold of its bundle (log 1). -/
def settle (slot : Nat) (s : State) : SlotRes → Host.Outcome State Fault Refusal
  | .ok s' => .next s'
  | .fault code tok info => .next (s.systemFault slot code tok info)
  | .hold hs => .next { s with core := { s.core with front := { s.core.front with stat := .held, holds := s.core.front.holds ++ hs } } }

/-- A slot enabled or suppressed as a whole: suppressed it has no effect (03 R74, R76). -/
def issue (h : Head) (slot : Nat) (s : State) (body : SlotRes) : Host.Outcome State Fault Refusal :=
  if s.core.enabled h then settle slot s body else .next s

/-- Slot numbers of a head, coded as in FREC. -/
def vslot (h : Head) : Nat := if h.unit then 2 else 1
def cslot (h : Head) : Nat := if h.unit then 5 else 4

/-- A boundary change of the bundle in issue (08 R185). -/
def State.boundary (s : State) (b : Bnd) : State :=
  { s with core := { s.core with front := { s.core.front with bnd := s.core.front.bnd ++ [b] } } }

/-- Marks an irrevocable instruction of the phase (14 R298). -/
def State.irrevocable (s : State) : State :=
  { s with core := { s.core with phase := { s.core.phase with irrevocable := true } } }

end Sys2Proof.Machine
end

