-- ==== Sys2Proof/Machine/Operands.lean ====
section
/-! DEFINITION. Operand forms: immediates, compare operands, branch targets, ALU operations on words (07 R170, R172;
08 R188 to R190). -/
namespace Sys2Proof.Machine
open Sys2Proof

/-- imm23 sign-extended, or the literal (07 R170). -/
def immS : Imm → Word
  | .imm v => v.signExtend 64
  | .lit v => v

/-- imm23 zero-extended, for ANDI, ORI and XORI. -/
def immZ : Imm → Word
  | .imm v => v.zeroExtend 64
  | .lit v => v

/-- The raw immediate bits of a shift, token mask, register number or code. -/
def immN : Imm → BitVec 23
  | .imm v => v
  | .lit v => v.extractLsb' 0 23

/-- Second operand of CMP: register, or imm17 extended as Z says. -/
def cmpOperand (c : Core) (o : SC) : Word :=
  match o.src with
  | .reg b => c.x b
  | .imm v => if o.z then v.zeroExtend 64 else v.signExtend 64

/-- Bit number of TBIT. -/
def tbitIndex (c : Core) (o : SC) : Nat :=
  match o.src with
  | .reg b => (c.x b).toNat % 64
  | .imm v => v.toNat % 64

/-- Target of an SJ branch from the bundle at `pc` (07 R172). -/
def sjTarget (pc : BitVec 56) (o : SJ) : BitVec 56 :=
  (pc.extractLsb' 6 50 + o.off.signExtend 50) ++ o.byte

/-- Target i of an SM branch (07 R172). -/
def smTarget (pc : BitVec 56) (lit : Word) (i : Nat) : BitVec 56 :=
  let e := lit.extractLsb' (16 * i) 16
  (pc.extractLsb' 6 50 + (e.extractLsb' 6 10).signExtend 50) ++ e.extractLsb' 0 6

/-! ### Scalar operations (08 Table 8.2, R189, R190) -/

def opShl (a : Word) (n : Nat) : Word := a <<< (n % 64)
def opShr (a : Word) (n : Nat) : Word := a >>> (n % 64)
def opShra (a : Word) (n : Nat) : Word := a.sshiftRight (n % 64)
def opRot (a : Word) (n : Nat) : Word := a.rotateRight (n % 64)

/-- Leading zero bits of the low `w` bits. -/
def leadZeros : Nat → Nat → Nat
  | 0, _ => 0
  | w + 1, v => if v.testBit w then 0 else leadZeros w v + 1

/-- One bits among the low `w` bits. -/
def popCount : Nat → Nat → Nat
  | 0, _ => 0
  | w + 1, v => (v.testBit w).toNat + popCount w v

def opClz (a : Word) : Word := BitVec.ofNat 64 (leadZeros 64 a.toNat)
def opPopc (a : Word) : Word := BitVec.ofNat 64 (popCount 64 a.toNat)

/-- High half of the signed product. -/
def opMulh (a b : Word) : Word := BitVec.ofInt 64 (a.toInt * b.toInt / 2 ^ 64)
/-- High half of the unsigned product. -/
def opMulhz (a b : Word) : Word := BitVec.ofNat 64 (a.toNat * b.toNat / 2 ^ 64)

/-- R189: quotient and remainder; they never trap. -/
def divide (a b : Word) (signed : Bool) : Word × Word :=
  if b = 0 then (BitVec.allOnes 64, a)
  else if signed then
    if a = 0x8000000000000000 ∧ b = BitVec.allOnes 64 then (0x8000000000000000, 0)
    else (BitVec.ofInt 64 (a.toInt.tdiv b.toInt), BitVec.ofInt 64 (a.toInt.tmod b.toInt))
  else (BitVec.ofNat 64 (a.toNat / b.toNat), BitVec.ofNat 64 (a.toNat % b.toNat))

/-- Mask of the field of R190 given by x[b], cut at bit 63. -/
def fieldMask (b : Word) : Word :=
  let pos := fld b 0 6
  let len := fld b 8 7
  BitVec.ofNat 64 ((2 ^ len - 1) * 2 ^ pos)

def opExt (a b : Word) : Word := (a &&& fieldMask b) >>> fld b 0 6
def opIns (d a b : Word) : Word := (d &&& ~~~fieldMask b) ||| ((a <<< fld b 0 6) &&& fieldMask b)
def opLea (a b : Word) (c : Nat) : Word := a + b <<< c

/-- Low 8, 16 or 32 bits sign-extended. -/
def opSext (a : Word) (c : Nat) : Word := BitVec.ofInt 64 (toS (8 * 2 ^ c) a.toNat)

end Sys2Proof.Machine
end

