-- ==== Sys2Proof/Machine/Flags.lean ====
section
/-! DEFINITION. The computation of predicates: conditions of compares (08 R193, 09 R227), predicate results of the scalar
slot, and the votes of triple-modular execution (08 R186). -/
namespace Sys2Proof.Machine
open Sys2Proof

/-- A condition between two integers. -/
def condInt (cc : Cond) (a b : Int) : Bool :=
  match cc with
  | .eq => decide (a = b)
  | .ne => decide (a ≠ b)
  | .lt => decide (a < b)
  | .le => decide (a ≤ b)
  | .gt => decide (b < a)
  | .ge => decide (b ≤ a)

/-- A 64-bit word as s64 or z64. -/
def wordInt (z : Bool) (a : Word) : Int := if z then (a.toNat : Int) else a.toInt

/-- The truth value of CMP and CMPI. -/
def cmpTruth (cc : Cond) (z : Bool) (a b : Word) : Bool := condInt cc (wordInt z a) (wordInt z b)

/-- The truth value of TBIT: ne gives the bit, eq its complement. -/
def tbitTruth (cc : Cond) (a : Word) (n : Nat) : Bool := if cc = .eq then !a.getLsbD n else a.getLsbD n

/-- The mask of one predicate. -/
def fmask (r : FReg) : BitVec 16 := (1 : BitVec 16) <<< r.toNat

/-- A predicate's value under its mask. -/
def fval (r : FReg) (b : Bool) : BitVec 16 := if b then fmask r else 0

/-- Vote of three copies of a result; none when all disagree. -/
def vote (a b c : Word) : Option Word :=
  if a = b ∨ a = c then some a else if b = c then some b else none

/-- The three copies' results: the true one, disturbed by the outside's upsets. -/
def triCopies (c : Core) (v : Word) : Word × Word × Word :=
  (v ^^^ vget c.front.upset 0 0, v ^^^ vget c.front.upset 1 0, v ^^^ vget c.front.upset 2 0)

/-- Some copy disagrees. -/
def triDisagree (t : Word × Word × Word) : Bool := !(t.1 == t.2.1 && t.1 == t.2.2)

/-- Upsets act on one operation. -/
def Core.clearUpset (c : Core) : Core := { c with front := { c.front with upset := Vector.replicate 3 0 } }

/-- Logs a single disagreement as a corrected error of the front-end die's bank (16 Tables 16.9, 16.10). -/
def State.triLog (s : State) (t : Word × Word × Word) : State :=
  if triDisagree t then s.logCe (4 * s.core.stk + 1) 0 (BitVec.ofNat 8 s.core.fe) 5 (s.core.front.pc.zeroExtend 64) else s

/-- The same with a fault of the operation, whose bundle does not commit: the log stands (Front.corrected). -/
def State.triLogFault (s : State) (t : Word × Word × Word) : State :=
  let s1 := s.triLog t
  { s1 with core := { s1.core with front := { s1.core.front with corrected := triDisagree t } } }

/-- The result entries of a scalar operation whose result is coded in a word: at latency L, or under TRI the voted value
at L + 1; with no majority nothing is written and VOTE3 is raised at the boundary after the landing cycle. -/
def scalarResult (h : Head) (lat : Nat) (s : State) (v : Word) (dests : Word → List PVal) : SlotRes :=
  if h.tri then
    let t := triCopies s.core v
    match vote t.1 t.2.1 t.2.2 with
    | some r =>
      let s1 := s.triLog t
      .ok { s1 with core := (dests r).foldl (fun c e => c.push 0 (lat + 1) e) s1.core.clearUpset }
    | none => .ok { s with core := s.core.clearUpset.push 0 (lat + 2) .vote3 }
  else .ok { s with core := (dests v).foldl (fun c e => c.push 0 lat e) s.core }

/-- A register result. -/
def xResult (h : Head) (lat : Nat) (s : State) (d : XReg) (v : Word) : SlotRes :=
  scalarResult h lat s v (fun r => [.x d r])

/-- A compare's two predicate results (03 R78; 08 R193). -/
def cmpResult (i : Instr) (h : Head) (s : State) (ft ff : FReg) (t : Bool) : SlotRes :=
  if ft = ff ∧ ft ≠ 0 then .illop i
  else scalarResult h 1 s (BitVec.ofNat 64 t.toNat) (fun r =>
    [.f (fmask ft) (fval ft (r == 1)), .f (fmask ff) (fval ff (r == 0))])

end Sys2Proof.Machine
end

