-- ==== Sys2Proof/Machine/Wire.lean ====
section
/-! DEFINITION. What Zilash carries: the flit CRC, flits, messages, routes and sending (15 R337 to R341), and the bodies of
the messages between modules, which the spec leaves to the implementation (log 9). -/
namespace Sys2Proof.Machine
open Sys2Proof

/-! ### Flits (15 R337, R338) -/

/-- One bit of the CRC register, most significant bit first. -/
def crcBit (c : Word) : Word := if c.getLsbD 63 then (c <<< 1) ^^^ 0x42F0E1EBA9EA3693 else c <<< 1

/-- One byte of the CRC. -/
def crcByte (c : Word) (b : Byte) : Word :=
  (List.range 8).foldl (fun c _ => crcBit c) (c ^^^ (b.zeroExtend 64 <<< 56))

/-- The flit CRC with the parameters of R338. -/
def crc64 (bs : List Byte) : Word := ~~~(bs.foldl crcByte (BitVec.allOnes 64))

/-- A list cut or padded with zeros to `n` bytes. -/
def padTo (n : Nat) (bs : List Byte) : List Byte := bs.take n ++ List.replicate (n - bs.length) 0

/-- A flit of Table 15.14. -/
def flitBytes (seq : BitVec 12) (vl : Nat) (control : Bool) (ack : BitVec 12) (payload : List Byte) : List Byte :=
  let body := leBytes 2 (seq.toNat + vl % 4 * 4096 + (if control then 16384 else 0)) ++ leBytes 2 ack.toNat ++ leBytes 4 0 ++
    padTo 112 payload
  body ++ leBytes 8 (crc64 body).toNat

/-- The last SEQ received in order. -/
def Link.ackOut (l : Link) : BitVec 12 := l.expect - 1

/-- A control flit of Table 15.16. -/
def Link.control (l : Link) (code arg : Nat) : List Byte := flitBytes 0 0 true l.ackOut (leBytes 1 code ++ leBytes 2 arg)

/-- The 16-byte header of Table 15.15. -/
def Msg.header (m : Msg) : List Byte :=
  let n := (16 + m.body.length + 111) / 112
  leBytes 1 m.dst ++ leBytes 1 m.src ++ leBytes 2 m.minc.toNat ++ leBytes 2 m.sinc.toNat ++ leBytes 1 (m.stk % 8 + 16 * m.cls) ++
  leBytes 1 n ++ leBytes 2 m.body.length ++ leBytes 2 m.chan ++ leBytes 4 m.tag.toNat

/-- A list in pieces of `n`, at most `fuel` of them. -/
def pieces (n : Nat) : Nat → List Byte → List (List Byte)
  | 0, _ => []
  | k + 1, l => if l.isEmpty then [] else l.take n :: pieces n k (l.drop n)

/-- The payloads of a message's flits. -/
def Msg.payloads (m : Msg) : List (List Byte) := pieces 112 64 (m.header ++ m.body)

/-- Reads a message from its payload bytes. -/
def Msg.read (bs : List Byte) : Msg :=
  let at_ (k n : Nat) : Nat := leNat ((bs.drop k).take n)
  { dst := at_ 0 1, src := at_ 1 1, minc := BitVec.ofNat 16 (at_ 2 2), sinc := BitVec.ofNat 16 (at_ 4 2), stk := at_ 6 1 % 8,
    cls := at_ 6 1 / 16, chan := at_ 10 2, tag := BitVec.ofNat 32 (at_ 12 4), body := (bs.drop 16).take (at_ 8 2) }

/-- The virtual lane of a class (R339). -/
def laneOf (cls : Nat) : Nat := if cls ≤ 2 then cls else 3

/-! ### Bodies of memory messages (log 9) -/

/-- A memory request as its home sees it: kind 0 read, 1 write, 2 AMO, 3 CAS; `born` the domain time of its issue, its age (05 R130). -/
structure MemReq where
  kind : Nat
  op : Nat
  size : Nat
  sc : Bool
  pa : Nat
  clk : Nat
  core : Nat
  born : Nat
  data : List Byte
  deriving DecidableEq, Repr

def MemReq.bytes (r : MemReq) : List Byte :=
  leBytes 1 r.kind ++ leBytes 1 r.op ++ leBytes 2 r.size ++ leBytes 4 (r.sc.toNat + 2 * r.core) ++ leBytes 8 r.pa ++ leBytes 8 r.clk ++ leBytes 8 r.born ++ r.data

def MemReq.read (bs : List Byte) : MemReq :=
  let at_ (k n : Nat) : Nat := leNat ((bs.drop k).take n)
  { kind := at_ 0 1, op := at_ 1 1, size := at_ 2 2, sc := at_ 4 4 % 2 == 1, core := at_ 4 4 / 2, pa := at_ 8 8, clk := at_ 16 8,
    born := at_ 24 8, data := bs.drop 32 }

/-- A response: a token error code, the stamp's time, the bytes read. -/
structure MemResp where
  code : Nat
  time : Nat
  data : List Byte
  deriving DecidableEq, Repr

def MemResp.bytes (r : MemResp) : List Byte := leBytes 8 r.code ++ leBytes 8 r.time ++ r.data
def MemResp.read (bs : List Byte) : MemResp :=
  { code := leNat (bs.take 8), time := leNat ((bs.drop 8).take 8), data := bs.drop 16 }

/-! ### Sending (15 R337, R339, R341) -/

def State.link (s : State) (n : Nat) : Link := vget s.links n Link.zero
def State.setLink (s : State) (n : Nat) (l : Link) : State := { s with links := vset s.links n l }

/-- This module's MID and NMOD. -/
def State.mid (s : State) : Nat := fld s.regs.m.domain 0 8
def State.nmod (s : State) : Nat := fld s.regs.m.domain 16 8

/-- A module that is removed and not admitted again (05 R134; 15 R343). -/
def State.isRemoved (s : State) (d : Nat) : Bool := s.domain.removed.any (fun e => e.1 == d)

/-- The link on which traffic to module `d` leaves, if there is a route (R341). -/
def State.route (s : State) (d : Nat) : Option Nat :=
  if s.nmod < d ∨ s.isRemoved d then none
  else match lookupN d s.domain.routes with
    | some w => if w.getLsbD 63 then some (fld w 0 4) else none
    | none => none

/-- Puts a message's flits on a link: numbered, kept for replay, sent. -/
def State.emit (s : State) (n : Nat) (m : Msg) : State :=
  let vl := laneOf m.cls
  m.payloads.foldl (fun s p =>
    let l := s.link n
    let f := flitBytes l.sendSeq vl false l.ackOut p
    { s.setLink n { l with sendSeq := l.sendSeq + 1, buffer := l.buffer ++ [(l.sendSeq, f)], ackSent := l.ackOut } with
      outward := s.outward ++ [.flit n f] }) s

/-- CPAUSE holds a channel of a module at this link: the receive queue that its entry index names is the peer's (R339). -/
def Link.holdsChannel (l : Link) (dst chan : Nat) : Bool := dst == l.peerMid && l.chPaused.contains (BitVec.ofNat 12 chan)

/-- A message may leave now: the link is ACTIVE, the lane and the channel are not paused, the replay buffer has room and no
new route to its destination is awaited. -/
def State.maySend (s : State) (n : Nat) (m : Msg) : Bool :=
  let l := s.link n
  l.state == 2 && !(vget l.paused (laneOf m.cls) false) && decide (l.buffer.length + m.payloads.length ≤ 1024) &&
  !(s.domain.pending.any (fun e => e.1 == m.dst)) && !(m.cls == 2 && l.holdsChannel m.dst m.chan)

/-- Two messages that keep their order: of one lane to one module, and of one channel (R339). -/
def sameFlow (a b : Msg) : Bool := laneOf a.cls == laneOf b.cls && a.dst == b.dst && (a.cls != 2 || b.cls != 2 || a.chan == b.chan)

/-- The oldest waiting message that may leave and has none of its flow before it. -/
def State.nextWaiting (s : State) (n : Nat) (before : List Msg) : List (Nat × Msg) → Option (Nat × Msg)
  | [] => none
  | e :: es => if !before.any (sameFlow e.2) && s.maySend n e.2 then some e else s.nextWaiting n (e.2 :: before) es

/-- The age of a memory request, by which it goes before others of its lane (05 R130). -/
def Msg.born (m : Msg) : Nat := (MemReq.read m.body).born

/-- Queues a message: a memory request before the younger ones, anything else at the end (05 R130). -/
def queueByAge (e : Nat × Msg) : List (Nat × Msg) → List (Nat × Msg)
  | [] => [e]
  | a :: l => if e.2.cls = 0 ∧ a.2.cls = 0 ∧ e.2.born < a.2.born then e :: a :: l else a :: queueByAge e l

/-- Sends a message, or queues it behind those of its flow. Without a route it goes nowhere. -/
def State.sendMsg (s : State) (m : Msg) : State :=
  match s.route m.dst with
  | none => s
  | some n =>
    let l := s.link n
    if s.maySend n m && !l.waiting.any (fun e => sameFlow e.2 m) then s.emit n m
    else s.setLink n { l with waiting := queueByAge (laneOf m.cls, m) l.waiting }

/-- Sends what waits on a link and may leave, oldest first, at most `fuel` messages. -/
def State.drainLink (n : Nat) : Nat → State → State
  | 0, s => s
  | k + 1, s =>
    let l := s.link n
    match s.nextWaiting n [] l.waiting with
    | none => s
    | some e => State.drainLink n k ((s.setLink n { l with waiting := l.waiting.erase e }).emit n e.2)

/-- A message from this module. -/
def State.message (s : State) (dst cls chan : Nat) (tag : BitVec 32) (body : List Byte) : Msg :=
  { dst := dst, src := s.mid, minc := BitVec.ofNat 16 (fld s.regs.m.domain 32 16), sinc := (s.stack s.core.stk).inc,
    stk := s.core.stk, cls := cls, chan := chan, tag := tag, body := body }

/-- A fresh tag for a request to module `dst`, which it names in its top byte (log 9). -/
def State.takeTag (s : State) (dst : Nat) : BitVec 32 × State :=
  ((s.domain.nextTag &&& 0xFFFFFF) ||| BitVec.ofNat 32 (dst % 256 * 2 ^ 24),
   { s with domain := { s.domain with nextTag := s.domain.nextTag + 1 } })

/-- The module that a tag names. -/
def tagMod (t : BitVec 32) : Nat := t.toNat / 2 ^ 24

/-- Sends a control flit on an ACTIVE link. -/
def State.sendControl (s : State) (n code arg : Nat) : State :=
  let l := s.link n
  if l.state = 2 then { s with outward := s.outward ++ [.flit n (l.control code arg)] } else s

end Sys2Proof.Machine
end

