-- ==== Sys2Proof/Machine/Control.lean ====
section
/-! DEFINITION. Control registers by number (07 R176 Table 7.10), their checks and boundary changes (08 R185, R203 to R205),
lockstep conditions (08 R206, R207), the conditions that hold a bundle (03 R63), and the checkpoint (08 R211). -/
namespace Sys2Proof.Machine
open Sys2Proof

/-- FMT accepts a value: AF, BF, OF are assigned codes (04 R97). -/
def okFmt (v : Word) : Bool := decide (fld v 0 4 < 12) && decide (fld v 4 4 < 12) && decide (fld v 8 4 < 12)

/-- An FP32 pattern is a NaN. -/
def isNan32 (v : Nat) : Bool := decide (v / 2 ^ 23 % 256 = 255) && decide (v % 2 ^ 23 ≠ 0)

/-- TOL accepts a value: neither field is a NaN or has its sign set (04 R105). -/
def okTol (v : Word) : Bool :=
  !isNan32 (fld v 0 32) && !isNan32 (fld v 32 32) && !v.getLsbD 31 && !v.getLsbD 63

/-- WSPHASE of the core's stack (05 R116). -/
def State.wsphase (s : State) : Word := (s.stack s.core.stk).wsphase.zeroExtend 64

/-- The value of a control register a kernel may read. -/
def State.creg (s : State) (n : Nat) : Option Word :=
  let c := s.core
  match n with
  | 0x000 => some c.ctl.fmt
  | 0x001 => some c.ctl.tol
  | 0x002 => some c.ctl.vview
  | 0x003 => some c.ctl.mview
  | 0x004 => some c.ctl.qview
  | 0x008 => some c.ctl.tvec
  | 0x009 => some c.ctl.epc
  | 0x00A => some c.ctl.tcause
  | 0x00B => some c.ctl.taddr
  | 0x00C => some c.ctl.sticky
  | 0x018 => some c.tokst
  | 0x019 => some c.ctl.bstat
  | 0x01A => some c.ctl.iter
  | 0x020 => some c.ctl.cyc
  | 0x021 => some c.ctl.frzcnt
  | 0x022 => some s.wsphase
  | 0x030 => some c.ident.core
  | 0x031 => some c.ident.gang
  | 0x032 => some c.ident.cluster
  | 0x033 => some c.ident.stack
  | 0x034 => some c.ident.module
  | n =>
    if 0x010 ≤ n ∧ n ≤ 0x017 then some (vget c.units.rings (n - 0x010) Ring.zero).word
    else if 0x038 ≤ n ∧ n ≤ 0x03C then some (vget c.ident.dmem (n - 0x038) 0)
    else none

/-- Whether MVTC may name a register at all: RW of Table 7.10. -/
def cregWritable (n : Nat) : Bool :=
  n == 0x000 || n == 0x001 || n == 0x002 || n == 0x003 || n == 0x004 || n == 0x008 || n == 0x009 || n == 0x00C || n == 0x01A ||
  (decide (0x010 ≤ n) && decide (n ≤ 0x017))

/-- R70, R97, R105, R80: the register accepts the value. -/
def State.cregOk (s : State) (n : Nat) (v : Word) : Bool :=
  match n with
  | 0x000 => okFmt v
  | 0x001 => okTol v
  | 0x002 => okVview v
  | 0x003 => okMview v
  | 0x004 => okQview v
  | n => if 0x010 ≤ n ∧ n ≤ 0x017 then s.okRing v else true

/-- A view write replaces a control register at the end of the cycle; STICKY bits [1:0] are W1C, [9:8] as given. -/
def Core.writeCtl (c : Core) (n : Nat) (v : Word) : Core :=
  let v := v &&& cregMask n
  match n with
  | 0x002 => { c with ctl := { c.ctl with vview := v } }
  | 0x003 => { c with ctl := { c.ctl with mview := v } }
  | 0x004 => { c with ctl := { c.ctl with qview := v } }
  | 0x008 => { c with ctl := { c.ctl with tvec := v } }
  | 0x009 => { c with ctl := { c.ctl with epc := v } }
  | 0x00C => { c with ctl := { c.ctl with sticky := (c.ctl.sticky &&& 3 &&& ~~~v) ||| (v &&& 0x300) } }
  | 0x01A => { c with ctl := { c.ctl with iter := v } }
  | _ => c

/-- A ring configuration write: fields of Table 3.8, CONS := HEAD, the reservation counter at TAIL. -/
def ringOfWord (w : Word) (on : Bool) : Ring :=
  { tail := w.extractLsb' 52 12, head := w.extractLsb' 40 12, nslot := w.extractLsb' 32 8, ssz := w.extractLsb' 29 3,
    base := w.extractLsb' 12 12, cons := w.extractLsb' 40 12, on := on, resv := w.extractLsb' 52 12, claims := [], pops := [] }

/-- A producer's reservation (03 R81): the counter moves, and TAIL at once over what has completed. -/
def Ring.reserve (r : Ring) (k : RingClaim) : Ring :=
  Ring.advanceTail { r with resv := r.resv + BitVec.ofNat 12 k.n, claims := r.claims ++ [k] }

/-- A consumer's place in the order of retirements (03 R81; 11 R272): CONS moves by what it pops, and HEAD at once over what
has retired. -/
def Ring.take (r : Ring) (p : RingPop) : Ring :=
  Ring.advanceHead { r with cons := r.cons + BitVec.ofNat 12 p.n, pops := r.pops ++ [p] }

/-- A LATCH without a segment (03 R84): the sticky bit, and a request of the trap. -/
def Core.busFail (c : Core) (a : Word) (trap : Bool) : Core :=
  { c with ctl := { c.ctl with sticky := c.ctl.sticky ||| 2 },
           front := if trap then { c.front with busErr := c.front.busErr ++ [a] } else c.front }

/-- One boundary change (08 R185). -/
def Core.applyBnd (c : Core) : Bnd → Core
  | .ctl n v => c.writeCtl n.toNat v
  | .ring n v => c.setRing n (ringOfWord v true)
  | .woff v => { c with ctl := { c.ctl with vview := putFld c.ctl.vview 43 10 v.toNat } }
  | .lockm m => { c with ident := { c.ident with cluster := putFld c.ident.cluster 16 8 m.toNat } }
  | .jump pc => { c with front := { c.front with nextPc := pc, target := some pc, bubbles := 2 } }
  | .halt => { c with front := { c.front with ended := true } }
  | .bind base len obj =>
    if c.units.bindings.any (fun b => b.base == base && b.len == len && b.obj == obj) then c
    else { c with units := { c.units with bindings := c.units.bindings ++ [⟨base, len, obj⟩] } }
  | .unbind obj => { c with units := { c.units with bindings := c.units.bindings.filter (fun b => b.obj != obj) } }
  | .fence l => { c with units := { c.units with fence := max c.units.fence l } }
  | .flip => { c with front := { c.front with bubbles := 24, after := .flip } }
  | .drain => { c with front := { c.front with after := .drain } }
  | .claim n k => c.setRing n ((c.ring n).reserve k)
  | .pop n p => c.setRing n ((c.ring n).take p)
  | .busErr a trap => c.busFail a trap

/-- Slots that earlier slots of the bundle in issue reserve on a ring: its own moves reach the ring at the boundary (03 R59; 11
R272), but no two instructions of a bundle take one slot (log 39). -/
def Core.claimed (c : Core) (n : HRing) : Nat :=
  sumN (c.front.bnd.map (fun b => match b with
    | .claim m k => if m = n then k.n else 0
    | _ => 0))

/-- Slots that earlier slots of the bundle in issue pop. -/
def Core.taken (c : Core) (n : HRing) : Nat :=
  sumN (c.front.bnd.map (fun b => match b with
    | .pop m p => if m = n then p.n else 0
    | _ => 0))

/-! ### Rings of matrix instructions -/

/-- Rings an instruction names as matrix operands. -/
def ringsRead : Instr → List HRing
  | .mma _ o | .mmas _ o | .lrmma _ o =>
    (if o.ra then [o.a.extractLsb' 0 3] else []) ++ (if o.rb then [o.b.extractLsb' 0 3] else [])
  | .mld _ o => if o.r then [o.ring] else []
  | _ => []

/-- A ring has outstanding producer copies or reading matrix instructions (03 R63). -/
def Core.ringInUse (c : Core) (n : HRing) : Bool :=
  (c.ring n).claims.any (fun k => !k.done) || c.units.anvil.any (fun j => (ringsRead j.ins).contains n)

/-! ### Busy bits and read holds (03 R79) -/

/-- The busy bit of a register: some queued matrix instruction writes it. -/
def Core.busy (c : Core) (r : TReg) : Bool := c.units.anvil.any (fun j => j.writes.contains r)
/-- The read hold of a register: some queued matrix instruction has yet to read it. -/
def Core.readHeld (c : Core) (r : TReg) : Bool := c.units.anvil.any (fun j => !j.read && j.reads.contains r)

/-- An instruction that reads and writes these registers is held. -/
def Core.regsHeld (c : Core) (reads writes : List TReg) : Bool :=
  reads.any c.busy || writes.any (fun r => c.busy r || c.readHeld r)

/-! ### Commands outstanding -/

/-- Scope level of a C-slot instruction (02 R46). -/
def scopeLevel : Scope → Nat
  | .cr => 0 | .cl => 1 | .st => 2 | .pk => 3 | .dm => 4 | .sy => 5

/-- The scope that an outstanding instruction names; Crucible commands name none and count at every level. -/
def cmdScope : Instr → Nat
  | .cpy _ o | .cpyr _ o | .lsend _ o => scopeLevel o.scope
  | .ldg _ o | .stg _ o | .amo _ o | .cas _ o | .fence _ o | .waitaddr _ o => scopeLevel o.scope
  | .vldg _ o | .vstg _ o => scopeLevel o.scope
  | _ => 0

/-- Accesses of the core itself, which every release of all its writes comes after, whatever their scope (05 R122). -/
def ownAccess : Instr → Bool
  | .ldg _ _ | .stg _ _ | .vldg _ _ | .vstg _ _ | .amo _ _ | .cas _ _ => true
  | _ => false

/-- Returns a result to an x or v register (08 R210). -/
def returnsReg : Instr → Bool
  | .ldg _ _ | .vldg _ _ | .amo _ _ | .cas _ _ | .waitaddr _ _ => true
  | _ => false

/-- Some byte of a bank extent lies in a bank of a pair. -/
def State.pairTouched (s : State) (a n : Nat) : Bool :=
  (List.range 16).any (fun j => s.paired j && decide (j * 65536 < a + n) && decide (a < (j + 1) * 65536))

/-- The destination rows of a copy into scratchpad, from the operands read at issue: address and length (11 R268). -/
def copyDests (ops : List Word) : List (Nat × Nat) :=
  let w := ops.getD 2 0
  let str := ((ops.getD 3 0).extractLsb' 32 32).signExtend 64
  (List.range (fld w 32 32)).map (fun r => ((ops.getD 0 0 + BitVec.ofNat 64 r * str).toNat, fld w 0 32))

/-- The most that a Crucible command can write at its destination (11 R285, R287; 06 R153). -/
def kExtent (i : Instr) (arg : Word) : Nat :=
  match i with
  | .khash _ _ => 1024
  | .kstat _ _ => 32
  | .kwr _ _ => 0
  | .kld _ _ => if arg.getLsbD 40 then 8704 else 2048 * (fld arg 10 6 + 1)
  | _ => 16

/-- Writes a bank-pair bank: a copy or Crucible command whose destination lies in one (08 R210). -/
def State.writesPair (s : State) (c : Cmd) : Bool :=
  match c.ins with
  | .cpy _ o => decide (o.dsp = 0) && (copyDests c.ops).any (fun e => s.pairTouched e.1 e.2)
  | .cpyr _ _ => (copyDests c.ops).any (fun e => s.pairTouched (c.addr + e.1) e.2)
  | .kld _ _ => s.pairTouched (c.addr + (c.ops.getD 0 0).toNat) (kExtent c.ins (c.ops.getD 2 0))
  | .khash _ _ | .klook _ _ | .kopen _ _ | .kseal _ _ | .klease _ _ | .kref _ _ | .kunref _ _ | .krepl _ _ | .kstat _ _ |
    .kdrop _ _ => s.pairTouched (c.ops.getD 0 0).toNat (kExtent c.ins (c.ops.getD 2 0))
  | _ => false

/-- The matrix instruction writes scratchpad. -/
def writesScratch : Instr → Bool
  | .mst _ _ => true
  | _ => false

/-- BFLIP's hold (08 R210 step 1). -/
def State.flipBusy (s : State) : Bool :=
  s.core.units.cmds.any (fun c => c.spec || returnsReg c.ins || s.writesPair c) ||
  s.core.units.anvil.any (fun j => writesScratch j.ins)

/-- SSTEP step 1: some outstanding token instruction or LSEND of scope `lvl` or narrower (11 R280). -/
def State.scopeBusy (s : State) (lvl : Nat) : Bool := s.core.units.cmds.any (fun c => decide (cmdScope c.ins ≤ lvl) || ownAccess c.ins)

/-! ### Channels (15 R325) -/

/-- A channel-table entry. -/
structure ChEntry where
  idx : Nat
  dgrp : Nat
  snode : Nat
  sidx : Nat
  sch : Nat
  rch : Nat
  dstm : Nat
  rnode : Nat
  ridx : Nat
  deriving DecidableEq, Repr

/-- Entry `i` of the channel table at CHTB, if valid. -/
def State.chEntry (s : State) (i : Nat) : Option ChEntry :=
  let a := fld s.regs.m.chtb 16 36 * 65536 + 16 * i
  let num (k n : Nat) : Nat := s.homeNum (a + k) n
  let w := num 0 4
  if w / 2 ^ 31 = 1 then
    some ⟨i, w % 2 ^ 20, num 4 2, num 6 2, num 8 1, num 9 1, num 10 1, num 12 2, num 14 2⟩
  else none

/-- The lowest-addressed valid entry with a property. -/
def State.findCh (s : State) (p : ChEntry → Bool) : Option ChEntry :=
  (List.range 4096).findSome? (fun i =>
    match s.chEntry i with
    | some e => if p e then some e else none
    | none => none)

/-- The entry on which the core in focus sends on a channel. -/
def State.sendEntry (s : State) (ch : BitVec 6) : Option ChEntry :=
  match s.core.task with
  | none => none
  | some t => s.findCh (fun e => e.dgrp == t.dgrp && e.snode == t.node && e.sidx == t.idx && e.sch == ch.toNat)

/-- The entry on which it receives: DSTM is this module. -/
def State.recvEntry (s : State) (ch : BitVec 6) : Option ChEntry :=
  match s.core.task with
  | none => none
  | some t => s.findCh (fun e => e.dgrp == t.dgrp && e.rnode == t.node && e.ridx == t.idx && e.rch == ch.toNat &&
      e.dstm == fld s.regs.m.domain 0 8)

/-- No line of the channel table fans out: its home can be asked (05 R133). -/
def State.chTableFree (s : State) : Bool := s.homeFree (fld s.regs.m.chtb 16 36 * 65536) 65536

/-- The lines of the channel table up to an entry enter their home slices as they are read (05 R375). -/
def State.chTouch (s : State) (e : ChEntry) : State := (s.homeFetch (fld s.regs.m.chtb 16 36 * 65536) (16 * (e.idx + 1))).2

/-- The receive queue of an entry. -/
def State.channel (s : State) (i : Nat) : Channel :=
  (s.channels.find? (fun c => c.entry == i)).getD ⟨i, [], false, false, none⟩

def State.setChannel (s : State) (c : Channel) : State :=
  { s with channels := s.channels.filter (fun d => d.entry != c.entry) ++ [c] }

/-- The path of a send is paused: a full queue in this module, or CPAUSE for the channel at the outgoing link (02 R50;
15 R339). Without a route nothing is paused: the LSEND finds LINKDOWN (11 R283). -/
def State.pathPaused (s : State) (e : ChEntry) : Bool :=
  if e.dstm = fld s.regs.m.domain 0 8 then decide (64 ≤ (s.channel e.idx).queue.length)
  else match s.route e.dstm with
    | none => false
    | some n => (s.link n).holdsChannel e.dstm e.idx

/-! ### Lockstep (08 R206, R207) -/

/-- Cores of the same task in the same cluster. -/
def State.peers (s : State) : List Core :=
  s.others.filter (fun c => c.cid == s.core.cid && c.task.isSome && s.core.task.isSome &&
    c.task.map (fun t => (t.serial, t.node)) == s.core.task.map (fun t => (t.serial, t.node)))

/-- Cores of the same cluster onto which the caller's task was dispatched. -/
def State.teammates (s : State) : List Core :=
  s.others.filter (fun c => c.cid == s.core.cid && s.core.task.any (fun t => t.team.contains c.cnum))

/-- A teammate that executed END or departed, retired since or not, and runs and keeps nothing of the task. -/
def State.leftTask (s : State) (c : Core) : Bool :=
  let mine (t : Task) : Bool := s.core.task.any (fun k => k.serial == t.serial && k.node == t.node)
  !(c.task.any mine && !c.front.departed && !c.front.ended) && !c.drv.saved.any (fun v => mine v.task)

/-- Every other core named has left the task, or has a LOCK held with the same mask. -/
def State.lockMet (s : State) (m : BitVec 8) : Bool :=
  s.teammates.all (fun c => !m.getLsbD c.pos || s.leftTask c || (c.front.held && c.front.holds.contains (.lock m)))

/-- Every other member of the group has an UNLOCK held. -/
def State.unlockMet (s : State) : Bool :=
  s.others.all (fun c => !(c.cid == s.core.cid && s.core.lockm.getLsbD c.pos) || (c.front.held && c.front.holds.contains .unlock))

/-- Of a granted LOCK every other core named that has not left the task runs and is granted too: all issue in one period. -/
def State.lockAgreed (s : State) (m : BitVec 8) : Bool :=
  s.teammates.all (fun c => !m.getLsbD c.pos || s.leftTask c || (c.front.granted && c.cstate == 1))

/-- The mask of LOCK without the named cores that have departed or ended. -/
def State.lockMask (s : State) (m : BitVec 8) : BitVec 8 :=
  s.teammates.foldl (fun m c => if s.leftTask c then m &&& ~~~((1 : BitVec 8) <<< c.pos) else m) m

/-! ### What holds a bundle (03 R63) -/

/-- The condition of a hold has cleared. -/
def State.holdClear (s : State) : Hold → Bool
  | .tokens m => (List.range 8).all (fun n => !m.getLsbD n || (vget s.core.units.tokens n Token.zero).cnt == 0)
  | .tokenFull k => (s.core.token k).cnt != 15
  | .ringFill n w => decide (w + s.core.taken n ≤ (s.core.ring n).filled)
  | .ringFull n k => !(s.core.ring n).full (k + s.core.claimed n)
  | .ringBusy n => !s.core.ringInUse n
  | .regs rs ws => !s.core.regsHeld rs ws
  | .flip => !s.flipBusy
  | .empty ch => s.chTableFree && match s.recvEntry ch with
    | none => true
    | some e => !(s.channel e.idx).queue.isEmpty || (s.channel e.idx).down
  | .path ch => s.chTableFree && match s.sendEntry ch with
    | none => true
    | some e => !s.pathPaused e
  | .barAhead lvl =>
    match s.groupOf lvl with
    | none => true
    | some b => decide (s.lastArrival lvl ≤ b.gen)
  | .barGen lvl g =>
    match s.groupOf lvl with
    | none => true
    | some b => decide (g ≤ b.gen)
  | .scopeDone lvl => !s.scopeBusy lvl && (decide (lvl < 2) || (s.coveredFans s.core.cnum (fun _ => true)).isEmpty)
  | .lock m => s.lockMet m
  | .unlock => s.unlockMet

/-! ### The checkpoint (08 R211 Table 8.3; 15 R316) -/

/-- Checkpoint-role banks of the core, lowest-numbered first. -/
def State.ckBanks (s : State) : List Nat := (List.range 32).filter (fun n => s.role n == 3)

/-- The banks a carry range of `clen` units needs are there. -/
def State.hasCk (s : State) (clen : Nat) : Bool := decide ((if 112 < clen then 2 else 1) ≤ s.ckBanks.length)

/-- The seven control registers and eight zero bytes at 512 to 575. -/
def ckCtl (c : Ctl) : List Byte :=
  [c.vview, c.mview, c.qview, c.fmt, c.tol, c.iter, c.sticky, 0].flatMap (fun w => leBytes 8 w.toNat)

/-- Bytes 0 to 4,095 of member `g`'s first checkpoint bank. -/
def Core.ckHead (c : Core) (g : Nat) : List Byte :=
  let scalar :=
    if g = 0 then
      (List.range 63).flatMap (fun k => leBytes 8 (vget c.regs.x (k + 1) 0).toNat) ++ leBytes 8 c.fAll.toNat ++ ckCtl c.ctl ++
      (List.range 8).flatMap (fun n => leBytes 8 (vget c.units.rings n Ring.zero).word.toNat)
    else List.replicate 640 0
  scalar ++ List.replicate 1408 0 ++
  (List.range 16).flatMap (fun n => leBytes 32 (c.pslice (BitVec.ofNat 4 n) g).toNat) ++ List.replicate 1536 0

/-- Writes the checkpoint into every member's checkpoint banks. -/
def State.takeCheckpoint (s : State) (t : Task) : State :=
  match s.ckBanks with
  | [] => s
  | b0 :: rest =>
    let cells := (List.range s.core.g).flatMap (fun g =>
      let carry := s.core.regs.rf.getN (g * 0x80000 + t.cbase * 256) (t.clen * 256)
      let place (a : Nat) (bs : List Byte) : List Host.Cell := bs.zipIdx.map (fun e => (a + e.2, e.1))
      place (g * 0x100000 + b0 * 32768) (s.core.ckHead g ++ carry.take 28672) ++
      (match rest with
       | [] => []
       | b1 :: _ => place (g * 0x100000 + b1 * 32768) (carry.drop 28672)))
    s.putBank cells

/-- BFLIP's boundary at the end of cycle c + 24 (08 R210 steps 4 and 5): pairs swap unless marked, marks and SPECn clear,
the checkpoint is taken, the phase log and counters start again. -/
def State.flipDone (s : State) : State :=
  let pairs := (s.spair s.core).extractLsb' 0 16
  let ph := s.core.phase
  let front' := Vector.ofFn (fun (g : Fin 4) =>
    (vget ph.front g.val 0) ^^^ (pairs &&& ~~~(vget ph.invalid g.val 0)))
  let toks := s.core.units.tokens.map (fun t => { t with spec := false })
  let s1 := { s with core := { s.core with
    units := { s.core.units with tokens := toks },
    front := { s.core.front with after := .issue },
    phase := { ph with front := front', invalid := Vector.replicate 4 0, specBanks := 0, log := [], logOvf := false, replay := none,
                       replays := 0, irrevocable := false, flipPc := s.core.front.pc, flipSeq := s.core.units.nextSeq,
                       flipResv := s.core.units.rings.toList.map Ring.resv } } }
  match s.core.task with
  | none => s1
  | some t =>
    if s1.hasCk t.clen then
      let s2 := s1.takeCheckpoint t
      { s2 with core := { s2.core with phase := { s2.core.phase with ckv := true } } }
    else s1

end Sys2Proof.Machine
end

