-- ==== Sys2Proof/Machine/Num.lean ====
section
/-! DEFINITION. Number formats and arithmetic (04): exact values, IEEE and tapered decoding and rounding, conversions,
element operations, transcendentals. -/
namespace Sys2Proof.Machine
open Sys2Proof

/-! ### Element formats (04 R89, Table 4.1) -/

/-- Bytes of a vector element. -/
def esize (t : ElemType) : Nat :=
  match t with
  | .s8 | .z8 | .t8 | .t6 => 1
  | .s16 | .z16 | .bf16 => 2
  | .s32 | .z32 | .f32 => 4
  | .s64 | .z64 => 8

def isInt (t : ElemType) : Bool :=
  match t with
  | .s8 | .s16 | .s32 | .s64 | .z8 | .z16 | .z32 | .z64 => true
  | _ => false

def isFlt (t : ElemType) : Bool := t == .bf16 || t == .f32
def isTap (t : ElemType) : Bool := t == .t8 || t == .t6
def isSigned (t : ElemType) : Bool := t == .s8 || t == .s16 || t == .s32 || t == .s64

/-- The element format of a code of FMT; codes from 12 up never stand there (04 R97). -/
def fmtType (n : Nat) : ElemType := (ElemType.ofCode (BitVec.ofNat 4 n)).getD .s8

/-- Least and greatest value of an integer type. -/
def typeMin (t : ElemType) : Int := if isSigned t then -(2 ^ (8 * esize t - 1) : Int) else 0
def typeMax (t : ElemType) : Int := if isSigned t then 2 ^ (8 * esize t - 1) - 1 else 2 ^ (8 * esize t) - 1

def clampTo (t : ElemType) (v : Int) : Int := max (typeMin t) (min (typeMax t) v)

/-- An integer element's value. -/
def intOf (t : ElemType) (bits : Nat) : Int :=
  if isSigned t then toS (8 * esize t) bits else ((bits % 2 ^ (8 * esize t) : Nat) : Int)

/-- An integer's bits in a type, wrapped (04 R90). -/
def intBits (t : ElemType) (v : Int) : Nat := wrapInt (8 * esize t) v

/-! ### Exact values -/

/-- A decoded operand: NaN (or NaR), infinity, signed zero, or the nonzero number m × 2^e. -/
inductive FV where
  | nan
  | inf (neg : Bool)
  | zero (neg : Bool)
  | fin (m : Int) (e : Int)
  deriving DecidableEq, Repr

/-- m × 2^e, zero being +0. -/
def FV.of (m e : Int) : FV := if m = 0 then .zero false else .fin m e

/-- An exact integer. -/
def FV.ofInt (v : Int) : FV := FV.of v 0

def FV.neg : FV → FV
  | .nan => .nan
  | .inf s => .inf (!s)
  | .zero s => .zero (!s)
  | .fin m e => .fin (-m) e

/-- m1 × 2^e1 + m2 × 2^e2 as a pair. -/
def dyAdd (m1 e1 m2 e2 : Int) : Int × Int :=
  let e := min e1 e2
  (m1 * 2 ^ (e1 - e).toNat + m2 * 2 ^ (e2 - e).toNat, e)

/-- A sum, with the sign IEEE 754 gives an exact zero; `rdn` says that the attribute is toward −∞. -/
def FV.add (rdn : Bool) (a b : FV) : FV :=
  match a, b with
  | .nan, _ | _, .nan => .nan
  | .inf s, .inf t => if s = t then .inf s else .nan
  | .inf s, _ => .inf s
  | _, .inf t => .inf t
  | .zero s, .zero t => if s = t then .zero s else .zero rdn
  | .zero _, x => x
  | x, .zero _ => x
  | .fin m e, .fin n f => let r := dyAdd m e n f; if r.1 = 0 then .zero rdn else .fin r.1 r.2

def FV.isNeg : FV → Bool
  | .nan => false
  | .inf s => s
  | .zero s => s
  | .fin m _ => decide (m < 0)

def FV.mul (a b : FV) : FV :=
  match a, b with
  | .nan, _ | _, .nan => .nan
  | .inf _, .zero _ | .zero _, .inf _ => .nan
  | .inf s, y => .inf (s != y.isNeg)
  | x, .inf t => .inf (x.isNeg != t)
  | .zero s, y => .zero (s != y.isNeg)
  | x, .zero t => .zero (x.isNeg != t)
  | .fin m e, .fin n f => .fin (m * n) (e + f)

/-- Order of two values that are not NaN: negative, zero or positive as a is below, equal to or above b; −0 equals +0. -/
def FV.cmp (a b : FV) : Int :=
  match a, b with
  | .inf s, .inf t => if s = t then 0 else if s then -1 else 1
  | .inf s, _ => if s then -1 else 1
  | _, .inf t => if t then 1 else -1
  | .zero _, .zero _ => 0
  | .zero _, .fin m _ => -m
  | .fin m _, .zero _ => m
  | .fin m e, .fin n f => (dyAdd m e (-n) f).1
  | _, _ => 0

def FV.isNan : FV → Bool
  | .nan => true
  | _ => false

/-! ### Rounding -/

/-- Rounding attributes of FMT.RM (04 Table 4.5). -/
abbrev RM : Type := Nat
abbrev rne : RM := 0
abbrev rtz : RM := 1
abbrev rdn : RM := 2
abbrev rup : RM := 3

/-- The magnitude a / 2^k rounded to an integer, for a number of sign `neg`. -/
def roundShift (rm : RM) (neg : Bool) (a k : Nat) : Nat :=
  let q := a / 2 ^ k
  let r := a % 2 ^ k
  let up := match rm with
    | 0 => decide (2 ^ k < 2 * r) || (decide (2 ^ k = 2 * r) && q % 2 == 1)
    | 1 => false
    | 2 => neg && r != 0
    | _ => !neg && r != 0
  if up then q + 1 else q

/-- RoundHalfEven of v / 2^k (04 R100, R102). -/
def halfEven (v : Int) (k : Nat) : Int :=
  let q := roundShift rne (decide (v < 0)) v.natAbs k
  if v < 0 then -(q : Int) else q

/-- An exact value rounded to an integer under an attribute. -/
def FV.round (rm : RM) : FV → Int
  | .fin m e =>
    if 0 ≤ e then m * 2 ^ e.toNat
    else
      let q := roundShift rm (decide (m < 0)) m.natAbs (-e).toNat
      if m < 0 then -(q : Int) else q
  | _ => 0

/-- Floor of log2 of a positive number. -/
def flog2 (a : Nat) : Nat := Nat.log2 a

/-- IEEE rounding into a format with 8 exponent bits and `fb` fraction bits, overflow and subnormals included (04 R91). -/
def roundIeee (fb : Nat) (rm : RM) : FV → Nat
  | .nan => 255 * 2 ^ fb + 2 ^ (fb - 1)
  | .inf s => (if s then 2 ^ (fb + 8) else 0) + 255 * 2 ^ fb
  | .zero s => if s then 2 ^ (fb + 8) else 0
  | .fin m e =>
    let a := m.natAbs
    let neg := decide (m < 0)
    let ex : Int := (flog2 a : Int) + e
    let q : Int := max (ex - fb) (-126 - (fb : Int))
    let n := if q ≤ e then a * 2 ^ (e - q).toNat else roundShift rm neg a (q - e).toNat
    let bits := (q + fb + 126).toNat * 2 ^ fb + n
    let big := 255 * 2 ^ fb
    let mag :=
      if bits < big then bits
      else match rm with
        | 0 => big
        | 1 => big - 1
        | 2 => if neg then big else big - 1
        | _ => if neg then big - 1 else big
    (if neg then 2 ^ (fb + 8) else 0) + mag

/-- Fraction bits of bf16 and f32. -/
def fracBits (t : ElemType) : Nat := if t = .bf16 then 7 else 23

/-- Decodes a bf16 or f32 pattern. -/
def decodeIeee (fb bits : Nat) : FV :=
  let s := decide (bits / 2 ^ (fb + 8) % 2 = 1)
  let ex := bits / 2 ^ fb % 256
  let fr := bits % 2 ^ fb
  if ex = 255 then (if fr = 0 then .inf s else .nan)
  else if ex = 0 then
    (if fr = 0 then .zero s else .fin (if s then -(fr : Int) else fr) (-126 - (fb : Int)))
  else
    let m : Int := (2 ^ fb + fr : Nat)
    .fin (if s then -m else m) ((ex : Int) - 127 - fb)

/-! ### Tapered formats (04 R92, R93) -/

/-- Body bits n and exponent size es. -/
def tapN (t : ElemType) : Nat := if t = .t8 then 7 else 5
def tapEs (t : ElemType) : Nat := if t = .t8 then 1 else 0

/-- Length of the run of bits equal to `lead` downward from bit i. -/
def runLen (body : Nat) (lead : Bool) : Nat → Nat
  | 0 => 0
  | i + 1 => if body.testBit i = lead then runLen body lead i + 1 else 0

/-- R92. -/
def decodeTapered (code n es : Nat) (S : Int) : FV :=
  let neg := code.testBit n
  let body := code % 2 ^ n
  if body = 0 then (if neg then .nan else .zero false)
  else
    let lead := body.testBit (n - 1)
    let m := runLen body lead n
    let k : Int := if lead then (m : Int) - 1 else -(m : Int)
    let rest := n - m - 1
    let e := if es = 1 ∧ 0 < rest then (body.testBit (rest - 1)).toNat else 0
    let nf := if es = 1 ∧ 0 < rest then rest - 1 else rest
    let f := body % 2 ^ nf
    let v : Int := (2 ^ nf + f : Nat)
    .fin (if neg then -v else v) (k * 2 ^ es + e - nf + S)

/-- R93. -/
def encodeTapered (n es : Nat) (S : Int) : FV → Nat
  | .nan | .inf _ => 2 ^ n
  | .zero _ => 0
  | .fin m e0 =>
    let sg := if m < 0 then 2 ^ n else 0
    let a := m.natAbs
    let L := flog2 a
    let E : Int := (L : Int) + e0 - S
    let top : Int := ((n : Int) - 1) * 2 ^ es
    if top ≤ E then sg + (2 ^ n - 1)
    else if E < -top ∨ (E = -top ∧ a = 2 ^ L) then sg + 1
    else
      let k : Int := E / 2 ^ es
      let e := (E - k * 2 ^ es).toNat
      let lp := if 0 ≤ k then k.toNat + 2 else (-k).toNat + 1
      let P := if 0 ≤ k then 2 ^ (k.toNat + 2) - 2 else 1
      let T := (P * 2 ^ es + e) * 2 ^ L + (a - 2 ^ L)
      let total := lp + es + L
      if total ≤ n then sg + T * 2 ^ (n - total) else sg + roundShift rne false T (total - n)

/-! ### Elements -/

/-- The exact value of an element; tapered ones are decoded with scale S. -/
def elemVal (t : ElemType) (S : Int) (bits : Nat) : FV :=
  match t with
  | .bf16 => decodeIeee 7 bits
  | .f32 => decodeIeee 23 bits
  | .t8 => decodeTapered bits 7 1 S
  | .t6 => decodeTapered (bits % 64) 5 0 S
  | _ => FV.ofInt (intOf t bits)

/-- Table 4.4: an exact value rounded once into a format; tapered ones are encoded with scale S, integers saturate. -/
def toElem (t : ElemType) (rm : RM) (S : Int) (v : FV) : Nat :=
  match t with
  | .bf16 => roundIeee 7 rm v
  | .f32 => roundIeee 23 rm v
  | .t8 => encodeTapered 7 1 S v
  | .t6 => encodeTapered 5 0 S v
  | _ =>
    match v with
    | .nan | .zero _ => 0
    | .inf s => intBits t (if s then typeMin t else typeMax t)
    | v => intBits t (clampTo t (v.round rm))

/-- FMT.RM, SA and SB. -/
def fmtRm (fmt : Word) : RM := fld fmt 28 2
def fmtSa (fmt : Word) : Int := toS 8 (fld fmt 12 8)
def fmtSb (fmt : Word) : Int := toS 8 (fld fmt 20 8)

/-- A conversion (R95): identical formats, with SA = SB where tapered, return the source bits. -/
def convert (fmt : Word) (src dst : ElemType) (bits : Nat) : Nat :=
  if src = dst ∧ (!isTap src || fmtSa fmt == fmtSb fmt) then (if src = .t6 then bits % 64 else bits)
  else toElem dst (fmtRm fmt) (fmtSb fmt) (elemVal src (fmtSa fmt) bits)

/-- The second operand of an element operation: element bits, or the exact integer a10 (07 R170). -/
inductive VSrc where
  | bits (n : Nat)
  | imm (k : Int)
  deriving DecidableEq, Repr

/-- As an integer of the type. An a10 that the type does not hold (below −128 or above 127 with s8) wraps to it, of which R170 says only
"sign-extended": the model's choice (log 53). -/
def VSrc.int (t : ElemType) : VSrc → Int
  | .bits n => intOf t n
  | .imm k => intOf t (intBits t k)

/-- As an exact value, tapered at scale 0. -/
def VSrc.val (t : ElemType) : VSrc → FV
  | .bits n => elemVal t 0 n
  | .imm k => if isInt t then FV.ofInt (intOf t (intBits t k)) else FV.ofInt k

/-- As stored bits: an immediate is rounded once under RM. -/
def VSrc.store (t : ElemType) (rm : RM) : VSrc → Nat
  | .bits n => n
  | .imm k => if isInt t then intBits t k else toElem t rm 0 (FV.ofInt k)

/-- The four operations of R220. -/
inductive ArOp where
  | add | sub | mul | mad
  deriving DecidableEq, Repr

/-- R220. -/
def arith (op : ArOp) (t : ElemType) (rm : RM) (md : Bool) (x : Nat) (y : VSrc) (z : Nat) : Nat :=
  if isInt t then
    let a := intOf t x
    let b := y.int t
    let v := match op with
      | .add => a + b
      | .sub => a - b
      | .mul => a * b
      | .mad => if md then intOf t z - a * b else a * b + intOf t z
    let w := 8 * esize t
    match op with
    | .add | .sub => if md then intBits t (clampTo t v) else intBits t v
    | .mul => if md then wrapInt w (v / 2 ^ w) else intBits t v
    | .mad => intBits t v
  else
    let a := elemVal t 0 x
    let b := y.val t
    let dn := rm == rdn && isFlt t
    let v := match op with
      | .add => FV.add dn a b
      | .sub => FV.add dn a b.neg
      | .mul => FV.mul a b
      | .mad => FV.add dn (if md then (FV.mul a b).neg else FV.mul a b) (elemVal t 0 z)
    toElem t rm 0 v

/-- The order of R91 between two values that are not NaN: −0 lies below +0. -/
def FV.below (a b : FV) : Bool :=
  let c := a.cmp b
  if c = 0 then
    (match a, b with
     | .zero true, .zero false => true
     | _, _ => false)
  else decide (c < 0)

/-- Minimum or maximum (R91, R221): the other operand for a NaN or NaR, the canonical one for two. -/
def minMax (hi : Bool) (t : ElemType) (rm : RM) (x : Nat) (y : VSrc) : Nat :=
  if isInt t then
    let a := intOf t x
    let b := y.int t
    intBits t (if hi then max a b else min a b)
  else
    let a := elemVal t 0 x
    let b := y.val t
    let xs := if t = .t6 then x % 64 else x
    let ys := match y with
      | .bits n => if t = .t6 then n % 64 else n
      | y => y.store t rm
    if a.isNan && b.isNan then toElem t rm 0 .nan
    else if a.isNan then ys
    else if b.isNan then xs
    else if hi then (if a.below b then ys else xs)
    else (if b.below a then ys else xs)

/-- VABS of R221. -/
def elemAbs (t : ElemType) (sat : Bool) (x : Nat) : Nat :=
  if isInt t then
    (if isSigned t then
      (let v := (intOf t x).natAbs
       if sat then intBits t (clampTo t v) else intBits t v)
     else x)
  else if isFlt t then
    (if (elemVal t 0 x).isNan then toElem t rne 0 .nan else x % 2 ^ (8 * esize t - 1))
  else
    let c := if t = .t6 then x % 64 else x
    if (elemVal t 0 c).isNan then c else c % 2 ^ tapN t

/-- VNEG of R221. -/
def elemNeg (t : ElemType) (sat : Bool) (x : Nat) : Nat :=
  if isInt t then
    (let v := -(intOf t x)
     if sat then intBits t (clampTo t v) else intBits t v)
  else if isFlt t then
    (if (elemVal t 0 x).isNan then toElem t rne 0 .nan
     else Nat.xor (x % 2 ^ (8 * esize t)) (2 ^ (8 * esize t - 1)))
  else
    let c := if t = .t6 then x % 64 else x
    match elemVal t 0 c with
    | .nan | .zero _ => c
    | _ => Nat.xor c (2 ^ tapN t)

/-- A compare of elements (R227): a NaN or NaR makes ne true and the others false. -/
def elemCmp (cc : Cond) (t : ElemType) (x : Nat) (y : VSrc) : Bool :=
  if isInt t then condInt cc (intOf t x) (y.int t)
  else
    let a := elemVal t 0 x
    let b := y.val t
    if a.isNan || b.isNan then decide (cc = .ne) else condInt cc (a.cmp b) 0

/-! ### Transcendentals (04 R108) -/

/-- A positive number floor(p) with a sticky bit for what lies below: p × 2^e to more bits than any rounding reads. -/
def stickyFin (neg : Bool) (p : Nat) (inexact : Bool) (e : Int) : FV :=
  let m : Int := (2 * p + inexact.toNat : Nat)
  FV.of (if neg then -m else m) (e - 1)

/-- 1 / x. -/
def recip (m : Int) (e : Int) : FV :=
  let a := m.natAbs
  let K := flog2 a + 32
  stickyFin (decide (m < 0)) (2 ^ K / a) (2 ^ K % a != 0) (-(K : Int) - e)

/-- Square root by Newton steps from above, `fuel` of them. -/
def isqrtGo (n : Nat) : Nat → Nat → Nat
  | 0, x => x
  | k + 1, x =>
    let y := (x + n / x) / 2
    if y < x then isqrtGo n k y else x

/-- Floor of the square root. -/
def isqrt (n : Nat) : Nat := if n = 0 then 0 else isqrtGo n (flog2 n + 4) (2 ^ (flog2 n / 2 + 1))

/-- 1 / √x for a positive x. -/
def rsqrt (m0 : Nat) (e0 : Int) : FV :=
  let m := if e0 % 2 = 0 then m0 else 2 * m0
  let e := if e0 % 2 = 0 then e0 else e0 - 1
  let K := flog2 m + 32
  let r := isqrt (2 ^ (2 * K) / m)
  stickyFin false r (r * r * m != 2 ^ (2 * K)) (-(K : Int) - e / 2)

/-- Fixed-point precision of the series below (log 10). -/
abbrev prec : Nat := 160

/-- 2^prec × Σ z^(2j+1)/(2j+1) from term j on, with t = z^(2j+1) and zz = z² in fixed point. -/
def atanhGo (zz : Nat) : Nat → Nat → Nat → Nat
  | 0, _, _ => 0
  | k + 1, j, t => t / (2 * j + 1) + atanhGo zz k (j + 1) (t * zz / 2 ^ prec)

/-- 2^prec × atanh(p / q). -/
def atanhFix (p q : Nat) : Nat :=
  let z := p * 2 ^ prec / q
  atanhGo (z * z / 2 ^ prec) 64 0 z

/-- 2^prec × ln 2. -/
def ln2Fix : Nat := 2 * atanhFix 1 3

/-- 2^prec × e^x by its series, t the term x^j / j!. -/
def expGo (x : Nat) : Nat → Nat → Nat → Nat
  | 0, _, _ => 0
  | k + 1, j, t => t + expGo x k (j + 1) (t * x / (2 ^ prec * (j + 1)))

/-- 2^x: exact for an integer x, otherwise from the series, which is never exact. -/
def exp2 (m e : Int) : FV :=
  if 0 ≤ e then
    let v := m * 2 ^ (min e.toNat 16)
    .fin 1 (max (-400) (min 400 v))
  else
    let k := (-e).toNat
    let n := m / 2 ^ k
    let f := (m % 2 ^ k).toNat
    let n' := max (-400) (min 400 n)
    if f = 0 then .fin 1 n'
    else stickyFin false (expGo (f * ln2Fix / 2 ^ k) 64 0 (2 ^ prec)) true (n' - prec)

/-- log2 of a positive a × 2^e. -/
def log2v (a : Nat) (e : Int) : FV :=
  let L := flog2 a
  let E : Int := (L : Int) + e
  if a = 2 ^ L then FV.ofInt E
  else
    let fr := 2 * atanhFix (a - 2 ^ L) (a + 2 ^ L) * 2 ^ prec / ln2Fix
    let v : Int := E * 2 ^ prec + fr
    stickyFin (decide (v < 0)) v.natAbs true (-(prec : Int))

/-- The four functions. -/
inductive TrOp where
  | rcp | rsq | exp2 | log2
  deriving DecidableEq, Repr

/-- R108 with Table 4.8, as an exact or sticky value before its single rounding to bf16. -/
def trans (op : TrOp) (x : FV) : FV :=
  match op, x with
  | _, .nan => .nan
  | .exp2, .zero _ => .fin 1 0
  | .exp2, .inf s => if s then .zero false else .inf false
  | .exp2, .fin m e => exp2 m e
  | .log2, .zero _ => .inf true
  | .log2, .inf s => if s then .nan else .inf false
  | .log2, .fin m e => if m < 0 then .nan else log2v m.natAbs e
  | .rcp, .zero s => .inf s
  | .rcp, .inf s => .zero s
  | .rcp, .fin m e => recip m e
  | .rsq, .zero s => .inf s
  | .rsq, .inf s => if s then .nan else .zero false
  | .rsq, .fin m e => if m < 0 then .nan else rsqrt m.natAbs e

/-- The element that R226 stores: the bf16 result, for f32 with sixteen zero bits below. -/
def transElem (op : TrOp) (t : ElemType) (x : Nat) : Nat :=
  let r := roundIeee 7 rne (trans op (elemVal t 0 x))
  if t = .f32 then r * 65536 else r

/-! ### Reductions and scans (04 R109, R110) -/

/-- The operation of a reduction. -/
inductive RedOp where
  | sum | max | min
  deriving DecidableEq, Repr

def redApply (op : RedOp) (t : ElemType) (rm : RM) (a b : Nat) : Nat :=
  match op with
  | .sum => arith .add t rm false a (.bits b) 0
  | .max => minMax true t rm a (.bits b)
  | .min => minMax false t rm a (.bits b)

/-- Combine of R109; none is Absent. -/
def combine (op : RedOp) (t : ElemType) (rm : RM) : Option Nat → Option Nat → Option Nat
  | none, b => b
  | a, none => a
  | some a, some b => some (redApply op t rm a b)

def redIdentity (op : RedOp) (t : ElemType) : Nat :=
  match op with
  | .sum => 0
  | .max => if isInt t then intBits t (typeMin t) else toElem t rne 0 (.inf true)
  | .min => if isInt t then intBits t (typeMax t) else toElem t rne 0 (.inf false)

/-- One level of the tree: neighbours combined. -/
def pairUp (op : RedOp) (t : ElemType) (rm : RM) : List (Option Nat) → List (Option Nat)
  | a :: b :: l => combine op t rm a b :: pairUp op t rm l
  | l => l

/-- The tree, `fuel` levels. -/
def treeReduce (op : RedOp) (t : ElemType) (rm : RM) : Nat → List (Option Nat) → Option Nat
  | _, [] => none
  | _, [a] => a
  | 0, a :: _ => a
  | k + 1, l => treeReduce op t rm k (pairUp op t rm l)

/-- One step of the scan at distance d. -/
def scanStep (op : RedOp) (t : ElemType) (rm : RM) (d : Nat) (y : List (Option Nat)) : List (Option Nat) :=
  y.take d ++ ((y.drop d).zip y).map (fun e => combine op t rm e.2 e.1)

/-- The scan from distance d on, doubling. -/
def scanGo (op : RedOp) (t : ElemType) (rm : RM) : Nat → Nat → List (Option Nat) → List (Option Nat)
  | 0, _, y => y
  | k + 1, d, y => if d < y.length then scanGo op t rm k (2 * d) (scanStep op t rm d y) else y

end Sys2Proof.Machine
end

