-- ==== Sys2Proof/Machine/Temper.lean ====
section
/-! DEFINITION. FP32 arithmetic of factored tiles and the tempering of 04 R104 to R107. -/
namespace Sys2Proof.Machine
open Sys2Proof

/-- The exact value of an FP32 pattern. -/
def f32v (n : Nat) : FV := decodeIeee 23 n

/-- RoundF32 (R106), as a pattern. -/
def f32r (v : FV) : Nat := roundIeee 23 rne v

/-- An exact real: a zero sum carries no sign. -/
def FV.real : FV → FV
  | .zero _ => .zero false
  | v => v

/-- The exact sum of products. -/
def exactDot (xs ys : List FV) : FV := ((xs.zipWith FV.mul ys).foldl (FV.add false) (.zero false)).real

/-- Dot of R106 on FP32 patterns. -/
def dot32 (xs ys : List Nat) : Nat := f32r (exactDot (xs.map f32v) (ys.map f32v))

/-- A quotient to more bits than any rounding reads. -/
def FV.div (a b : FV) : FV :=
  match a, b with
  | .nan, _ | _, .nan => .nan
  | .inf _, .inf _ | .zero _, .zero _ => .nan
  | .inf s, y => .inf (s != y.isNeg)
  | x, .inf t => .zero (x.isNeg != t)
  | .zero s, y => .zero (s != y.isNeg)
  | x, .zero t => .inf (x.isNeg != t)
  | .fin m e, .fin n f =>
    let K := flog2 n.natAbs + 64
    let p := m.natAbs * 2 ^ K
    stickyFin (decide (m < 0) != decide (n < 0)) (p / n.natAbs) (p % n.natAbs != 0) (e - f - K)

/-- A square root to more bits than any rounding reads. -/
def FV.sqrt (a : FV) : FV :=
  match a with
  | .fin m e =>
    if m < 0 then .nan
    else
      let m1 := if e % 2 = 0 then m.natAbs else 2 * m.natAbs
      let e1 := if e % 2 = 0 then e else e - 1
      let p := m1 * 2 ^ 80
      let r := isqrt p
      stickyFin false r (r * r != p) (e1 / 2 - 40)
  | .inf s => if s then .nan else .inf false
  | v => v

/-- A value computed in Temper: rounded to FP32, none where it is NaN or infinite (R107). -/
def keep32 (v : FV) : Option FV :=
  match f32v (f32r v) with
  | .nan | .inf _ => none
  | w => some w

def tdot (xs ys : List FV) : Option FV := keep32 (exactDot xs ys)
def tnorm (xs : List FV) : Option FV := keep32 (exactDot xs xs).sqrt

/-- One pass of modified Gram-Schmidt over the columns of Q, with the entries of R so far. -/
def orthPass : List (List FV) → List FV → List FV → Option (List FV × List FV)
  | q :: qs, r :: rs, w => do
    let g ← tdot q w
    let r' ← keep32 (FV.add false r g)
    let w' ← (q.zip w).mapM (fun e => keep32 (FV.add false (FV.mul g.neg e.1) e.2))
    let t ← orthPass qs rs w'
    pure (r' :: t.1, t.2)
  | _, _, w => some ([], w)

/-- Orth on columns: the columns of Q and, for each, its column of R without the zeros below. -/
def orthGo : List (List FV) → List (List FV) → List (List FV) → Option (List (List FV) × List (List FV))
  | [], q, r => some (q, r)
  | y :: ys, q, r => do
    let p0 ← orthPass q (q.map (fun _ => .zero false)) y
    let p1 ← orthPass q p0.1 p0.2
    let n ← tnorm p1.2
    let col ← p1.2.mapM (fun w => if n.cmp (.zero false) = 0 then some (.zero false) else keep32 (w.div n))
    orthGo ys (q ++ [col]) (r ++ [p1.1 ++ [n]])

/-- Row `a` of an upper triangular R of `k` columns. -/
def rRow (r : List (List FV)) (a : Nat) : List FV := r.map (fun c => c.getD a (.zero false))

/-- One rotation of columns p and q of W and Z (R106), and whether it rotated. -/
def jacobiPair (wz : List (List FV) × List (List FV)) (p q : Nat) : Option ((List (List FV) × List (List FV)) × Bool) := do
  let wp := wz.1.getD p []
  let wq := wz.1.getD q []
  let al ← tdot wp wp
  let be ← tdot wq wq
  let ga ← tdot wp wq
  let th ← keep32 (FV.mul al be)
  let th ← keep32 th.sqrt
  let th ← keep32 (FV.mul (.fin 1 (-23)) th)
  if (if ga.isNeg then ga.neg else ga).cmp th ≤ 0 then pure (wz, false)
  else
    let d ← keep32 (FV.add false be al.neg)
    let h ← keep32 (FV.mul (.fin 2 0) ga)
    let ze ← keep32 (d.div h)
    let y ← keep32 (FV.add false (FV.mul ze ze) (.fin 1 0))
    let y ← keep32 y.sqrt
    let y ← keep32 (FV.add false (if ze.isNeg then ze.neg else ze) y)
    let tn ← keep32 (FV.div (.fin 1 0) y)
    let tn := if ze.cmp (.zero false) < 0 then tn.neg else tn
    let y ← keep32 (FV.add false (FV.mul tn tn) (.fin 1 0))
    let y ← keep32 y.sqrt
    let cs ← keep32 (FV.div (.fin 1 0) y)
    let sn ← keep32 (FV.mul cs tn)
    let turn (m : List (List FV)) : Option (List (List FV)) := do
      let a := m.getD p []
      let b := m.getD q []
      let a' ← (a.zip b).mapM (fun e => tdot [cs, sn.neg] [e.1, e.2])
      let b' ← (a.zip b).mapM (fun e => tdot [sn, cs] [e.1, e.2])
      pure ((m.set p a').set q b')
    let w ← turn wz.1
    let z ← turn wz.2
    pure ((w, z), true)

/-- The pairs of one sweep over k columns. -/
def sweepPairs (k : Nat) : List (Nat × Nat) :=
  (List.range k).flatMap (fun p => ((List.range k).filter (fun q => p < q)).map (fun q => (p, q)))

/-- One sweep. -/
def sweepGo : List (Nat × Nat) → List (List FV) × List (List FV) → Bool → Option ((List (List FV) × List (List FV)) × Bool)
  | [], wz, b => some (wz, b)
  | pq :: l, wz, b => do
    let r ← jacobiPair wz pq.1 pq.2
    sweepGo l r.1 (b || r.2)

/-- Jacobi: at most `fuel` sweeps; the number performed, and W and Z unless a value was not finite. -/
def jacobiGo (k : Nat) : Nat → Nat → List (List FV) × List (List FV) → Nat × Option (List (List FV) × List (List FV))
  | 0, n, wz => (n, some wz)
  | f + 1, n, wz =>
    match sweepGo (sweepPairs k) wz false with
    | none => (n + 1, none)
    | some (r, rotated) => if rotated then jacobiGo k f (n + 1) r else (n + 1, some r)

/-- Inserts an index before the first of smaller norm: descending, ties keep the lower index first. -/
def insertDesc (e : FV × Nat) : List (FV × Nat) → List (FV × Nat)
  | [] => [e]
  | a :: l => if a.1.cmp e.1 < 0 then e :: a :: l else a :: insertDesc e l

/-- The least r from `r` on whose discarded tail is at most tau. -/
def keptRank (tau : FV) : List FV → Nat → Option Nat
  | [], r => some r
  | g :: gs, r => do
    let n ← tnorm (g :: gs)
    if n.cmp tau ≤ 0 then pure r else keptRank tau gs (r + 1)

/-- Temper after Jacobi: the kept components. A threshold of +∞ given by TOL.ABS or KABS is not a value that Temper computes, so it keeps
nothing rather than leave the source; R107 does not say: the model's choice (log 51). -/
def temperTail (abs rel : FV) (qu qv w z : List (List FV)) : Option (List (List FV × List FV)) := do
  let k := w.length
  let norms ← w.mapM tnorm
  let order := (norms.zipIdx.foldl (fun l e => insertDesc e l) []).map Prod.snd
  let w := order.map (fun i => w.getD i [])
  let z := order.map (fun i => z.getD i [])
  let sg ← w.mapM tnorm
  let tau ← keep32 (FV.mul rel (sg.getD 0 (.zero false)))
  let tau := if tau.cmp abs < 0 then abs else tau
  let r ← keptRank tau sg 0
  (List.range (min r k)).mapM (fun l => do
    let u ← (List.range 64).mapM (fun t => tdot (qu.map (fun c => c.getD t (.zero false))) (w.getD l []))
    let v ← (List.range 64).mapM (fun t => tdot (qv.map (fun c => c.getD t (.zero false))) (z.getD l []))
    pure (u, v))

/-- A factored tile of one member: its components, each a U column and a V column of FP32 patterns (R104). -/
abbrev Comps := List (List Nat × List Nat)

/-- R106 with R107: sweeps performed, at least one, and the result. -/
def temper (abs rel : Nat) (cs : Comps) : Nat × Comps :=
  let us := cs.map (fun c => c.1.map f32v)
  let vs := cs.map (fun c => c.2.map f32v)
  let fin (v : FV) : Bool :=
    match v with
    | .nan | .inf _ => false
    | _ => true
  if !(us.all (fun c => c.all fin) && vs.all (fun c => c.all fin)) then (1, cs)
  else
    match orthGo us [] [], orthGo vs [] [] with
    | some (qu, ru), some (qv, rv) =>
      let k := cs.length
      let C : Option (List (List FV)) := (List.range k).mapM (fun b => (List.range k).mapM (fun a => tdot (rRow ru a) (rRow rv b)))
      match C with
      | none => (1, cs)
      | some w0 =>
        let z0 := (List.range k).map (fun j => (List.range k).map (fun i => if i = j then FV.fin 1 0 else .zero false))
        if k = 0 then (1, cs)
        else
          let jr := jacobiGo k 8 0 (w0, z0)
          match jr.2 with
          | none => (jr.1, cs)
          | some (w, z) =>
            match temperTail (f32v abs) (f32v rel) qu qv w z with
            | none => (jr.1, cs)
            | some out => (jr.1, out.map (fun e => (e.1.map f32r, e.2.map f32r)))
    | _, _ => (1, cs)

/-- Element (i, j) of a factored tile as an exact value, NaN where any value it takes is not finite (R104, R259, R261). -/
def factoredElem (cs : Comps) (i j : Nat) : FV :=
  let us := cs.map (fun c => f32v (c.1.getD i 0))
  let vs := cs.map (fun c => f32v (c.2.getD j 0))
  let bad (v : FV) : Bool :=
    match v with
    | .nan | .inf _ => true
    | _ => false
  if us.any bad || vs.any bad then .nan else exactDot us vs

/-- LRMUL's product (10 R256). -/
def lrMul (a b : Comps) : Comps :=
  let row (cols : List (List Nat)) (i : Nat) : List Nat := cols.map (fun c => c.getD i 0)
  if a.isEmpty || b.isEmpty then []
  else
    let C := a.map (fun x => b.map (fun y => dot32 x.2 y.1))
    if a.length ≤ b.length then
      (a.zip C).map (fun e => (e.1.1, (List.range 64).map (fun j => dot32 (row (b.map Prod.snd) j) e.2)))
    else
      b.zipIdx.map (fun e => ((List.range 64).map (fun i => dot32 (row (a.map Prod.fst) i) (C.map (fun r => r.getD e.2 0))), e.1.2))

/-- The negated pattern. -/
def neg32 (n : Nat) : Nat := Nat.xor (n % 2 ^ 32) (2 ^ 31)

/-- LRADD's concatenation (10 R257). -/
def lrAdd (sub : Bool) (a b : Comps) : Comps := a ++ b.map (fun c => (if sub then c.1.map neg32 else c.1, c.2))

end Sys2Proof.Machine
end

