-- ==== Sys2Proof/Config.lean ====
section
/-! DEFINITION. What the spec leaves open as a value: opaque constants, of which nothing can be proved. -/
namespace Sys2Proof.Config

/-- A byte whose value the spec leaves undefined: weight-store bytes after an uncorrectable source error (15 R317), and
bytes of a signature (17 R367). Applied to State's free-value counter and to
a position (log 12). -/
opaque freeByte : Nat → Nat → Byte

/-- The digest of the boot ROM, byte by byte: one ROM, so one digest (17 R367; log 13). -/
opaque romDigest : Nat → Byte

/-- The digest, byte by byte, of the firmware image that was in a slot with a version and a security version before any update: the same
image has one digest (17 R367; log 13). -/
opaque imageDigest : Nat → Nat → Nat → Nat → Byte

/-- The length and the bytes of the certificate chain for the digest of the booted firmware, from which its alias key is derived (17
R367; log 13). -/
opaque chainLength : List Byte → BitVec 16
opaque chainByte : List Byte → Nat → Byte

/-- Whether a bf16 immediate of VWADD and VWMAD is the exact integer (07 R170) or is rounded into bf16 first (09 R223: "converted to T,
then widened"): the two rules disagree and 90_conflicts.md names neither (log 53). -/
opaque exactWideImm : Bool

end Sys2Proof.Config
end

