-- ==== Sys2Proof/Machine/Vector.lean ====
section
/-! DEFINITION. The vector slots V0 and V1 (09 Table 9.1). -/
namespace Sys2Proof.Machine
open Sys2Proof

/-! ### Elements, guards and operands (R217) -/

/-- Elements of `b` bytes in a vector of the core. -/
def Core.nElems (c : Core) (b : Nat) : Nat := 256 * c.g / b

/-- Enabled elements of `b` bytes, in rising order. -/
def Core.enabledElems (c : Core) (h : Head) (b : Nat) : List Nat :=
  (List.range (c.nElems b)).filter (fun e => c.enabledAt h (e * b))

/-- A slot evaluated element by element: with no element enabled it is suppressed (03 R74). -/
def vissue (h : Head) (es : List Nat) (s : State) (body : SlotRes) : Host.Outcome State Fault Refusal :=
  if es.isEmpty then .next s else settle (vslot h) s body

/-- The bytes of element values, by position in the vector. -/
def elemBytes (b : Nat) (vals : List (Nat × Nat)) : List (Nat × Byte) :=
  vals.flatMap (fun e => (leBytes b e.2).zipIdx.map (fun q => (e.1 * b + q.2, q.1)))

/-- Element `e` of `b` bytes of a register at `addr`. -/
def Core.velem (c : Core) (addr b e : Nat) : Nat := c.vnum addr (e * b) b

/-- a10 read signed. -/
def a10 (b : BitVec 10) : Int := b.toInt

/-- A vector operand: its address and whether a byte of it is slow. -/
def slowAt (addr : Nat) : Bool := inSlow addr 256

/-- The extra latency of slow sources (03 R72). -/
def slowLat (slow : Bool) : Nat := if slow then 4 else 0

/-- log2 G. -/
def Core.lg (c : Core) : Nat := if c.g = 4 then 2 else if c.g = 2 then 1 else 0

/-- A vector register result. -/
def vResult (h : Head) (s : State) (lat : Nat) (daddr : Nat) (bytes : List (Nat × Byte)) : SlotRes :=
  .ok { s with core := s.core.push (vslot h) lat (.v daddr bytes) }

/-- The operand b of an element: register element or immediate. -/
def Core.vsrc (c : Core) (o : VR) (baddr b e : Nat) : VSrc := if o.i then .imm (a10 o.b) else .bits (c.velem baddr b e)

/-- An elementwise instruction: `legal` are the type's conditions of Table 9.1, `readsD` that the destination is a source,
`unary` that there is no operand b; the function gets x, y and the old element. -/
def elementwise (i : Instr) (h : Head) (o : VR) (lat : Nat) (legal readsD unary : Bool) (s : State)
    (f : Nat → VSrc → Nat → Nat) : Host.Outcome State Fault Refusal :=
  let c := s.core
  let b := esize o.ty
  let es := c.enabledElems h b
  vissue h es s (
    if !legal then .illop i
    else match c.vaddr o.d, c.vaddr o.a, (if o.i || unary then some 0 else c.vaddr o.b) with
      | some da, some aa, some ba =>
        let slow := slowAt aa || (!o.i && !unary && slowAt ba) || (readsD && slowAt da)
        vResult h s (lat + slowLat slow) da
          (elemBytes b (es.map (fun e => (e, f (c.velem aa b e) (c.vsrc o ba b e) (c.velem da b e)))))
      | _, _, _ => .illop i)

/-- I allowed for integers and floats only. -/
def immArith (o : VR) : Bool := !(o.i && isTap o.ty)
/-- The latency of an arithmetic class. -/
def arLat (t : ElemType) (int flt : Nat) : Nat := if isInt t then int else flt

/-- VNOP: no effect (R217). -/
def execVnop (h : Head) (s : State) : Host.Outcome State Fault Refusal :=
  vissue h [] s (.ok s)

/-- VADD (R220). -/
def execVadd (h : Head) (o : VR) (s : State) : Host.Outcome State Fault Refusal :=
  elementwise (.vadd h o) h o (arLat o.ty 2 4) (immArith o && (!o.md || isInt o.ty)) false false s
    (fun x y z => arith .add o.ty (fmtRm s.core.ctl.fmt) o.md x y z)

/-- VSUB (R220). -/
def execVsub (h : Head) (o : VR) (s : State) : Host.Outcome State Fault Refusal :=
  elementwise (.vsub h o) h o (arLat o.ty 2 4) (immArith o && (!o.md || isInt o.ty)) false false s
    (fun x y z => arith .sub o.ty (fmtRm s.core.ctl.fmt) o.md x y z)

/-- VMUL (R220). -/
def execVmul (h : Head) (o : VR) (s : State) : Host.Outcome State Fault Refusal :=
  elementwise (.vmul h o) h o (arLat o.ty 3 4) (immArith o && (!o.md || isInt o.ty)) false false s
    (fun x y z => arith .mul o.ty (fmtRm s.core.ctl.fmt) o.md x y z)

/-- VMAD (R220): the destination is a source. -/
def execVmad (h : Head) (o : VR) (s : State) : Host.Outcome State Fault Refusal :=
  elementwise (.vmad h o) h o (arLat o.ty 3 4) (immArith o) true false s
    (fun x y z => arith .mad o.ty (fmtRm s.core.ctl.fmt) o.md x y z)

/-- VMIN (R221). -/
def execVmin (h : Head) (o : VR) (s : State) : Host.Outcome State Fault Refusal :=
  elementwise (.vmin h o) h o 2 (immArith o) false false s (fun x y _ => minMax false o.ty (fmtRm s.core.ctl.fmt) x y)

/-- VMAX (R221). -/
def execVmax (h : Head) (o : VR) (s : State) : Host.Outcome State Fault Refusal :=
  elementwise (.vmax h o) h o 2 (immArith o) false false s (fun x y _ => minMax true o.ty (fmtRm s.core.ctl.fmt) x y)

/-- VABS (R221). -/
def execVabs (h : Head) (o : VR) (s : State) : Host.Outcome State Fault Refusal :=
  elementwise (.vabs h o) h o 2 (!o.md || isInt o.ty) false true s (fun x _ _ => elemAbs o.ty o.md x)

/-- VNEG (R221). -/
def execVneg (h : Head) (o : VR) (s : State) : Host.Outcome State Fault Refusal :=
  elementwise (.vneg h o) h o 2 (!o.md || isInt o.ty) false true s (fun x _ _ => elemNeg o.ty o.md x)

/-- Operand b of a bit instruction as bits of the type (R222). -/
def VSrc.raw (t : ElemType) : VSrc → Nat
  | .bits n => n
  | .imm k => intBits t k

/-- The complement of an element. -/
def elemNot (t : ElemType) (x : Nat) : Nat := 2 ^ (8 * esize t) - 1 - x

/-- VAND (R222). -/
def execVand (h : Head) (o : VR) (s : State) : Host.Outcome State Fault Refusal :=
  elementwise (.vand h o) h o 2 (isInt o.ty) false false s
    (fun x y _ => Nat.land x (if o.md then elemNot o.ty (y.raw o.ty) else y.raw o.ty))

/-- VOR (R222). -/
def execVor (h : Head) (o : VR) (s : State) : Host.Outcome State Fault Refusal :=
  elementwise (.vor h o) h o 2 (isInt o.ty) false false s
    (fun x y _ => Nat.lor x (if o.md then elemNot o.ty (y.raw o.ty) else y.raw o.ty))

/-- VXOR (R222). -/
def execVxor (h : Head) (o : VR) (s : State) : Host.Outcome State Fault Refusal :=
  elementwise (.vxor h o) h o 2 (isInt o.ty) false false s
    (fun x y _ => Nat.xor x (if o.md then elemNot o.ty (y.raw o.ty) else y.raw o.ty))

/-- VSHL (R222): by y mod w. -/
def execVshl (h : Head) (o : VR) (s : State) : Host.Outcome State Fault Refusal :=
  elementwise (.vshl h o) h o 2 (isInt o.ty) false false s
    (fun x y _ => x * 2 ^ (y.raw o.ty % (8 * esize o.ty)) % 2 ^ (8 * esize o.ty))

/-- VSHR (R222): logical. -/
def execVshr (h : Head) (o : VR) (s : State) : Host.Outcome State Fault Refusal :=
  elementwise (.vshr h o) h o 2 (isInt o.ty) false false s (fun x y _ => x / 2 ^ (y.raw o.ty % (8 * esize o.ty)))

/-- VSHRA (R222): arithmetic, whatever the signedness. -/
def execVshra (h : Head) (o : VR) (s : State) : Host.Outcome State Fault Refusal :=
  elementwise (.vshra h o) h o 2 (isInt o.ty) false false s
    (fun x y _ => wrapInt (8 * esize o.ty) (toS (8 * esize o.ty) x / 2 ^ (y.raw o.ty % (8 * esize o.ty))))

/-- VCLZ (R222). -/
def execVclz (h : Head) (o : VR) (s : State) : Host.Outcome State Fault Refusal :=
  elementwise (.vclz h o) h o 2 (isInt o.ty) false true s (fun x _ _ => leadZeros (8 * esize o.ty) x)

/-- VPOPC (R222). -/
def execVpopc (h : Head) (o : VR) (s : State) : Host.Outcome State Fault Refusal :=
  elementwise (.vpopc h o) h o 2 (isInt o.ty) false true s (fun x _ _ => popCount (8 * esize o.ty) x)

/-! ### Widening and narrowing (R223, R224) -/

/-- The wide type of a widening instruction, and the narrow type of VSAT. -/
def wideOf : ElemType → Option ElemType
  | .s8 => some .s16 | .s16 => some .s32 | .s32 => some .s64
  | .z8 => some .z16 | .z16 => some .z32 | .z32 => some .z64 | .bf16 => some .f32
  | _ => none

def halfOf : ElemType → Option ElemType
  | .s16 => some .s8 | .s32 => some .s16 | .s64 => some .s32
  | .z16 => some .z8 | .z32 => some .z16 | .z64 => some .z32
  | _ => none

/-- X + Y, or X · Y + d with one rounding, in the wide type. 07 R170 and R223 differ on an immediate of a bf16 form
that bf16 does not hold, and the value stays open (log 53). -/
def widen (mad : Bool) (t w : ElemType) (rm : RM) (x : Nat) (y : VSrc) (z : Nat) : Nat :=
  if isInt t then
    let a := intOf t x
    let b := y.int t
    intBits w (if mad then a * b + intOf w z else a + b)
  else
    let a := elemVal t 0 x
    let b := if Config.exactWideImm then y.val t else elemVal t 0 (y.store t rm)
    let dn := rm == rdn
    toElem w rm 0 (if mad then FV.add dn (FV.mul a b) (elemVal w 0 z) else FV.add dn a b)

/-- VWADD and VWMAD: destination element i of a member takes source element H · (128 / b) + i of that member. -/
def widening (i : Instr) (h : Head) (o : VR) (mad : Bool) (s : State) : Host.Outcome State Fault Refusal :=
  let c := s.core
  let b := esize o.ty
  let es := c.enabledElems h (2 * b)
  vissue h es s (
    match wideOf o.ty, c.vaddr o.d, c.vaddr o.a, (if o.i then some 0 else c.vaddr o.b) with
    | some w, some da, some aa, some ba =>
      let slow := slowAt aa || (!o.i && slowAt ba) || (mad && slowAt da)
      let per := 128 / b
      vResult h s ((if isInt o.ty then (if mad then 3 else 2) else 4) + slowLat slow) da
        (elemBytes (2 * b) (es.map (fun e =>
          let j := e / per * (2 * per) + (if o.md then per else 0) + e % per
          (e, widen mad o.ty w (fmtRm c.ctl.fmt) (c.velem aa b j) (c.vsrc o ba b j) (c.velem da (2 * b) e)))))
    | _, _, _, _ => .illop i)

/-- VWADD (R223). -/
def execVwadd (h : Head) (o : VR) (s : State) : Host.Outcome State Fault Refusal :=
  widening (.vwadd h o) h o false s

/-- VWMAD (R223): the destination is a source. -/
def execVwmad (h : Head) (o : VR) (s : State) : Host.Outcome State Fault Refusal :=
  widening (.vwmad h o) h o true s

/-- VSAT (R224): each source element narrows into the half of the member that mod names. A 1-byte type, which Table 9.1 does not admit, has no
narrow element: whether the slot is enabled, so that it is ILLOP, is decided by the guard at any byte, the model's choice (log 58). -/
def execVsat (h : Head) (o : VR) (s : State) : Host.Outcome State Fault Refusal :=
  let c := s.core
  let b := esize o.ty
  let hb := b / 2
  let per := 256 / b
  let dests := (List.range (c.nElems b)).map (fun e => e / per * (2 * per) + (if o.md then per else 0) + e % per)
  let es := dests.filter (fun e => c.enabledAt h (e * hb))
  let body : SlotRes :=
    match halfOf o.ty, c.vaddr o.d, c.vaddr o.a, (if o.i then some 0 else c.vaddr o.b) with
    | some t, some da, some aa, some ba =>
      let slow := slowAt aa || (!o.i && slowAt ba) || slowAt da
      vResult h s (2 + slowLat slow) da (elemBytes hb (es.map (fun e =>
        let j := e / (2 * per) * per + e % per
        (e, intBits t (clampTo t (halfEven (intOf o.ty (c.velem aa b j)) ((c.vsrc o ba b j).raw o.ty % (8 * b))))))))
    | _, _, _, _ => .illop (.vsat h o)
  if hb = 0 then vissue h (c.enabledElems h 1) s (.illop (.vsat h o)) else vissue h es s body

/-- Destination elements of a VCVT and the source element of each (R225). -/
def cvtPairs (g bs bd p : Nat) : List (Nat × Nat) :=
  if bs ≤ bd then
    let per := 256 / bd
    (List.range (g * per)).map (fun e => (e, e / per * (256 / bs) + p * per + e % per))
  else
    let per := 256 / bs
    (List.range (g * per)).map (fun e => (e / per * (256 / bd) + p * per + e % per, e))

/-- VCVT (R225): one rounding under the FMT captured at issue; a part outside the ratio is ILLOP. Such a part has no destination element, and
whether the slot is enabled is decided by the guard at any element of the destination width, the model's choice (log 58). -/
def execVcvt (h : Head) (o : VR) (s : State) : Host.Outcome State Fault Refusal :=
  let c := s.core
  let p := (o.b.extractLsb' 7 3).toNat
  let dt := fmtType (o.b.extractLsb' 0 4).toNat
  let bs := esize o.ty
  let bd := esize dt
  let q := if bs ≤ bd then bd / bs else bs / bd
  if q ≤ p then vissue h (c.enabledElems h bd) s (.illop (.vcvt h o))
  else
    let prs := (cvtPairs c.g bs bd p).filter (fun e => c.enabledAt h (e.1 * bd))
    vissue h (prs.map Prod.fst) s (
      match c.vaddr o.d, c.vaddr o.a with
      | some da, some aa =>
        vResult h s (3 + slowLat (slowAt aa || slowAt da)) da
          (elemBytes bd (prs.map (fun e => (e.1, convert c.ctl.fmt o.ty dt (c.velem aa bs e.2)))))
      | _, _ => .illop (.vcvt h o))

/-- VRCP (R226, R108). -/
def execVrcp (h : Head) (o : VR) (s : State) : Host.Outcome State Fault Refusal :=
  elementwise (.vrcp h o) h o 6 (isFlt o.ty) false true s (fun x _ _ => transElem .rcp o.ty x)

/-- VRSQ (R226, R108). -/
def execVrsq (h : Head) (o : VR) (s : State) : Host.Outcome State Fault Refusal :=
  elementwise (.vrsq h o) h o 6 (isFlt o.ty) false true s (fun x _ _ => transElem .rsq o.ty x)

/-- VEXP2 (R226, R108). -/
def execVexp2 (h : Head) (o : VR) (s : State) : Host.Outcome State Fault Refusal :=
  elementwise (.vexp2 h o) h o 6 (isFlt o.ty) false true s (fun x _ _ => transElem .exp2 o.ty x)

/-- VLOG2 (R226, R108). -/
def execVlog2 (h : Head) (o : VR) (s : State) : Host.Outcome State Fault Refusal :=
  elementwise (.vlog2 h o) h o 6 (isFlt o.ty) false true s (fun x _ _ => transElem .log2 o.ty x)

/-! ### Predicates (R227 to R229) -/

/-- The mask of the byte positions of elements, by member slice. -/
def elemMask (b : Nat) (es : List Nat) : Vector (BitVec 256) 4 :=
  Vector.ofFn (fun (g : Fin 4) => es.foldl (fun m e =>
    if e * b / 256 = g.val then m ||| (BitVec.ofNat 256 ((2 ^ b - 1) * 2 ^ (e * b % 256))) else m) 0)

/-- VCMP (R227; 03 R78). -/
def execVcmp (h : Head) (o : VC) (s : State) : Host.Outcome State Fault Refusal :=
  let c := s.core
  let b := esize o.ty
  let es := c.enabledElems h b
  vissue h es s (
    if (o.i && isTap o.ty) || (o.pt == o.pf && o.pt != 0) then .illop (.vcmp h o)
    else match c.vaddr o.a, (if o.i then some 0 else c.vaddr o.b) with
      | some aa, some ba =>
        let t := es.filter (fun e =>
          elemCmp o.cc o.ty (c.velem aa b e) (if o.i then .imm (a10 o.b) else .bits (c.velem ba b e)))
        let m := elemMask b es
        let vt := elemMask b t
        let lat := 1 + slowLat (slowAt aa || (!o.i && slowAt ba))
        let vf : Vector (BitVec 256) 4 := Vector.ofFn (fun (g : Fin 4) => (vget m g.val 0) &&& ~~~(vget vt g.val 0))
        .ok { s with core := (c.push (vslot h) lat (.p o.pt m vt)).push (vslot h) lat (.p o.pf m vf) }
      | _, _ => .illop (.vcmp h o))

/-- VPSET (R228): from the element's bits, or from a10; bits [7:6] of a t6 byte are ignored (04 R89). -/
def execVpset (h : Head) (o : VR) (s : State) : Host.Outcome State Fault Refusal :=
  let c := s.core
  let b := esize o.ty
  let es := c.enabledElems h b
  vissue h es s (
    match (if o.i then some 0 else c.vaddr o.a) with
    | some aa =>
      let t := es.filter (fun e => if o.i then o.b != 0 else (if o.ty = .t6 then c.velem aa b e % 64 else c.velem aa b e) != 0)
      .ok { s with core := c.push (vslot h) (1 + slowLat (!o.i && slowAt aa)) (.p (o.d.extractLsb' 0 4) (elemMask b es) (elemMask b t)) }
    | none => .illop (.vpset h o))

/-- Enabled elements whose bit of p[a] is 1 (R229). -/
def Core.countP (c : Core) (o : VR) (es : List Nat) : Nat :=
  (es.filter (fun e => c.pbit (o.a.extractLsb' 0 4) (e * esize o.ty))).length

/-- VPCNT (R229). -/
def execVpcnt (h : Head) (o : VR) (s : State) : Host.Outcome State Fault Refusal :=
  let es := s.core.enabledElems h (esize o.ty)
  vissue h es s (.ok { s with core := s.core.push (vslot h) 2 (.x (o.d.extractLsb' 0 6) (BitVec.ofNat 64 (s.core.countP o es))) })

/-- VPANY (R229). -/
def execVpany (h : Head) (o : VR) (s : State) : Host.Outcome State Fault Refusal :=
  let es := s.core.enabledElems h (esize o.ty)
  let r : FReg := o.d.extractLsb' 0 4
  vissue h es s (.ok { s with core := s.core.push (vslot h) 1 (.f (fmask r) (fval r (s.core.countP o es != 0))) })

/-! ### Reductions, scans and lane moves (R230 to R234) -/

/-- The elements of a register, Absent where suppressed. -/
def Core.maybeElems (c : Core) (aa b : Nat) (es : List Nat) : List (Option Nat) :=
  (List.range (c.nElems b)).map (fun e => if es.contains e then some (c.velem aa b e) else none)

/-- A reduction (R230): every enabled element receives the result. -/
def reduction (i : Instr) (h : Head) (o : VR) (op : RedOp) (lat : Nat) (s : State) : Host.Outcome State Fault Refusal :=
  let c := s.core
  let b := esize o.ty
  let es := c.enabledElems h b
  vissue h es s (
    if isTap o.ty then .illop i
    else match c.vaddr o.d, c.vaddr o.a with
      | some da, some aa =>
        let r := (treeReduce op o.ty (fmtRm c.ctl.fmt) 16 (c.maybeElems aa b es)).getD (redIdentity op o.ty)
        vResult h s (lat + 2 * c.lg + slowLat (slowAt aa)) da (elemBytes b (es.map (fun e => (e, r))))
      | _, _ => .illop i)

/-- VRSUM (R230, R109). -/
def execVrsum (h : Head) (o : VR) (s : State) : Host.Outcome State Fault Refusal :=
  reduction (.vrsum h o) h o .sum (if isFlt o.ty then 8 else 6) s

/-- VRMAX (R230, R109). -/
def execVrmax (h : Head) (o : VR) (s : State) : Host.Outcome State Fault Refusal :=
  reduction (.vrmax h o) h o .max 6 s

/-- VRMIN (R230, R109). -/
def execVrmin (h : Head) (o : VR) (s : State) : Host.Outcome State Fault Refusal :=
  reduction (.vrmin h o) h o .min 6 s

/-- VSCAN (R231, R110): inclusive sum, or maximum with mod. -/
def execVscan (h : Head) (o : VR) (s : State) : Host.Outcome State Fault Refusal :=
  let c := s.core
  let b := esize o.ty
  let es := c.enabledElems h b
  let op : RedOp := if o.md then .max else .sum
  vissue h es s (
    if isTap o.ty then .illop (.vscan h o)
    else match c.vaddr o.d, c.vaddr o.a with
      | some da, some aa =>
        let y := scanGo op o.ty (fmtRm c.ctl.fmt) 16 1 (c.maybeElems aa b es)
        let lat := if isFlt o.ty && !o.md then 10 else 8
        vResult h s (lat + 2 * c.lg + slowLat (slowAt aa)) da
          (elemBytes b (es.map (fun e => (e, ((y[e]?).join).getD (redIdentity op o.ty)))))
      | _, _ => .illop (.vscan h o))

/-- VPERM (R232). -/
def execVperm (h : Head) (o : VR) (s : State) : Host.Outcome State Fault Refusal :=
  let c := s.core
  let b := esize o.ty
  let es := c.enabledElems h b
  vissue h es s (
    match c.vaddr o.d, c.vaddr o.a, c.vaddr o.b with
    | some da, some aa, some ba =>
      vResult h s (4 + 2 * c.lg + slowLat (slowAt aa || slowAt ba)) da
        (elemBytes b (es.map (fun e => (e, c.velem aa b (c.velem ba b e % c.nElems b)))))
    | _, _, _ => .illop (.vperm h o))

/-- VBCAST (R232): one lane of va, or with mod the scalar x[a], where I has no meaning and is ignored (log 58). -/
def execVbcast (h : Head) (o : VR) (s : State) : Host.Outcome State Fault Refusal :=
  let c := s.core
  let b := esize o.ty
  let n := c.nElems b
  let es := c.enabledElems h b
  vissue h es s (
    match c.vaddr o.d with
    | none => .illop (.vbcast h o)
    | some da =>
      if o.md then
        vResult h s 2 da (elemBytes b (es.map (fun e => (e, (c.x (o.a.extractLsb' 0 6)).toNat))))
      else if o.i ∧ n ≤ o.b.toNat then .illop (.vbcast h o)
      else match c.vaddr o.a with
        | none => .illop (.vbcast h o)
        | some aa =>
          let l := if o.i then o.b.toNat else (c.x (o.b.extractLsb' 0 6)).toNat % n
          vResult h s (3 + 2 * c.lg + slowLat (slowAt aa)) da (elemBytes b (es.map (fun e => (e, c.velem aa b l)))))

/-- VSLIDE (R232): by a signed amount, zeros entering, or rotated with mod. -/
def execVslide (h : Head) (o : VR) (s : State) : Host.Outcome State Fault Refusal :=
  let c := s.core
  let b := esize o.ty
  let n := c.nElems b
  let es := c.enabledElems h b
  let amount : Int := if o.i then a10 o.b else (c.x (o.b.extractLsb' 0 6)).toInt
  vissue h es s (
    match c.vaddr o.d, c.vaddr o.a with
    | some da, some aa =>
      vResult h s (3 + 2 * c.lg + slowLat (slowAt aa)) da (elemBytes b (es.map (fun e =>
        let j : Int := Int.ofNat e + amount
        (e, if o.md then c.velem aa b (j % (n : Int)).toNat
            else if 0 ≤ j ∧ j < n then c.velem aa b j.toNat else 0))))
    | _, _ => .illop (.vslide h o))

/-- VIOTA (R233): start + e, or with mod start + the enabled elements below e. -/
def execViota (h : Head) (o : VR) (s : State) : Host.Outcome State Fault Refusal :=
  let c := s.core
  let b := esize o.ty
  let es := c.enabledElems h b
  let start : Int := if o.i then a10 o.b else 0
  vissue h es s (
    if !isInt o.ty then .illop (.viota h o)
    else match c.vaddr o.d with
      | some da =>
        vResult h s (if o.md then 3 + 2 * c.lg else 2) da (elemBytes b (es.zipIdx.map (fun e =>
          (e.1, wrapInt (8 * b) (start + (if o.md then (e.2 : Int) else e.1))))))
      | none => .illop (.viota h o))

/-- VMOV (R233): bit for bit. -/
def execVmov (h : Head) (o : VR) (s : State) : Host.Outcome State Fault Refusal :=
  elementwise (.vmov h o) h o 2 true false true s (fun x _ _ => x)

/-- VMOVI (R233): a10 converted to the type, rounded once under RM. -/
def execVmovi (h : Head) (o : VR) (s : State) : Host.Outcome State Fault Refusal :=
  let c := s.core
  let b := esize o.ty
  let es := c.enabledElems h b
  vissue h es s (
    if isTap o.ty then .illop (.vmovi h o)
    else match c.vaddr o.d with
      | some da => vResult h s 2 da (elemBytes b (es.map (fun e => (e, (VSrc.imm (a10 o.b)).store o.ty (fmtRm c.ctl.fmt)))))
      | none => .illop (.vmovi h o))

/-- The element VGETL and VPUTL select, or none for an immediate at or beyond n (R234). -/
def Core.lane (c : Core) (o : VR) : Option Nat :=
  let n := c.nElems (esize o.ty)
  if o.i then (if o.b.toNat < n then some o.b.toNat else none)
  else if n = 0 then none else some ((c.x (o.b.extractLsb' 0 6)).toNat % n)

/-- Byte positions at which the guard is true. -/
def Core.anyByte (c : Core) (h : Head) : List Nat := (List.range (256 * c.g)).filter (fun b => c.enabledAt h b)

/-- VGETL (R234): sign-extended for s types. -/
def execVgetl (h : Head) (o : VR) (s : State) : Host.Outcome State Fault Refusal :=
  let c := s.core
  let b := esize o.ty
  match c.lane o with
  | none => vissue h (c.anyByte h) s (.illop (.vgetl h o))
  | some l =>
    vissue h (if c.enabledAt h (l * b) then [l] else []) s (
      match c.vaddr o.a with
      | none => .illop (.vgetl h o)
      | some aa =>
        let v := c.velem aa b l
        let w : Word := if isSigned o.ty then BitVec.ofInt 64 (toS (8 * b) v) else BitVec.ofNat 64 v
        .ok { s with core := c.push (vslot h) (3 + 2 * c.lg + slowLat (slowAt aa)) (.x (o.d.extractLsb' 0 6) w) })

/-- VPUTL (R234): the destination is a source under R72. -/
def execVputl (h : Head) (o : VR) (s : State) : Host.Outcome State Fault Refusal :=
  let c := s.core
  let b := esize o.ty
  match c.lane o with
  | none => vissue h (c.anyByte h) s (.illop (.vputl h o))
  | some l =>
    vissue h (if c.enabledAt h (l * b) then [l] else []) s (
      match c.vaddr o.d with
      | none => .illop (.vputl h o)
      | some da => vResult h s (2 + slowLat (slowAt da)) da (elemBytes b [(l, (c.x (o.a.extractLsb' 0 6)).toNat)]))

/-! ### Scratchpad access (R235 to R237) -/

/-- The fault of element addresses, ALIGN before XLATE, with the first faulting address (R235; 07 R175). -/
def State.elemFault (s : State) (b : Nat) (addrs : List Nat) : Option (Nat × Nat) :=
  match addrs.find? (fun a => a % b != 0) with
  | some a => some (cALIGN, a)
  | none => match addrs.find? (fun a => !s.okBank a) with
    | some a => some (cXLATE, a)
    | none => none

/-- A vector load from element addresses: each enabled element from its member's banks, front of a pair. -/
def vload (i : Instr) (h : Head) (o : VM) (lat : Nat) (s : State) (es : List Nat) (addr : Nat → Nat)
    (slow : Bool) (post : State → State) : SlotRes :=
  let b := esize o.ty
  let per := 256 / b
  match s.core.vaddr o.v with
  | none => .illop i
  | some da =>
    match s.elemFault b (es.map addr) with
    | some (code, a) => .fault code 0xFF (BitVec.ofNat 64 a)
    | none =>
      let bytes := es.flatMap (fun e => (s.bankRead (e / per) (addr e) b).zipIdx.map (fun q => (e * b + q.2, q.1)))
      .ok (post { s with core := s.core.push (vslot h) (lat + slowLat slow) (.v da bytes) })

/-- A vector store to element addresses, higher-numbered elements last (R237). -/
def vstore (i : Instr) (o : VM) (lat : Nat) (s : State) (es : List Nat) (addr : Nat → Nat) (slow : Bool)
    (post : State → State) : SlotRes :=
  let b := esize o.ty
  let per := 256 / b
  match s.core.vaddr o.v with
  | none => .illop i
  | some va =>
    match s.elemFault b (es.map addr) with
    | some (code, a) => .fault code 0xFF (BitVec.ofNat 64 a)
    | none =>
      let cells := es.flatMap (fun e => s.bankCells false (e / per) (addr e) (leBytes b (s.core.velem va b e)))
      .ok (post { s with core := s.core.pushBank (lat + slowLat (slow || slowAt va)) cells })

/-- Address of VLD and VST: x[b] + e_m · b, unbounded. -/
def contAddr (c : Core) (o : VM) (e : Nat) : Nat :=
  let b := esize o.ty
  (c.x o.base).toNat + e % (256 / b) * b

/-- Address of VLDS and VSTS, modulo 2^64. -/
def strideAddr (c : Core) (o : VM) (e : Nat) : Nat :=
  let b := esize o.ty
  wrapInt 64 ((c.x o.base).toNat + (e % (256 / b) : Nat) * (c.x (o.idx.extractLsb' 0 6)).toInt * 2 ^ o.scale.toNat)

/-- Index registers of VGATHER and VSCATTER resolved; none where one is outside the view (R237). -/
def idxRegs (c : Core) (o : VM) : Option (List Nat) :=
  let w := 8 * 2 ^ o.iw.toNat
  let m := max 1 (w / (8 * esize o.ty))
  (List.range m).mapM (fun k => if o.idx.toNat + k < 1024 then c.vaddr (BitVec.ofNat 10 (o.idx.toNat + k)) else none)

/-- Address of an indexed element. -/
def idxAddr (c : Core) (o : VM) (regs : List Nat) (e : Nat) : Nat :=
  let b := esize o.ty
  let per := 256 / b
  let wb := 2 ^ o.iw.toNat
  let pos := e % per * wb
  let v := c.vnum (regs.getD (pos / 256) 0) (e / per * 256 + pos % 256) wb
  let x : Int := if o.sx then toS (8 * wb) v else v
  wrapInt 64 ((c.x o.base).toNat + x * 2 ^ o.scale.toNat)

/-- The freeze of R64: the most distinct words of one bank of one member, less 4. -/
def State.conflict (s : State) (b : Nat) (es : List Nat) (addr : Nat → Nat) : Nat :=
  let per := 256 / b
  let words := (es.flatMap (fun e =>
    (List.range (if b = 8 then 2 else 1)).map (fun k => s.bankAddr false (e / per) (addr e + 4 * k) / 4))).eraseDups
  let most := words.foldl (fun m w => max m ((words.filter (fun v => v / 8192 == w / 8192)).length)) 0
  most - 4

/-- GATHER_CONFLICT_FREEZE: requested after this bundle. -/
def State.freezeFor (s : State) (n : Nat) : State :=
  if n = 0 then s
  else { s with core := { s.core with front := { s.core.front with gatherFrz := some (max n (s.core.front.gatherFrz.getD 0)) } } }

/-- VLD (R236): lands at c + 8. -/
def execVld (h : Head) (o : VM) (s : State) : Host.Outcome State Fault Refusal :=
  let es := s.core.enabledElems h (esize o.ty)
  vissue h es s (vload (.vld h o) h o 8 s es (contAddr s.core o) false id)

/-- VST (R236): writes at c + 2. -/
def execVst (h : Head) (o : VM) (s : State) : Host.Outcome State Fault Refusal :=
  let es := s.core.enabledElems h (esize o.ty)
  vissue h es s (vstore (.vst h o) o 2 s es (contAddr s.core o) false id)

/-- VGATHER (R237): lands at c + 16, or c + 20 with a slow index; a conflict freezes the core (03 R64). -/
def execVgather (h : Head) (o : VM) (s : State) : Host.Outcome State Fault Refusal :=
  let es := s.core.enabledElems h (esize o.ty)
  vissue h es s (
    match idxRegs s.core o with
    | none => .illop (.vgather h o)
    | some regs => vload (.vgather h o) h o 16 s es (idxAddr s.core o regs) (regs.any slowAt)
        (fun t => t.freezeFor (s.conflict (esize o.ty) es (idxAddr s.core o regs))))

/-- VSCATTER (R237): writes at c + 6, 4 later with slow data or index. -/
def execVscatter (h : Head) (o : VM) (s : State) : Host.Outcome State Fault Refusal :=
  let es := s.core.enabledElems h (esize o.ty)
  vissue h es s (
    match idxRegs s.core o with
    | none => .illop (.vscatter h o)
    | some regs => vstore (.vscatter h o) o 6 s es (idxAddr s.core o regs) (regs.any slowAt)
        (fun t => t.freezeFor (s.conflict (esize o.ty) es (idxAddr s.core o regs))))

/-- VLDS (R236): lands at c + 10. -/
def execVlds (h : Head) (o : VM) (s : State) : Host.Outcome State Fault Refusal :=
  let es := s.core.enabledElems h (esize o.ty)
  vissue h es s (vload (.vlds h o) h o 10 s es (strideAddr s.core o) false id)

/-- VSTS (R236): writes at c + 4. -/
def execVsts (h : Head) (o : VM) (s : State) : Host.Outcome State Fault Refusal :=
  let es := s.core.enabledElems h (esize o.ty)
  vissue h es s (vstore (.vsts h o) o 4 s es (strideAddr s.core o) false id)

/-- VCMPT (R239): a differing pair raises the recovered fault CMPT; a slow source is ILLOP. -/
def execVcmpt (h : Head) (o : VR) (s : State) : Host.Outcome State Fault Refusal :=
  let c := s.core
  let b := esize o.ty
  let es := c.enabledElems h b
  vissue h es s (
    match c.vaddr o.a, c.vaddr o.b with
    | some aa, some ba =>
      if slowAt aa || slowAt ba then .illop (.vcmpt h o)
      else
        match (es.flatMap (fun e => (List.range b).map (fun k => e * b + k))).find? (fun p => c.vbyte aa p != c.vbyte ba p) with
        | some p => .fault cCMPT 0xFF (BitVec.ofNat 64 p)
        | none => .ok s
    | _, _ => .illop (.vcmpt h o))

end Sys2Proof.Machine
end

