-- ==== Sys2Proof/Machine/Matrix.lean ====
section
/-! DEFINITION. The matrix slot (10): the Anvil's queue, tile and accumulator layouts (03 R68, R69), the results of each
matrix instruction, and the events that clear read holds and complete results (10 R242). -/
namespace Sys2Proof.Machine
open Sys2Proof

/-! ### Layouts (03 Table 3.5, R69) -/

/-- Formats of dense tiles. -/
def anvilTy (t : ElemType) : Bool := t == .t6 || t == .t8 || t == .s8 || t == .z8 || t == .bf16 || t == .f32

/-- Bytes of a dense tile. -/
def tileBytes (t : ElemType) : Nat := if t = .t6 then 3072 else 4096 * esize t

/-- Fields of MVIEW and QVIEW as captured. -/
def mSsz (c : Ctl) : Nat := fld c.mview 18 6
def mCnt (c : Ctl) : Nat := fld c.mview 11 7
def mOvf (c : Ctl) : Bool := c.mview.getLsbD 24
def qCnt (c : Ctl) : Nat := fld c.qview 11 5
def tileAddr (c : Ctl) (t : Nat) : Nat := fld c.mview 0 11 * 256 + t * (mSsz c * 512)
def accAddr (c : Ctl) (q : Nat) : Nat := (fld c.qview 0 11 + 81 * q) * 256

/-- The slot holds a dense tile of the format. -/
def fits (c : Ctl) (t : ElemType) : Bool := decide (tileBytes t ≤ mSsz c * 512)

/-- Bytes of a member's register space. -/
def Core.rfRead (c : Core) (g a n : Nat) : List Byte := c.regs.rf.getN (g * 0x80000 + a) (min n (0x80000 - a))

/-- Cells of a write to a member's register space. -/
def rfCells (g a : Nat) (bs : List Byte) : List Host.Cell :=
  ((bs.take (0x80000 - a)).zipIdx).map (fun e => (g * 0x80000 + a + e.2, e.1))

/-- Little-endian numbers of `b` bytes. -/
def nums (b : Nat) : Nat → List Byte → List Nat
  | 0, _ => []
  | k + 1, l => leNat (l.take b) :: nums b k (l.drop b)

/-- Groups of four 6-bit codes in three bytes. -/
def t6s : Nat → List Byte → List Nat
  | 0, _ => []
  | k + 1, l =>
    let n := leNat (l.take 3)
    n % 64 :: n / 64 % 64 :: n / 4096 % 64 :: n / 262144 % 64 :: t6s k (l.drop 3)

/-- The 4,096 codes of a dense tile's bytes. -/
def denseCodes (t : ElemType) (bs : List Byte) : List Nat := if t = .t6 then t6s 1024 bs else nums (esize t) 4096 bs

/-- Four codes in three bytes. -/
def packT6 : List Nat → List Byte
  | a :: b :: c :: d :: l => leBytes 3 (a % 64 + 64 * (b % 64) + 4096 * (c % 64) + 262144 * (d % 64)) ++ packT6 l
  | _ => []

/-- The bytes of a dense tile. -/
def denseBytes (t : ElemType) (es : List Nat) : List Byte := if t = .t6 then packT6 es else es.flatMap (leBytes (esize t))

/-- Rows of `n`. -/
def rowsOf {α : Type} (n : Nat) : Nat → List α → List (List α)
  | 0, _ => []
  | k + 1, l => l.take n :: rowsOf n k (l.drop n)

/-- Rows as columns. -/
def transposed {α : Type} (n : Nat) (rows : List (List α)) : List (List α) :=
  (List.range n).map (fun j => rows.filterMap (fun r => r[j]?))

/-- A dense tile's exact values, row by row. -/
def decTile (t : ElemType) (S : Int) (bs : List Byte) : List (List FV) := rowsOf 64 64 ((denseCodes t bs).map (elemVal t S))

/-- A factored tile's components from its bytes. -/
def compsOf (k : Nat) (bs : List Byte) : Comps := (rowsOf 128 k (nums 4 (128 * k) bs)).map (fun r => (r.take 64, r.drop 64))

/-- The bytes of components. -/
def compBytes (cs : Comps) : List Byte := cs.flatMap (fun c => (c.1 ++ c.2).flatMap (leBytes 4))

/-- An accumulator of one member (R99): integers by row, exponents. -/
structure Acc where
  ints : List (List Int)
  exps : List Int
  deriving DecidableEq, Repr

/-- The invalid pattern. -/
def accInv : Int := -(2 ^ 39 : Int)

def accOf (bs : List Byte) : Acc :=
  let lo := nums 4 4096 bs
  let hi := nums 1 4096 (bs.drop 16384)
  ⟨rowsOf 64 64 (lo.zipWith (fun l h => toS 40 (l + 2 ^ 32 * h)) hi), (nums 2 64 (bs.drop 20480)).map (toS 16)⟩

def accBytes (a : Acc) : List Byte :=
  let is := a.ints.flatten
  is.flatMap (fun i => leBytes 4 (wrapInt 32 i)) ++ is.flatMap (fun i => leBytes 1 (wrapInt 40 i / 2 ^ 32)) ++
  a.exps.flatMap (fun x => leBytes 2 (wrapInt 16 x))

/-! ### Accumulation (04 R100, R102, R103) -/

/-- RoundHalfEven of p × 2^sh. -/
def alignProduct (sh : Int) : FV → Int
  | .fin m e => if 0 ≤ e + sh then m * 2 ^ (e + sh).toNat else halfEven m (-(e + sh)).toNat
  | _ => 0

/-- Accumulate of R100 on one element: the new integer and Sat. -/
def accumulate (x i : Int) (ps : List FV) : Int × Bool :=
  if i = accInv then (i, false)
  else if ps.any (fun p => match p with
    | .nan | .inf _ => true
    | _ => false) then (accInv, true)
  else
    let sum := ps.foldl (fun a p => a + alignProduct (31 - x) p) i
    let top : Int := 2 ^ 39 - 1
    if top < sum then (top, true) else if sum < -top then (-top, true) else (sum, false)

/-- Every element accumulates its products, from rows of A and columns of B. -/
def accumulateAll (a : Acc) (ps : List FV → List FV → List FV) (arows bcols : List (List FV)) : Acc × Bool :=
  let rows := (a.ints.zip (a.exps.zip arows)).map (fun r =>
    (r.1.zip bcols).map (fun e => accumulate r.2.1 e.1 (ps r.2.2 e.2)))
  (⟨rows.map (fun r => r.map Prod.fst), a.exps⟩, rows.any (fun r => r.any Prod.snd))

/-- The least shift from `s` up, at most `fuel` more, with which a row fits (R102). -/
def normShift (row : List Int) : Nat → Nat → Nat
  | 0, s => s
  | f + 1, s =>
    if row.all (fun i => i == accInv || (decide (-(2 ^ 31 : Int) ≤ halfEven i s) && decide (halfEven i s ≤ 2 ^ 31 - 1))) then s
    else normShift row f (s + 1)

/-- Mnorm of R102 on one row. -/
def normRow (row : List Int) (x : Int) : List Int × Int × Bool :=
  let s := normShift row 9 0
  let past := decide (32767 < x + s)
  let s' := if past then (32767 - x).toNat else s
  (row.map (fun i => if i = accInv then i else halfEven i s'), x + s', past)

/-- MOUT's codes (R103). -/
def outCodes (fmt : Word) (a : Acc) : List Nat :=
  let t := fmtType (fld fmt 8 4)
  (a.ints.zip a.exps).flatMap (fun r => r.1.map (fun i =>
    toElem t (fmtRm fmt) (fmtSb fmt) (if i = accInv then .nan else FV.of i (r.2 - 31))))

/-! ### Operands -/

/-- Formats of FMT. -/
def fmtAf (c : Ctl) : ElemType := fmtType (fld c.fmt 0 4)
def fmtBf (c : Ctl) : ElemType := fmtType (fld c.fmt 4 4)
def fmtOf (c : Ctl) : ElemType := fmtType (fld c.fmt 8 4)

/-- Table 4.6. -/
def goodPair (a b : ElemType) : Bool :=
  ((a == .s8 || a == .z8) && (b == .s8 || b == .z8)) || (isTap a && isTap b) || (a == .bf16 && b == .bf16) || (a == .f32 && b == .f32)

/-- Formats that MMAS admits (R249). -/
def narrowTy (t : ElemType) : Bool := t == .s8 || t == .z8 || t == .t8 || t == .t6

/-- N of N-of-16 sparsity, and the registers of B. -/
def sparseN (c : Ctl) : Nat := if fld c.fmt 30 1 = 0 then 8 else 4
def sparseB (c : Ctl) : Nat := 16 / sparseN c

def Core.tile (c : Core) (n : Nat) : Tile := vget c.units.tiles n Tile.zero

/-- The largest rank over the members. -/
def Core.maxRank (c : Core) (n : Nat) : Nat := (List.range c.g).foldl (fun m g => max m (vget (c.tile n).rank g 0).toNat) 0

/-- What an instruction asks of the queue at its issue (R240, R244). -/
structure Plan where
  illop : Bool := false
  reads : List TReg := []
  writes : List TReg := []
  rings : List (HRing × Nat) := []
  wait : Nat := 0
  pop : Bool := false
  badTags : Bool := false
  fault : Option (Nat × Nat) := none
  src : List (Nat × Nat) := []
  xa : Word := 0
  xb : Word := 0

/-- The M slot of a register operand. -/
def tileBeyond (c : Ctl) (n : Nat) : Bool := decide (mCnt c ≤ n)
def accBeyond (c : Ctl) (n : Nat) : Bool := decide (qCnt c ≤ n)

/-- The bytes of a ring operand (R244): slots from `cons` on, of member `g`. After slot number 4,095 comes number 0, as for the producers;
the spec does not say so of a ring whose slots do not divide 4,096: the model's choice (log 56). -/
def State.ringBytes (s : State) (g : Nat) (h : HRing) (cons n : Nat) : List Byte :=
  let r := s.core.ring h
  let sz := slotBytes r.ssz.toNat
  (List.range ((n + sz - 1) / sz)).flatMap (fun k => s.bankRead g (r.slotAddr ((cons + k) % 4096)) (min sz (n - k * sz)))

/-! ### Results -/

/-- A factored or dense result of one member; `bad` is a malformed record (R255). -/
inductive TRes where
  | fact (cs : Comps)
  | dense (ty : ElemType) (codes : List Nat)
  | bad
  deriving DecidableEq, Repr

/-- The canonical NaN tile of a malformed member under dense fallback. -/
def nanTile : List Nat := List.replicate 4096 0x7FC00000

/-- A member's result as a dense f32 tile (R261); f32 codes keep their bits (04 R95). -/
def asF32 (S : Int) : TRes → List Nat
  | .fact cs => (List.range 64).flatMap (fun i => (List.range 64).map (fun j => f32r (factoredElem cs i j)))
  | .dense t codes => codes.map (fun e => if t = .f32 then e else toElem .f32 rne 0 (elemVal t S e))
  | .bad => nanTile

/-- The result of a tile instruction in every member: what completes, and the addition to O. -/
def tileResult (ctl : Ctl) (md : Nat) (never : Bool) (rs : List TRes) : MOut × Nat :=
  let k := mSsz ctl
  let allFact := rs.all (fun r => match r with
    | .fact cs => never || decide (cs.length ≤ k)
    | _ => false)
  let allDense := rs.all (fun r => match r with
    | .dense t _ => fits ctl t
    | _ => false)
  let none_ : MOut := ⟨[], [], [], [], []⟩
  let place (bytes : TRes → List Byte) : Memory := rs.zipIdx.flatMap (fun e => rfCells e.2 (tileAddr ctl md) (bytes e.1))
  if allFact then
    let ranks := Vector.ofFn (fun (g : Fin 4) => match rs[g.val]? with
      | some (.fact cs) => BitVec.ofNat 8 cs.length
      | _ => 0)
    ({ none_ with rf := place (fun r => match r with
        | .fact cs => compBytes cs
        | _ => []), tags := [(md, ⟨true, .f32, ranks⟩)] }, 0)
  else if allDense then
    match rs with
    | .dense t _ :: _ =>
      ({ none_ with rf := place (fun r => match r with
          | .dense t c => denseBytes t c
          | _ => []), tags := [(md, ⟨false, t, Vector.replicate 4 0⟩)] }, 0)
    | _ => (none_, 0)
  else if mOvf ctl ∧ k = 32 then
    ({ none_ with rf := place (fun r => denseBytes .f32 (asF32 (fmtSa ctl.fmt) r)),
                  tags := [(md, ⟨false, .f32, Vector.replicate 4 0⟩)] }, 32)
  else ({ none_ with overflow := [md] }, 0)

/-- A member's components of a factored tile register. -/
def Core.comps (c : Core) (ctl : Ctl) (g n : Nat) : Comps :=
  let k := (vget (c.tile n).rank g 0).toNat
  compsOf k (c.rfRead g (tileAddr ctl n) (512 * k))

/-- A member's codes of a dense tile register read in a format. -/
def Core.denseTile (c : Core) (ctl : Ctl) (g n : Nat) (t : ElemType) : List Nat :=
  denseCodes t (c.rfRead g (tileAddr ctl n) (tileBytes t))

/-- A dense or ring operand's bytes in a format. -/
def State.operandBytes (s : State) (ctl : Ctl) (g : Nat) (ring : Bool) (r : MReg) (cons n : Nat) : List Byte :=
  if ring then s.ringBytes g (r.extractLsb' 0 3) cons n
  else s.core.rfRead g (tileAddr ctl r.toNat) n

/-- Logical B of MMAS: the rows of its tiles one after another. -/
def State.sparseRows (s : State) (j : MJob) (g : Nat) (o : MA) : List (List FV) :=
  let t := fmtBf j.ctl
  (List.range (sparseB j.ctl)).flatMap (fun k =>
    let bs := if o.rb then (s.ringBytes g (o.b.extractLsb' 0 3) j.ringB (tileBytes t * (k + 1))).drop (tileBytes t * k)
      else s.core.rfRead g (tileAddr j.ctl (o.b.toNat + k)) (tileBytes t)
    decTile t (fmtSb j.ctl.fmt) bs)

/-- The logical row that stored column `col` of row `i` names (Table 10.2). -/
def metaRow (N : Nat) (md : List Byte) (i col : Nat) : Nat :=
  let g := col / N
  let n := col % N
  let w := if N = 8 then leNat ((md.drop (32 * i + 4 * g)).take 4) else leNat ((md.drop (32 * i + 2 * g)).take 2)
  16 * g + w / 16 ^ n % 16

/-- Members of a core. -/
def Core.members (c : Core) : List Nat := List.range c.g

/-- The results of an accumulating instruction: a new accumulator per member and whether any element saturated. -/
def accOut (q addr : Nat) (rs : List (Acc × Bool)) : MOut :=
  { rf := rs.zipIdx.flatMap (fun e => rfCells e.2 addr (accBytes e.1.1)), bank := [], tags := [], overflow := [],
    saturated := if rs.any Prod.snd then [q] else [] }

/-- Row r of an MLD or MST: its bank address, possibly outside the space. -/
def rowAddr (base stride : Word) (r : Nat) : Int := (base.toNat : Int) + r * stride.toInt

/-- The source codes of MLD in the layout of the tile. -/
def State.mldCodes (s : State) (j : MJob) (o : MT) (g : Nat) : List Nat :=
  let b := esize o.ty
  let src := if o.rep then 0 else g
  let whole := if o.r then s.ringBytes src o.ring j.ringA (o.wait.toNat * slotBytes (s.core.ring o.ring).ssz.toNat) else []
  let rows := (List.range 64).map (fun r =>
    let a := (rowAddr j.xa j.xb r).toNat
    let bs := if o.r then (whole.drop a).take (64 * b) else s.bankRead src a (64 * b)
    (nums b 64 bs).map (fun e => if o.ty = .t6 then e % 64 else e))
  (if o.t then transposed 64 rows else rows).flatten

/-- The cells of MST in a member. -/
def State.mstCells (s : State) (j : MJob) (o : MT) (g : Nat) : List Host.Cell :=
  let c := s.core
  if (c.tile o.m.toNat).factored then
    let cs := c.comps j.ctl g o.m.toNat
    s.bankCells true g j.xa.toNat (leBytes 8 cs.length) ++ s.bankCells true g (j.xa.toNat + 512) (compBytes cs)
  else
    let b := esize o.ty
    let rows := rowsOf 64 64 (c.denseTile j.ctl g o.m.toNat o.ty)
    (if o.t then transposed 64 rows else rows).zipIdx.flatMap (fun e =>
      s.bankCells true g (rowAddr j.xa j.xb e.2).toNat (e.1.flatMap (leBytes b)))

/-- The rank word of a member's factor record, bits [7:0] (R255). -/
def State.rankWord (s : State) (j : MJob) (g : Nat) : Nat := leNat (s.bankRead g j.xa.toNat 1)

/-- One member's MFAC record (R255). -/
def State.facRecord (s : State) (j : MJob) (g : Nat) : TRes :=
  let a := j.xa.toNat
  let v := s.rankWord j g
  let t := fmtAf j.ctl
  if v ≤ 32 then .fact (compsOf v (s.bankRead g (a + 512) (512 * v)))
  else if v = 0xFF ∧ anvilTy t then
    .dense t ((nums (esize t) 4096 (s.bankRead g (a + 512) (4096 * esize t))).map (fun e => if t = .t6 then e % 64 else e))
  else .bad

/-- The first k unit columns. -/
def unitCols (k : Nat) : List (List Nat) :=
  (List.range k).map (fun l => (List.range 64).map (fun i => if i = l then 0x3F800000 else 0))

/-- MFAC from columns or rows of a dense tile. -/
def Core.facDense (c : Core) (j : MJob) (o : ML) (g : Nat) : TRes :=
  let t := fmtAf j.ctl
  let k := fld j.xb 0 6
  let rows := rowsOf 64 64 ((c.denseTile j.ctl g o.a.toNat t).map (fun e => f32r (elemVal t (fmtSa j.ctl.fmt) e)))
  if o.md = 1 then .fact (((transposed 64 rows).take k).zip (unitCols k))
  else .fact ((unitCols k).zip (rows.take k))

/-- O of an MFAC whose record has rank word `v`, before an overflow: 34 for a dense record, in an Anvil format or not (Table 10.1). For a
rank word that is neither 0 to 32 nor 0xFF the table gives no k, and 2 is the model's choice (log 56). -/
def recordOcc (v : Nat) : Nat := if v ≤ 32 then 2 + v else if v = 0xFF then 34 else 2

/-- What a matrix instruction that starts now brings about, and its occupancy (Table 10.1). -/
def State.jobOut (s : State) (j : MJob) : MOut × Nat :=
  let c := s.core
  let ctl := j.ctl
  let ms := c.members
  let af := fmtAf ctl
  let bf := fmtBf ctl
  let none_ : MOut := ⟨[], [], [], [], []⟩
  let accAt (q : QReg) (g : Nat) : Acc := accOf (c.rfRead g (accAddr ctl q.toNat) 20608)
  let dense (n : Nat) (t : ElemType) (codes : Nat → List Nat) : MOut :=
    { none_ with rf := ms.flatMap (fun g => rfCells g (tileAddr ctl n) (denseBytes t (codes g))),
                 tags := [(n, ⟨false, t, Vector.replicate 4 0⟩)] }
  let mldOcc (t : ElemType) : Nat := if t = .t6 then 6 else 8 * esize t
  match j.ins with
  | .mld _ o => (dense o.m.toNat o.ty (s.mldCodes j o), mldOcc o.ty)
  | .mst _ o =>
    ({ none_ with bank := ms.flatMap (s.mstCells j o) },
      if (c.tile o.m.toNat).factored then 1 + c.maxRank o.m.toNat else mldOcc o.ty)
  | .mzero _ o =>
    (accOut o.q.toNat (accAddr ctl o.q.toNat) (ms.map (fun g =>
      (⟨List.replicate 64 (List.replicate 64 0), if o.md = 1 then (accAt o.q g).exps else List.replicate 64 (toS 16 (fld j.xa 0 16))⟩,
        false))), 41)
  | .mma _ o =>
    (accOut o.q.toNat (accAddr ctl o.q.toNat) (ms.map (fun g =>
      let A := decTile af (fmtSa ctl.fmt) (s.operandBytes ctl g o.ra o.a j.ringA (tileBytes af))
      let B := decTile bf (fmtSb ctl.fmt) (s.operandBytes ctl g o.rb o.b j.ringB (tileBytes bf))
      accumulateAll (accAt o.q g) (List.zipWith FV.mul) A (transposed 64 B))),
      if af = .t6 ∧ bf = .t6 then 16 else if af = .bf16 then 128 else if af = .f32 then 512 else 32)
  | .mmas _ o =>
    (accOut o.q.toNat (accAddr ctl o.q.toNat) (ms.map (fun g =>
      let A := decTile af (fmtSa ctl.fmt) (s.operandBytes ctl g o.ra o.a j.ringA (tileBytes af))
      let B := transposed 64 (s.sparseRows j g o)
      let md := c.rfRead g (tileAddr ctl (56 + o.sp.toNat)) 2048
      let acc := accAt o.q g
      let N := sparseN ctl
      let rows := (acc.ints.zip (acc.exps.zip A)).zipIdx.map (fun r =>
        let ts := (List.range 64).map (metaRow N md r.2)
        (r.1.1.zip B).map (fun e => accumulate r.1.2.1 e.1
          ((r.1.2.2.zip ts).map (fun p => FV.mul p.1 (e.2.getD p.2 (.zero false))))))
      (⟨rows.map (fun r => r.map Prod.fst), acc.exps⟩, rows.any (fun r => r.any Prod.snd)))),
      if af = .t6 ∧ bf = .t6 then 16 else 32)
  | .lrmma _ o =>
    (accOut o.q.toNat (accAddr ctl o.q.toNat) (ms.map (fun g =>
      let A := decTile af (fmtSa ctl.fmt) (s.operandBytes ctl g o.ra o.a j.ringA (tileBytes af))
      let cs := c.comps ctl g o.b.toNat
      let W := A.map (fun r => cs.map (fun l => f32v (f32r (exactDot r (l.1.map f32v)))))
      let V := (List.range 64).map (fun k => cs.map (fun l => f32v (l.2.getD k 0)))
      accumulateAll (accAt o.q g) (List.zipWith FV.mul) W V)),
      1 + 16 * c.maxRank o.b.toNat)
  | .mnorm _ o =>
    (accOut o.q.toNat (accAddr ctl o.q.toNat) (ms.map (fun g =>
      let a := accAt o.q g
      let rows := (a.ints.zip a.exps).map (fun r => normRow r.1 r.2)
      (⟨rows.map (fun r => r.1), rows.map (fun r => r.2.1)⟩, rows.any (fun r => r.2.2)))), 41)
  | .mout _ o =>
    let d := dense o.d.toNat (fmtOf ctl) (fun g => outCodes ctl.fmt (accAt o.q g))
    (if o.md = 1 then
      { d with rf := d.rf ++ ms.flatMap (fun g => rfCells g (accAddr ctl o.q.toNat) (List.replicate 20480 0)) } else d, 41)
  | .mcvt _ o =>
    (dense o.d.toNat (fmtOf ctl) (fun g => (c.denseTile ctl g o.a.toNat af).map (convert ctl.fmt af (fmtOf ctl))), 32)
  | .mtrn _ o =>
    if (c.tile o.a.toNat).factored then
      let r := tileResult ctl o.d.toNat false (ms.map (fun g => .fact ((c.comps ctl g o.a.toNat).map (fun e => (e.2, e.1)))))
      (r.1, 32 + r.2)
    else
      let t := (c.tile o.a.toNat).ty
      (dense o.d.toNat t (fun g => (transposed 64 (rowsOf 64 64 (c.denseTile ctl g o.a.toNat t))).flatten), 32)
  | .mfac _ o =>
    let rs := if o.md = 0 then ms.map (s.facRecord j) else ms.map (c.facDense j o)
    let r := tileResult ctl o.d.toNat false rs
    let occ := if o.md = 0 then (ms.map (fun g => recordOcc (s.rankWord j g))).foldl max 0 else 2 + fld j.xb 0 6
    (r.1, occ + r.2)
  | .lrmul _ o =>
    let r := tileResult ctl o.d.toNat true (ms.map (fun g => .fact (lrMul (c.comps ctl g o.a.toNat) (c.comps ctl g o.b.toNat))))
    (r.1, 1 + (c.maxRank o.a.toNat * c.maxRank o.b.toNat + 3) / 4)
  | .lradd _ o =>
    let r := tileResult ctl o.d.toNat false
      (ms.map (fun g => .fact (lrAdd (o.md == 1) (c.comps ctl g o.a.toNat) (c.comps ctl g o.b.toNat))))
    (r.1, 1 + c.maxRank o.a.toNat + c.maxRank o.b.toNat + r.2)
  | .mtemper _ o =>
    let ts := ms.map (fun g => temper (fld ctl.tol 0 32) (fld ctl.tol 32 32) (c.comps ctl g o.a.toNat))
    let r := tileResult ctl o.d.toNat true (ts.map (fun t => .fact t.2))
    let k := c.maxRank o.a.toNat
    (r.1, 32 + 64 * k + 2 * k * k * (ts.foldl (fun m t => max m t.1) 1))
  | .mdense _ o =>
    (dense o.d.toNat (fmtOf ctl) (fun g =>
      let cs := c.comps ctl g o.a.toNat
      (List.range 64).flatMap (fun i => (List.range 64).map (fun j =>
        toElem (fmtOf ctl) (fmtRm ctl.fmt) (fmtSb ctl.fmt) (factoredElem cs i j)))), 8 + 8 * c.maxRank o.a.toNat)
  | _ => (none_, 1)

/-! ### The queue (R242) -/

/-- Starts the first queued instruction that has not started, if the Anvil is free at the core's clock. -/
def State.anvilStart (s : State) : State :=
  let js := s.core.units.anvil
  let now := s.core.front.clock
  let busy := js.any (fun j => match j.start with
    | some t => decide (now < t + j.occ)
    | none => false)
  match js.find? (fun j => j.start.isNone) with
  | none => s
  | some j =>
    if busy then s
    else
      let r := s.jobOut j
      { s with core := { s.core with units := { s.core.units with
          anvil := js.map (fun k => if k.num = j.num then { k with start := some now, occ := r.2, out := r.1 } else k) } } }

/-- A read hold clears at s + O. -/
def MJob.readDue (now : Nat) (j : MJob) : Bool :=
  !j.read && (match j.start with
    | some t => decide (t + j.occ ≤ now)
    | none => false)

/-- Results are complete at s + O + D. -/
def MJob.doneDue (now : Nat) (j : MJob) : Bool :=
  match j.start with
  | some t => decide (t + j.occ + j.delay ≤ now)
  | none => false

/-- Bits of a mask of register numbers. -/
def maskOf (w : Nat) (l : List Nat) : BitVec w := l.foldl (fun m n => m ||| (1 : BitVec w) <<< n) 0

/-- Completes a job in the core in focus: results, tags, masks (03 R84), pops (03 R81). -/
def State.finishJob (s : State) (j : MJob) : State :=
  let c := s.core
  let tiles := j.out.tags.foldl (fun v e => vset v e.1 e.2) c.units.tiles
  let rings := Vector.ofFn (fun (n : Fin 8) =>
    if j.pops.contains n.val then (vget c.units.rings n.val Ring.zero).popDone j.num else vget c.units.rings n.val Ring.zero)
  { s with core := { c with
      regs := { c.regs with rf := c.regs.rf.setCells j.out.rf, bank := c.regs.bank.setCells j.out.bank },
      ctl := { c.ctl with sticky := if j.out.saturated.isEmpty then c.ctl.sticky else c.ctl.sticky ||| 1 },
      front := { c.front with
        povt := c.front.povt ||| maskOf 64 j.out.overflow, povq := c.front.povq ||| maskOf 16 j.out.saturated,
        accReq := c.front.accReq || (!j.out.saturated.isEmpty && c.ctl.sticky.getLsbD 8) },
      units := { c.units with tiles := tiles, rings := rings, anvil := c.units.anvil.filter (fun k => k.num != j.num) } } }

/-- MATRIX_READ_HOLD_CLEAR (R242). -/
def execMatrixReadHoldClear (c : Nat) (s : State) : Host.Outcome State Fault Refusal :=
  enabledOr "MATRIX_READ_HOLD_CLEAR" (s.atCore? c (fun s =>
    match s.core.units.anvil.find? (MJob.readDue s.core.front.clock) with
    | none => none
    | some j => some { s with core := { s.core with units := { s.core.units with
        anvil := s.core.units.anvil.map (fun k => if k.num = j.num then { k with read := true } else k) } } }))

/-- MATRIX_COMPLETE (R242). -/
def execMatrixComplete (c : Nat) (s : State) : Host.Outcome State Fault Refusal :=
  enabledOr "MATRIX_COMPLETE" (s.atCore? c (fun s =>
    match s.core.units.anvil.find? (MJob.doneDue s.core.front.clock) with
    | none => none
    | some j => some (s.finishJob j)))

/-! ### Issue (R240, R244) -/

/-- A ring operand is ILLOP: an unconfigured ring (14 R304), no slots, more than the ring has, or too few bytes. -/
def Plan.badRing (p : Plan) (c : Core) : Bool :=
  p.rings.any (fun e => !(c.ring e.1).on || p.wait == 0 || decide ((c.ring e.1).nslot.toNat + 1 < p.wait) ||
    decide (p.wait * slotBytes (c.ring e.1).ssz.toNat < e.2))

/-- What holds the instruction. -/
def Plan.holds (p : Plan) (s : State) : List Hold :=
  [Hold.regs p.reads p.writes].filter (fun hd => !s.holdClear hd) ++
  (p.rings.map (fun e => Hold.ringFill e.1 p.wait)).filter (fun hd => !s.holdClear hd)

/-- The job with what it captures. -/
def Plan.job (p : Plan) (i : Instr) (c : Core) : MJob :=
  let cons (n : Nat) : Nat := match p.rings[n]? with
    | some e => (c.ring e.1).cons.toNat
    | none => 0
  let two := match i with
    | .mma _ o | .mmas _ o => !o.ra
    | _ => false
  { num := c.units.nextNum, ins := i, ctl := c.ctl, xa := p.xa, xb := p.xb,
    ringA := cons 0, ringB := if two then cons 0 else cons 1, reads := p.reads, writes := p.writes,
    pops := p.rings.map (fun e => e.1.toNat), slow := p.src.any (fun e => inSlow e.1 e.2),
    start := none, occ := 0, delay := if p.src.any (fun e => inSlow e.1 e.2) then 10 else 6, read := false,
    out := ⟨[], [], [], [], []⟩ }

/-- CONS advances by the slots popped at issue (03 R81). A reader that does not pop takes its place in the order of retirements
all the same: HEAD waits for it (11 R272). -/
def Plan.popRings (p : Plan) (num : Nat) (c : Core) : Core :=
  { c with front := { c.front with
      bnd := c.front.bnd ++ p.rings.map (fun e => .pop e.1 ⟨num, if p.pop then p.wait else 0, false⟩) } }

/-- A queued matrix instruction at its issue. -/
def queue (i : Instr) (h : Head) (s : State) (p : Plan) : Host.Outcome State Fault Refusal :=
  issue h 3 s (
    if p.illop || p.badRing s.core then .illop i
    else if !(p.holds s).isEmpty then .hold (p.holds s)
    else if p.badTags then .illop i
    else match p.fault with
      | some (code, a) => .fault code 0xFF (BitVec.ofNat 64 a)
      | none =>
        let j := p.job i s.core
        let c := p.popRings j.num s.core
        .ok (State.anvilStart { s with core := { c with units := { c.units with anvil := c.units.anvil ++ [j], nextNum := j.num + 1 } } }))

/-- Tile operands of an issue: the bytes that the instruction reads, and not the slot that the register occupies, count for the
slow partition (03 R72 has "source operands"; log 40). -/
def tileSrc (c : Ctl) (n bytes : Nat) : Nat × Nat := (tileAddr c n, bytes)
def accSrc (c : Ctl) (q : QReg) : Nat × Nat := (accAddr c q.toNat, 20608)

/-- Faults of rows of `n` bytes from x[b] on by x[s] (R245): ALIGN, then XLATE at the first bad row. -/
def State.rowFault (s : State) (b n : Nat) (base stride : Word) : Option (Nat × Nat) :=
  if base.toNat % b ≠ 0 ∨ stride.toNat % b ≠ 0 then some (cALIGN, base.toNat)
  else match (List.range 64).find? (fun r => decide (rowAddr base stride r < 0) || !s.okBanks (rowAddr base stride r).toNat n) with
    | some r => some (cXLATE, wrapInt 64 (rowAddr base stride r))
    | none => none

/-- Faults of one extent. -/
def State.extentFault (s : State) (al a n : Nat) : Option (Nat × Nat) :=
  if a % al ≠ 0 then some (cALIGN, a) else if s.okBanks a n then none else some (cXLATE, a)

/-- MNOP: no effect (R240). -/
def execMnop (h : Head) (s : State) : Host.Outcome State Fault Refusal :=
  issue h 3 s (.ok s)

/-- Operands, holds and faults of MLD (R245). A ring form that is misaligned and also has a row outside its operand is ALIGN: neither R245 nor
07 R175 orders the two, and that is the model's choice (log 56). -/
def planMld (o : MT) (s : State) : Plan :=
  let c := s.core.ctl
  let xb := s.core.x o.base
  let xs := s.core.x o.stride
  let b := esize o.ty
  let cap : Int := o.wait.toNat * slotBytes (s.core.ring o.ring).ssz.toNat
  {
    illop := !anvilTy o.ty || tileBeyond c o.m.toNat || !fits c o.ty,
    writes := [.tile o.m.toNat],
    rings := if o.r then [(o.ring, 0)] else [],
    wait := o.wait.toNat, pop := o.pop,
    badTags := o.r && decide (xb.toNat % b = 0) && decide (xs.toNat % b = 0) &&
      (List.range 64).any (fun r => decide (rowAddr xb xs r < 0) || decide (cap < rowAddr xb xs r + 64 * b)),
    fault := if o.r then (if xb.toNat % b ≠ 0 ∨ xs.toNat % b ≠ 0 then some (cALIGN, xb.toNat) else none)
      else s.rowFault b (64 * b) xb xs,
    xa := xb, xb := xs }

/-- MLD (R245). -/
def execMld (h : Head) (o : MT) (s : State) : Host.Outcome State Fault Refusal :=
  queue (.mld h o) h s (planMld o s)

/-- Operands, holds and faults of MST (R246). -/
def planMst (o : MT) (s : State) : Plan :=
  let c := s.core.ctl
  let m := o.m.toNat
  let xb := s.core.x o.base
  let xs := s.core.x o.stride
  let b := esize o.ty
  let fac := (s.core.tile m).factored
  let k := s.core.maxRank m
  {
    illop := !anvilTy o.ty || tileBeyond c m,
    reads := [.tile m],
    badTags := !fac && !fits c o.ty,
    fault := if fac then s.extentFault 8 xb.toNat (512 + 512 * k) else s.rowFault b (64 * b) xb xs,
    src := [tileSrc c m (if fac then 512 * k else tileBytes o.ty)],
    xa := xb, xb := xs }

/-- MST (R246). -/
def execMst (h : Head) (o : MT) (s : State) : Host.Outcome State Fault Refusal :=
  queue (.mst h o) h s (planMst o s)

/-- Operands, holds and faults of MZERO (R247). -/
def planMzero (o : ML) (s : State) : Plan :=
  { illop := accBeyond s.core.ctl o.q.toNat, writes := [.acc o.q.toNat], xa := s.core.x o.a }

/-- MZERO (R247). -/
def execMzero (h : Head) (o : ML) (s : State) : Host.Outcome State Fault Refusal :=
  queue (.mzero h o) h s (planMzero o s)

/-- The operands A, and B where it is a tile of one register, of an accumulating instruction. -/
def denseOps (c : Core) (ring : Bool) (r : MReg) (t : ElemType) : Bool × Bool × List TReg × List (HRing × Nat) × List (Nat × Nat) :=
  if ring then (false, false, [], [(r.extractLsb' 0 3, tileBytes t)], [])
  else (tileBeyond c.ctl r.toNat || !fits c.ctl t, (c.tile r.toNat).factored, [.tile r.toNat], [],
        [tileSrc c.ctl r.toNat (tileBytes t)])

/-- Operands, holds and faults of MMA (R248). -/
def planMma (o : MA) (s : State) : Plan :=
  let c := s.core.ctl
  let A := denseOps s.core o.ra o.a (fmtAf c)
  let B := denseOps s.core o.rb o.b (fmtBf c)
  {
    illop := !goodPair (fmtAf c) (fmtBf c) || accBeyond c o.q.toNat || A.1 || B.1,
    reads := A.2.2.1 ++ B.2.2.1 ++ [.acc o.q.toNat], writes := [.acc o.q.toNat],
    rings := A.2.2.2.1 ++ B.2.2.2.1, wait := o.wait.toNat, pop := o.pop,
    badTags := A.2.1 || B.2.1,
    src := A.2.2.2.2 ++ B.2.2.2.2 ++ [accSrc c o.q] }

/-- MMA (R248). -/
def execMma (h : Head) (o : MA) (s : State) : Host.Outcome State Fault Refusal :=
  queue (.mma h o) h s (planMma o s)

/-- Operands, holds and faults of MMAS (R249). -/
def planMmas (o : MA) (s : State) : Plan :=
  let c := s.core.ctl
  let A := denseOps s.core o.ra o.a (fmtAf c)
  let n := sparseB c
  let bs := (List.range n).map (fun k => o.b.toNat + k)
  let mm := 56 + o.sp.toNat
  {
    illop := !goodPair (fmtAf c) (fmtBf c) || !narrowTy (fmtAf c) || !narrowTy (fmtBf c) || accBeyond c o.q.toNat || A.1 ||
      (!o.rb && (bs.any (tileBeyond c) || !fits c (fmtBf c))) || tileBeyond c mm || decide (mSsz c < 4),
    reads := A.2.2.1 ++ (if o.rb then [] else bs.map TReg.tile) ++ [.tile mm, .acc o.q.toNat], writes := [.acc o.q.toNat],
    rings := A.2.2.2.1 ++ (if o.rb then [(o.b.extractLsb' 0 3, n * tileBytes (fmtBf c))] else []),
    wait := o.wait.toNat, pop := o.pop,
    badTags := A.2.1 || (!o.rb && bs.any (fun k => (s.core.tile k).factored)),
    src := A.2.2.2.2 ++ (if o.rb then [] else bs.map (fun k => tileSrc c k (tileBytes (fmtBf c)))) ++ [tileSrc c mm 2048, accSrc c o.q] }

/-- MMAS (R249). -/
def execMmas (h : Head) (o : MA) (s : State) : Host.Outcome State Fault Refusal :=
  queue (.mmas h o) h s (planMmas o s)

/-- Operands, holds and faults of MNORM (R251). -/
def planMnorm (o : ML) (s : State) : Plan :=
  {
    illop := accBeyond s.core.ctl o.q.toNat, reads := [.acc o.q.toNat], writes := [.acc o.q.toNat], src := [accSrc s.core.ctl o.q] }

/-- MNORM (R251). -/
def execMnorm (h : Head) (o : ML) (s : State) : Host.Outcome State Fault Refusal :=
  queue (.mnorm h o) h s (planMnorm o s)

/-- Operands, holds and faults of MOUT (R252): with clr the accumulator is busy, otherwise held for reading. -/
def planMout (o : ML) (s : State) : Plan :=
  let c := s.core.ctl
  {
    illop := accBeyond c o.q.toNat || tileBeyond c o.d.toNat || !anvilTy (fmtOf c) || !fits c (fmtOf c),
    reads := [.acc o.q.toNat], writes := [.tile o.d.toNat] ++ (if o.md = 1 then [.acc o.q.toNat] else []),
    src := [accSrc c o.q] }

/-- MOUT (R252): with clr the accumulator is busy, otherwise held for reading. -/
def execMout (h : Head) (o : ML) (s : State) : Host.Outcome State Fault Refusal :=
  queue (.mout h o) h s (planMout o s)

/-- Operands, holds and faults of MCVT (R254). -/
def planMcvt (o : ML) (s : State) : Plan :=
  let c := s.core.ctl
  let t := fmtAf c
  {
    illop := tileBeyond c o.a.toNat || tileBeyond c o.d.toNat || !anvilTy t || !anvilTy (fmtOf c) || !fits c t || !fits c (fmtOf c),
    reads := [.tile o.a.toNat], writes := [.tile o.d.toNat],
    badTags := (s.core.tile o.a.toNat).factored,
    src := [tileSrc c o.a.toNat (tileBytes t)] }

/-- MCVT (R254). -/
def execMcvt (h : Head) (o : ML) (s : State) : Host.Outcome State Fault Refusal :=
  queue (.mcvt h o) h s (planMcvt o s)

/-- Operands, holds and faults of MTRN (R254). -/
def planMtrn (o : ML) (s : State) : Plan :=
  let c := s.core.ctl
  let a := o.a.toNat
  let tg := s.core.tile a
  {
    illop := tileBeyond c a || tileBeyond c o.d.toNat,
    reads := [.tile a], writes := [.tile o.d.toNat],
    badTags := !tg.factored && !fits c tg.ty,
    src := [tileSrc c a (if tg.factored then 512 * s.core.maxRank a else tileBytes tg.ty)] }

/-- MTRN (R254). -/
def execMtrn (h : Head) (o : ML) (s : State) : Host.Outcome State Fault Refusal :=
  queue (.mtrn h o) h s (planMtrn o s)

/-- Operands, holds and faults of MFAC (R255). -/
def planMfac (o : ML) (s : State) : Plan :=
  let c := s.core.ctl
  if o.md = 0 then
    {
      illop := tileBeyond c o.d.toNat, writes := [.tile o.d.toNat],
      fault := s.extentFault 8 (s.core.x o.a).toNat 16896, xa := s.core.x o.a }
  else
    let t := fmtAf c
    {
      illop := tileBeyond c o.d.toNat || tileBeyond c o.a.toNat || !anvilTy t || !fits c t,
      reads := [.tile o.a.toNat], writes := [.tile o.d.toNat],
      badTags := (s.core.tile o.a.toNat).factored,
      src := [tileSrc c o.a.toNat (tileBytes t)], xb := s.core.x o.b }

/-- MFAC (R255). -/
def execMfac (h : Head) (o : ML) (s : State) : Host.Outcome State Fault Refusal :=
  queue (.mfac h o) h s (planMfac o s)

/-- A plan whose sources must be factored. -/
def facPlan (s : State) (srcs : List Nat) (d : Nat) (ill : Bool) : Plan :=
  let c := s.core.ctl
  { illop := tileBeyond c d || srcs.any (tileBeyond c) || ill,
    reads := srcs.map TReg.tile, writes := [.tile d],
    badTags := srcs.any (fun n => !(s.core.tile n).factored),
    src := srcs.map (fun n => tileSrc c n (512 * s.core.maxRank n)) }

/-- Operands, holds and faults of LRMUL (R256). -/
def planLrmul (o : ML) (s : State) : Plan :=
  (facPlan s [o.a.toNat, o.b.toNat] o.d.toNat false)

/-- LRMUL (R256). -/
def execLrmul (h : Head) (o : ML) (s : State) : Host.Outcome State Fault Refusal :=
  queue (.lrmul h o) h s (planLrmul o s)

/-- Operands, holds and faults of LRADD (R257). -/
def planLradd (o : ML) (s : State) : Plan :=
  (facPlan s [o.a.toNat, o.b.toNat] o.d.toNat false)

/-- LRADD (R257). -/
def execLradd (h : Head) (o : ML) (s : State) : Host.Outcome State Fault Refusal :=
  queue (.lradd h o) h s (planLradd o s)

/-- Operands, holds and faults of MTEMPER (R258). -/
def planMtemper (o : ML) (s : State) : Plan :=
  (facPlan s [o.a.toNat] o.d.toNat false)

/-- MTEMPER (R258). -/
def execMtemper (h : Head) (o : ML) (s : State) : Host.Outcome State Fault Refusal :=
  queue (.mtemper h o) h s (planMtemper o s)

/-- Operands, holds and faults of MDENSE (R259). -/
def planMdense (o : ML) (s : State) : Plan :=
  (facPlan s [o.a.toNat] o.d.toNat (!anvilTy (fmtOf s.core.ctl) || !fits s.core.ctl (fmtOf s.core.ctl)))

/-- MDENSE (R259). -/
def execMdense (h : Head) (o : ML) (s : State) : Host.Outcome State Fault Refusal :=
  queue (.mdense h o) h s (planMdense o s)

/-- Operands, holds and faults of LRMMA (R250). -/
def planLrmma (o : MA) (s : State) : Plan :=
  let c := s.core.ctl
  let A := denseOps s.core o.ra o.a (fmtAf c)
  let b := o.b.toNat
  {
    illop := !anvilTy (fmtAf c) || accBeyond c o.q.toNat || A.1 || tileBeyond c b,
    reads := A.2.2.1 ++ [.tile b, .acc o.q.toNat], writes := [.acc o.q.toNat],
    rings := A.2.2.2.1, wait := o.wait.toNat, pop := o.pop,
    badTags := A.2.1 || !(s.core.tile b).factored,
    src := A.2.2.2.2 ++ [tileSrc c b (512 * s.core.maxRank b), accSrc c o.q] }

/-- LRMMA (R250). -/
def execLrmma (h : Head) (o : MA) (s : State) : Host.Outcome State Fault Refusal :=
  queue (.lrmma h o) h s (planLrmma o s)

/-- MRANK (R260): held only while the register is busy; lands at c + 2. -/
def execMrank (h : Head) (o : ML) (s : State) : Host.Outcome State Fault Refusal :=
  issue h 3 s (
    let a := o.a.toNat
    if tileBeyond s.core.ctl a then .illop (.mrank h o)
    else if s.core.regsHeld [.tile a] [] then .hold [.regs [.tile a] []]
    else .ok { s with core := s.core.push 3 2 (.x o.d (if (s.core.tile a).factored then BitVec.ofNat 64 (s.core.maxRank a) else 0xFF)) })

end Sys2Proof.Machine
end

