-- ==== Sys2Proof/Machine/Space.lean ====
section
/-! DEFINITION. Memory: translation (15 R326 to R330), the host-line cache (05 R136; 15 R336), accesses through a cluster agent
(05 R113), stamps (05 R127), and the events of the directory and the host. -/
namespace Sys2Proof.Machine
open Sys2Proof

/-! ### The host-line cache (05 R136; 15 R336; 16 R362) -/

/-- A 64 KiB page lies in a window of the limiter: valid, base and last page. -/
def inWindow (w : Word × Word) (pa : Nat) : Bool :=
  w.1.getLsbD 0 && decide (fld w.1 16 36 ≤ pa / 65536) && decide (pa / 65536 ≤ fld w.2 16 36)

/-- A host address lies in some DMA window. -/
def State.dmaOk (s : State) (pa : Nat) : Bool := s.regs.lim.dma.toList.any (fun w => inWindow w pa)

/-- Lines of the host-line cache: 64 MiB (05 R113). -/
abbrev hostLines : Nat := 524288

/-- The stamps of lines that leave the cache go over to the stamp of the host lines outside it (log 46). -/
def State.hostForget (s : State) (p : HLine → Bool) : State :=
  { s with memory := { s.memory with host := s.memory.host.filter (fun l => !p l),
                                     hostStamp := (s.memory.host.filter p).foldl (fun a l => stampMax a l.stamp) s.memory.hostStamp } }

/-- Modified lines with a property go back to host memory. -/
def State.hostWriteBack (s : State) (p : HLine → Bool) : State :=
  { s with memory := { s.memory with mem :=
      (s.memory.host.filter (fun l => l.owned && p l)).foldl (fun m l => m.setN (hostBase + l.line * 128) l.bytes) s.memory.mem } }

/-- The full cache gives up the line that entered it first (log 45). -/
def State.hostRoom (s : State) : State :=
  match s.memory.host with
  | [] => s
  | v :: _ => if s.memory.host.length < hostLines then s
      else (s.hostWriteBack (fun l => l.line == v.line)).hostForget (fun l => l.line == v.line)

/-- A host line enters the cache clean. -/
def State.hostFill (s : State) (line : Nat) : State :=
  if s.memory.host.any (fun l => l.line == line) then s
  else
    let s1 := s.hostRoom
    { s1 with memory := { s1.memory with host := s1.memory.host ++
        [⟨line, s1.memory.mem.getN (hostBase + line * 128) 128, false, 0, s1.memory.hostStamp⟩] } }

/-- Bytes of a list replaced from an offset on. -/
def patch (l : List Byte) (off : Nat) (bs : List Byte) : List Byte := l.take off ++ bs ++ l.drop (off + bs.length)

/-- A write holds the line owned. -/
def State.hostPut (s : State) (asid : BitVec 12) (line off : Nat) (bs : List Byte) : State :=
  let s1 := s.hostFill line
  { s1 with memory := { s1.memory with host := s1.memory.host.map (fun l =>
      if l.line = line then { l with bytes := patch l.bytes off bs, owned := true, asid := asid } else l) } }

def State.hostBytes (s : State) (line off n : Nat) : List Byte :=
  match s.memory.host.find? (fun l => l.line == line) with
  | some l => (l.bytes.drop off).take n
  | none => s.memory.mem.getN (hostBase + line * 128 + off) n

/-- Every line is written back and dropped. -/
def State.hostFlush (s : State) : State := (s.hostWriteBack (fun _ => true)).hostForget (fun _ => true)

/-! ### Translation (15 R326 to R330) -/

/-- A page-table entry as its home answers: RETRY while its line fans out (05 R133) or its frame migrates. -/
def State.pte (s : State) (table i : Nat) : Option Word × State :=
  let pa := table + 8 * i
  if s.homeFree pa 8 then (some (BitVec.ofNat 64 (s.homeNum pa 8)), s.touchL2 (pa / 128) false) else (none, s)

/-- Reserved bits of a table entry are zero. -/
def okTable (e : Word) : Bool := fld e 52 12 == 0 && fld e 2 6 == 0
/-- A leaf of pages of 2^w bytes is good (R328). -/
def okLeaf (e : Word) (w : Nat) : Bool :=
  fld e 52 4 == 0 && fld e 12 4 == 0 && fld e 8 2 == 0 && fld e 2 2 == 0 && fld e 10 2 != 3 && decide (fld e 16 36 * 65536 % 2 ^ w = 0)

/-- ASID a is enabled, as its entry of the ASID table says; none while the home answers RETRY. -/
def State.asidOn (s : State) (a : BitVec 12) : Option Bool × State :=
  let r := s.pte (fld s.regs.m.asidtb 15 37 * 32768) a.toNat
  (r.1.map (fun e => e.getLsbD 63), r.2)

/-- The outcome of a walk: a leaf with the log of its page size, a fault, or a line whose home answers RETRY. -/
inductive Walk where
  | leaf (e : Word) (log : Nat)
  | fault
  | busy (line : Nat)
  deriving DecidableEq, Repr

/-- A frame on the bad-frame list: no page table names it (16 R358; log 29). -/
def State.badFrame (s : State) (pa : Nat) : Bool := s.memory.badFrames.contains (pa / 65536)

/-- A step of a walk: the entry read, then what it says. -/
def State.walkStep (s : State) (table i : Nat) (f : Word → State → Walk × State) : Walk × State :=
  if s.badFrame table then (.fault, s)
  else
    let r := s.pte table i
    match r.1 with
    | none => (.busy ((table + 8 * i) / 128), r.2)
    | some e => f e r.2

/-- The walk of R328. -/
def State.walk (s : State) (asid : BitVec 12) (va : Nat) : Walk × State :=
  let leaf (e : Word) (w : Nat) : Walk := if okLeaf e w then .leaf e w else .fault
  s.walkStep (fld s.regs.m.asidtb 15 37 * 32768) asid.toNat (fun a s =>
    s.walkStep (fld a 20 32 * 1048576) (va / 2 ^ 39 % 131072) (fun e3 s =>
      let t2 := fld e3 8 44 * 256
      if !e3.getLsbD 0 || e3.getLsbD 1 || !okTable e3 || t2 % 4096 != 0 then (.fault, s)
      else s.walkStep t2 (va / 2 ^ 30 % 512) (fun e2 s =>
        let t1 := fld e2 8 44 * 256
        if !e2.getLsbD 0 then (.fault, s)
        else if e2.getLsbD 1 then (leaf e2 30, s)
        else if !okTable e2 || t1 % 4096 != 0 then (.fault, s)
        else s.walkStep t1 (va / 2 ^ 21 % 512) (fun e1 s =>
          if !e1.getLsbD 0 then (.fault, s)
          else if e1.getLsbD 1 then (leaf e1 21, s)
          else if !okTable e1 then (.fault, s)
          else s.walkStep (fld e1 8 44 * 256) (va / 2 ^ 16 % 32) (fun e0 s =>
            (if !e0.getLsbD 0 || !e0.getLsbD 1 then .fault else leaf e0 16, s))))))

/-- What an access does with memory. -/
inductive AccKind where
  | read | write | fetch
  deriving DecidableEq, Repr

/-- The leaf admits the access (R327, R329). -/
def leafAdmits (e : Word) : AccKind → Bool
  | .read => e.getLsbD 4
  | .write => e.getLsbD 5 && !e.getLsbD 7
  | .fetch => e.getLsbD 6

/-- The cached translation covers the address. -/
def Tlb.covers (t : Tlb) (asid : BitVec 12) (va : Nat) : Bool := t.asid == asid && decide (t.va ≤ va) && decide (va < t.va + 2 ^ t.log)

/-- A translation, from a cached one that admits the access or by a walk that is then cached: a permission added to an entry
needs no shootdown (R330). -/
def State.translate (s : State) (asid : BitVec 12) (va : Nat) (k : AccKind) : Walk × State :=
  match s.memory.tlb.find? (fun t => t.covers asid va && leafAdmits t.leaf k) with
  | some t => (.leaf t.leaf t.log, s)
  | none =>
    let r := s.walk asid va
    match r.1 with
    | .leaf leaf w => (r.1, { r.2 with memory := { r.2.memory with
        tlb := r.2.memory.tlb.filter (fun t => !t.covers asid va) ++ [⟨asid, va / 2 ^ w * 2 ^ w, w, leaf⟩] } })
    | _ => r

/-- Where a byte of memory lives. -/
inductive Place where
  | home (pa : Nat)
  | host (pa : Nat)
  | remote (mid pa : Nat)
  deriving DecidableEq, Repr

/-- The outcome of looking up a piece of memory: its place, a fault for the driver, an error for the token, RETRY. -/
inductive Look where
  | at_ (p : Place)
  | fault
  | error (code : BitVec 3)
  | busy (line : Nat)
  deriving DecidableEq, Repr

/-- The frame holds a granule of a sealed block: no plain store reaches it, through whatever mapping (06 R155). -/
def State.sealedFrame (s : State) (pa : Nat) : Bool :=
  s.crucible.nodes.any (fun n => (n.st == .sealed || n.st == .demoting) && n.blocks.any (fun b => b.granules.any (fun g => g / 65536 == pa / 65536)))

/-- Physical addresses that reach memory: HBM, and above it CXL-attached memory inside the CXL window (15 R335). Table 1.8 gives
HBM's capacity; no rule gives the map or what an access outside it does: it records XLATE (log 44). -/
def State.paOk (s : State) (pa : Nat) : Bool := decide (pa < hbmTop) || (decide (pa < cxlTop) && inWindow s.regs.lim.cxlw pa)

/-- One virtual address (15 R328, R336, R341; 16 R358, R362). -/
def State.look (s : State) (asid : BitVec 12) (va : Nat) (k : AccKind) : Look × State :=
  if 2 ^ 56 ≤ va then (.error 2, s)
  else
    let r := s.translate asid va k
    match r.1 with
    | .fault => (.fault, r.2)
    | .busy l => (.busy l, r.2)
    | .leaf e w =>
      let pa := fld e 16 36 * 65536 + va % 2 ^ w
      let here : Look := if s.badFrame pa || (k == .write && s.sealedFrame (s.frame pa)) then .fault else if s.paOk pa then .at_ (.home pa) else .error 2
      if !leafAdmits e k then (.fault, r.2)
      else match fld e 10 2 with
        | 0 => (here, r.2)
        | 1 => (if !s.regs.m.hlccfg.getLsbD 0 || !s.dmaOk pa then .error 2 else .at_ (.host pa), r.2)
        | _ =>
          let d := fld e 56 8
          (if d = s.mid then here else if (s.route d).isSome then .at_ (.remote d pa) else .error 7, r.2)

/-- A piece of an access: virtual address, length, place. -/
structure Seg where
  va : Nat
  len : Nat
  place : Place
  deriving DecidableEq, Repr

/-- The outcome of a whole access. -/
inductive Segs where
  | ok (l : List Seg)
  | fault (va : Nat)
  | error (code : BitVec 3) (done : List Seg)
  | busy (line : Nat)
  deriving DecidableEq, Repr

/-- Cuts an access at 64 KiB pages, at most `fuel` pieces, looking each up. -/
def State.resolve (asid : BitVec 12) (k : AccKind) : Nat → State → Nat → Nat → List Seg → Segs × State
  | 0, s, _, _, acc => (.ok acc, s)
  | f + 1, s, va, n, acc =>
    if n = 0 then (.ok acc, s)
    else
      let len := min n (65536 - va % 65536)
      let r := s.look asid va k
      match r.1 with
      | .fault => (.fault va, r.2)
      | .error c => (.error c acc, r.2)
      | .busy l => (.busy l, r.2)
      | .at_ p => State.resolve asid k f r.2 (va + len) (n - len) (acc ++ [⟨va, len, p⟩])

/-- An access of `n` bytes. -/
def State.segments (s : State) (asid : BitVec 12) (k : AccKind) (va n : Nat) : Segs × State :=
  State.resolve asid k (n / 65536 + 2) s va n []

/-- Cells of remote bytes that have arrived cover a piece. -/
def hasGot (got : List Host.Cell) (g : Seg) : Bool :=
  match g.place with
  | .remote m pa => (List.range g.len).all (fun i => (lookupN (remoteBase + m * 2 ^ 52 + pa + i) got).isSome)
  | _ => true

/-- Offsets and lengths of the requests that fetch or write a piece: at most 4,000 bytes each. -/
def reqParts (n : Nat) : List (Nat × Nat) :=
  (List.range ((n + 3999) / 4000)).map (fun i => (4000 * i, min 4000 (n - 4000 * i)))

/-- Asks the homes of the remote pieces for their bytes, with the age of who asks: the requests by tag. -/
def State.askSegs (s : State) (born : Nat) (segs : List Seg) : List (BitVec 32 × Nat × Nat) × State :=
  segs.foldl (fun (acc : List (BitVec 32 × Nat × Nat) × State) g =>
    match g.place with
    | .remote m pa => (reqParts g.len).foldl (fun acc p =>
        let t := acc.2.takeTag m
        (acc.1 ++ [(t.1, m * 2 ^ 52 + pa + p.1, p.2)],
         t.2.sendMsg (t.2.message m 0 0 t.1 (MemReq.bytes ⟨0, 0, p.2, false, pa + p.1, 0, 0, born, []⟩)))) acc
    | _ => acc) ([], s)

/-! ### Accesses through a cluster agent -/

/-- The lines of a piece at this module's homes. -/
def Seg.lines (g : Seg) : List (Nat × Nat × Nat) :=
  match g.place with
  | .home pa => lineParts pa g.len
  | _ => []

/-- The lines of pieces that are refused now: those that the agent lacks (checked out, for a write) while they fan out, their
frame migrates, or an older request waits there. -/
def State.segBusy (s : State) (ag : Nat) (write : Bool) (older : Nat → Bool) (segs : List Seg) : Option Nat :=
  (segs.flatMap (fun g => g.lines.map (fun l => l.1))).find? (fun l =>
    !(match s.cline ag l with
      | some c => c.out || !write
      | none => false) && (s.fanBusy l || s.frameBusy (l * 128) || older l))

/-- The agent holds the line. -/
def State.haveLine (s : State) (ag line : Nat) : State := if (s.cline ag line).isSome then s else s.readMiss ag line

/-- The agent holds the line checked out. -/
def State.ownLine (s : State) (ag line : Nat) : State :=
  match s.cline ag line with
  | some c => if c.out then s else s.checkOut ag line
  | none => s.checkOut ag line

/-- Reads a piece: the bytes, or none where a byte's correction fails (UE). -/
def State.segRead (s : State) (ag : Nat) (got : List Host.Cell) (g : Seg) : Option (List Byte) × State :=
  match g.place with
  | .home pa =>
    if s.poisoned pa g.len then (none, s.logUe (4 * homeStack pa + 3) 0xFFFF 0 9 (BitVec.ofNat 64 pa))
    else
      (lineParts pa g.len).foldl (fun (acc : Option (List Byte) × State) l =>
        let s1 := acc.2.haveLine ag l.1
        let bs := match s1.cline ag l.1 with
          | some c => (c.bytes.drop l.2.1).take l.2.2
          | none => []
        (acc.1.map (· ++ bs), s1)) (some [], s)
  | .host pa =>
    (lineParts pa g.len).foldl (fun (acc : Option (List Byte) × State) l =>
      let s1 := acc.2.hostFill l.1
      (acc.1.map (· ++ s1.hostBytes l.1 l.2.1 l.2.2), s1)) (some [], s)
  | .remote m pa =>
    (some ((List.range g.len).map (fun i => (lookupN (remoteBase + m * 2 ^ 52 + pa + i) got).getD 0)), s)

/-- Writes a piece of this module's homes or of the host; remote bytes travel as messages. -/
def State.segWrite (s : State) (ag cnum : Nat) (asid : BitVec 12) (g : Seg) (bs : List Byte) : State :=
  match g.place with
  | .home pa =>
    (lineParts pa g.len).foldl (fun s l =>
      let s1 := s.ownLine ag l.1
      match s1.cline ag l.1 with
      | some c =>
        let va := (g.va + (l.1 * 128 + l.2.1 - pa)) / 128
        s1.setLine { c with bytes := patch c.bytes l.2.1 ((bs.drop (l.1 * 128 + l.2.1 - pa)).take l.2.2),
                            wrote := if c.wrote.contains (cnum, va) then c.wrote else c.wrote ++ [(cnum, va)] }
      | none => s1) s
  | .host pa =>
    (lineParts pa g.len).foldl (fun s l => s.hostPut asid l.1 l.2.1 ((bs.drop (l.1 * 128 + l.2.1 - pa)).take l.2.2)) s
  | .remote _ _ => s

/-- The lines checked out by an agent that a core wrote through addresses with a property. -/
def State.coveredLines (s : State) (ag cnum : Nat) (p : Nat → Bool) : List Nat :=
  (s.memory.lines.filter (fun l => l.agent == ag && l.out && l.wrote.any (fun w => w.1 == cnum && p w.2))).map (fun l => l.line)

/-- Checks lines in, for a release with a clean copy kept: the fan-outs to wait for. -/
def State.releaseLines (s : State) (ag : Nat) (lines : List Nat) (keep : Bool := true) : List Nat × State :=
  lines.foldl (fun (acc : List Nat × State) l =>
    let s1 := acc.2.checkIn ag l keep
    (acc.1 ++ s1.fanOf l, s1)) ([], s)

/-! ### sc operations at a home (05 R127) -/

/-- PerformSc's stamp: the new time, with the line's stamp advanced. A line without a directory entry keeps its stamp in the
floor of its slice, where R127 says that such a line's stamp is found; that no entry is made for it is the model's choice (log 46). -/
def State.stampHome (s : State) (pa clk core : Nat) : Nat × State :=
  let line := pa / 128
  let d := s.entryOf line
  let t := max clk d.stamp.1 + 1
  let st := stampMax d.stamp (t, core)
  match s.entry line with
  | some _ => (t, s.setEntry { d with stamp := st })
  | none =>
    let k := homeStack (line * 128)
    (t, s.setStack k { s.stack k with floor := st })

/-- The same for a line in the host-line cache. -/
def State.stampHost (s : State) (line clk core : Nat) : Nat × State :=
  let was := match s.memory.host.find? (fun l => l.line == line) with
    | some l => l.stamp
    | none => s.memory.hostStamp
  let t := max clk was.1 + 1
  (t, { s with memory := { s.memory with host := s.memory.host.map (fun l =>
      if l.line = line then { l with stamp := stampMax was (t, core) } else l) } })

/-- New of Table 11.5 on s bytes. -/
def amoNew (op n old y : Nat) : Nat :=
  let w := 8 * n
  match op with
  | 0 => (old + y) % 2 ^ w
  | 1 => Nat.land old y
  | 2 => Nat.lor old y
  | 3 => Nat.xor old y
  | 4 => if toS w old ≤ toS w y then old else y
  | 5 => if toS w old ≤ toS w y then y else old
  | 6 => min old y
  | 7 => max old y
  | _ => y

/-- The value an operation at the home stores, if any: AMO, CAS or a plain store (kinds 2, 3, 1). -/
def homeOp (kind op n old y cmp : Nat) : Option Nat :=
  match kind with
  | 0 => none
  | 1 => some y
  | 2 => some (amoNew op n old y)
  | _ => if old = cmp then some y else none

/-! ### Events of the directory -/

/-- A message of an agent whose stack is removed is dropped (R134). -/
def State.fromAgent (s : State) (ag : Nat) (r : Option State) : Option State := if (s.stack (ag / 11)).removed then some s else r

/-- READ_MISS (R131). -/
def execReadMiss (agent line : Nat) (s : State) : Host.Outcome State Fault Refusal :=
  enabledOr "READ_MISS" (s.fromAgent agent (
    if s.fanBusy line || (s.cline agent line).isSome || s.frameBusy (line * 128) then none else some (s.readMiss agent line)))

/-- CHECK_OUT (R131). -/
def execCheckOut (agent line : Nat) (s : State) : Host.Outcome State Fault Refusal :=
  enabledOr "CHECK_OUT" (s.fromAgent agent (
    if s.fanBusy line || s.frameBusy (line * 128) || (match s.cline agent line with
      | some l => l.out
      | none => false) then none else some (s.checkOut agent line)))

/-- CHECK_IN (R132): the agent evicts a line that it holds checked out. -/
def execCheckIn (agent line : Nat) (s : State) : Host.Outcome State Fault Refusal :=
  enabledOr "CHECK_IN" (s.fromAgent agent (match s.cline agent line with
    | some l => if l.out then some (s.checkIn agent line false) else none
    | none => none))

/-- INVALIDATION (R132). -/
def execInvalidation (agent line : Nat) (s : State) : Host.Outcome State Fault Refusal :=
  enabledOr "INVALIDATION" (s.fromAgent agent (s.invalidate agent line))

/-- INVALIDATION_ACK (R133). -/
def execInvalidationAck (agent line : Nat) (s : State) : Host.Outcome State Fault Refusal :=
  enabledOr "INVALIDATION_ACK" (s.fromAgent agent (s.ackFan agent line))

/-- SILENT_DROP (R131). -/
def execSilentDrop (agent line : Nat) (s : State) : Host.Outcome State Fault Refusal :=
  enabledOr "SILENT_DROP" (match s.cline agent line with
    | some l => if l.out then none else some (s.dropLine agent line)
    | none => none)

/-! ### The host (05 R136, R137; 16 R361) -/

/-- The host answers a back-invalidation snoop: one count of the fan-out. -/
def execHostSnoopResponse (line : Nat) (s : State) : Host.Outcome State Fault Refusal :=
  enabledOr "HOST_SNOOP_RESPONSE" (match s.entry line with
    | none => none
    | some d => match d.fan with
      | none => none
      | some f => if f.host then some ((s.setEntry { d with fan := some { f with host := false } }).settleFan line) else none)

/-- A snoop of the host-line cache is answered; an invalidating one drops the line, and may be followed by the host's own
store to it (log 9). -/
def State.snoop (s : State) (line : Nat) (inval : Bool) (store : List Byte) : State :=
  match s.memory.host.find? (fun l => l.line == line) with
  | none => { s with outward := s.outward ++ [.snoopMiss line],
                     memory := { s.memory with mem := s.memory.mem.setN (hostBase + line * 128) store } }
  | some l =>
    let s1 := s.hostWriteBack (fun k => k.line == line)
    { s1 with
      outward := s1.outward ++ [.snoopData line l.bytes],
      memory := { s1.memory with
        mem := s1.memory.mem.setN (hostBase + line * 128) store,
        host := (if inval then (s1.hostForget (fun k => k.line == line)).memory.host
          else s1.memory.host.map (fun k => if k.line = line then { k with owned := false } else k)),
        hostStamp := if inval then (s1.hostForget (fun k => k.line == line)).memory.hostStamp else s1.memory.hostStamp } }

/-- HOST_SNOOP (R136; 16 R361): answered in every state while the link is up. -/
def execHostSnoop (line : Nat) (inval : Bool) (store : List Byte) (s : State) : Host.Outcome State Fault Refusal :=
  enabledOr "HOST_SNOOP" (if s.board.portUp.toList.any id then some (s.snoop line inval store) else none)

/-- CXL.mem requests are held in RESET to MEMINIT and while their stack is gated (R361), in FAILED (15 R309), and to a frame under
migration (R358). -/
def State.hostMemHeld (s : State) (pa : Nat) : Bool :=
  decide (fld s.regs.m.mstate 0 4 < 3) || fld s.regs.m.mstate 0 4 == 15 || (s.stack (homeStack pa)).gated || s.frameBusy pa

/-- The device address of a host address (15 R334, R335): interleaved at 256 bytes, even pieces are port 0's and odd ones port 1's,
and a port's pieces are consecutive in its device range (log 47). -/
def HdmDec.map (e : HdmDec) (addr n : Nat) : Option Nat :=
  let k := addr - e.hpa
  if addr < e.hpa ∨ e.hpa + e.size < addr + n then none
  else if !e.two then some (e.dpa + k)
  else if k / 256 % 2 = e.port ∧ k % 256 + n ≤ 256 then some (e.dpa + k / 512 * 256 + k % 256)
  else none

/-- The device address that a request by a port reaches: through a committed decoder of that port. -/
def State.inHdm (s : State) (port addr n : Nat) : Option Nat :=
  s.board.hdm.findSome? (fun e => if e.port = port then e.map addr n else none)

/-- The bytes of a device range that the decoder takes. -/
def HdmDec.devSize (e : HdmDec) : Nat := if e.two then e.size / 2 else e.size

/-- A host write at its home (R137): a check-in of the bytes written without a twin. It completes when no fan-out of its lines runs:
a later store that the host orders after it comes after that (R124). -/
def State.hostMemWrite (s : State) (addr pa : Nat) (bs : List Byte) : State :=
  let s1 := s.homePut pa bs true
  let fans := (lineParts pa bs.length).flatMap (fun l => s1.fanOf l.1)
  if fans.isEmpty then { s1 with outward := s1.outward ++ [.hostDone addr true] }
  else { s1 with memory := { s1.memory with hostWrites := s1.memory.hostWrites ++ [(addr, fans)] } }

/-- A host read: the host becomes a sharer of the lines. -/
def State.hostMemRead (s : State) (addr pa n : Nat) : State :=
  let s1 := (lineParts pa n).foldl (fun s l =>
    let s := s.touchL2 l.1 false
    s.setEntry { s.entryOf l.1 with hostShares := true }) s
  { s1 with outward := s1.outward ++ [.hostData addr (s1.homeRead pa n) (s1.poisoned pa n)] }

/-- Every line of the range can be read now. -/
def State.hostReady (s : State) (pa n : Nat) : Bool := (lineParts pa n).all (fun l => !s.fanBusy l.1)

/-- HOST_CXL_MEM_WRITE (R137; 16 R361). -/
def execHostCxlMemWrite (a : HostSite) (bytes : List Byte) (s : State) : Host.Outcome State Fault Refusal :=
  enabledOr "HOST_CXL_MEM_WRITE" ((s.inHdm a.port a.addr bytes.length).map (fun pa =>
    if s.hostMemHeld pa then
      { s with memory := { s.memory with heldReqs := s.memory.heldReqs ++ [⟨true, a.addr, bytes, bytes.length, a.port⟩] } }
    else s.hostMemWrite a.addr pa bytes))

/-- HOST_CXL_MEM_READ (R361). A line that fans out receives RETRY, and the request comes again. -/
def execHostCxlMemRead (a : HostSite) (len : Nat) (s : State) : Host.Outcome State Fault Refusal :=
  enabledOr "HOST_CXL_MEM_READ" (match s.inHdm a.port a.addr len with
    | none => none
    | some pa =>
      if s.hostMemHeld pa then
        some { s with memory := { s.memory with heldReqs := s.memory.heldReqs ++ [⟨false, a.addr, [], len, a.port⟩] } }
      else if s.hostReady pa len then some (s.hostMemRead a.addr pa len) else none)

/-- A held request ends without its bytes: poison, or an error completion for a write, logged in bank 63 or 64 by its port. -/
def State.hostMemFail (s : State) (r : HeldReq) : State :=
  { s with outward := s.outward ++ [if r.write then Outward.hostDone r.addr false else Outward.hostData r.addr (List.replicate r.len 0) true] }
    |>.logUe (63 + r.port) 0xFFFF 0 9 (BitVec.ofNat 64 r.addr)

/-- Held requests complete once their stack is ready, a read once none of its lines fans out; one whose decoder is gone fails. -/
def State.serveHeld (s : State) : State :=
  s.memory.heldReqs.foldl (fun s r =>
    let s1 := { s with memory := { s.memory with heldReqs := s.memory.heldReqs.erase r } }
    match s.inHdm r.port r.addr r.len with
    | none => s1.hostMemFail r
    | some pa =>
      if s.hostMemHeld pa || (!r.write && !s.hostReady pa r.len) then s
      else if r.write then s1.hostMemWrite r.addr pa r.bytes
      else s1.hostMemRead r.addr pa r.len) s

/-- Some held request can complete. -/
def State.heldDue (s : State) : Bool :=
  s.memory.heldReqs.any (fun r => match s.inHdm r.port r.addr r.len with
    | none => true
    | some pa => !s.hostMemHeld pa && (r.write || s.hostReady pa r.len))

/-- CXL_MEM_HELD_TIMEOUT (R361). -/
def execCxlMemHeldTimeout (idx : Nat) (s : State) : Host.Outcome State Fault Refusal :=
  enabledOr "CXL_MEM_HELD_TIMEOUT" (match s.memory.heldReqs[idx]? with
    | none => none
    | some r => some (State.hostMemFail { s with memory := { s.memory with heldReqs := s.memory.heldReqs.eraseIdx idx } } r))

/-- HDM_DECODER_COMMIT (15 R334, R335): fails where the device range leaves the limiter's windows. -/
def execHdmDecoderCommit (port dec : Nat) (m : HdmMap) (size : Nat) (s : State) : Host.Outcome State Fault Refusal :=
  let e : HdmDec := ⟨port, dec, m.hpa, size, m.dpa, m.two⟩
  enabledOr "HDM_DECODER_COMMIT" (
    if size ≠ 0 ∧ s.regs.lim.hdm.toList.any (fun w => w.1.getLsbD 0 && decide (fld w.1 16 36 * 65536 ≤ m.dpa) &&
        decide (m.dpa + e.devSize ≤ (fld w.2 16 36 + 1) * 65536)) then
      some { s with board := { s.board with hdm := s.board.hdm.filter (fun d => !(d.port == port && d.dec == dec)) ++ [e] } }
    else some { s with outward := s.outward ++ [.hdmError port dec] })

end Sys2Proof.Machine
end

