-- ==== Sys2Proof/Machine/Store.lean ====
section
/-! DEFINITION. The Crucible prefix store: names and checks (06 R140, R141), nodes, holding, space and eviction (06 R142 to
R150, R158, R159), the node directory (06 R160 to R162), sealing (06 R144) and the events of the store. -/
namespace Sys2Proof.Machine
open Sys2Proof

/-! ### SHAKE128 (FIPS 202) -/

def keccakRot : List Nat :=
  [0, 1, 62, 28, 27, 36, 44, 6, 55, 20, 3, 10, 43, 25, 39, 41, 45, 15, 21, 8, 18, 2, 61, 56, 14]

def keccakRc : List Word :=
  [0x0000000000000001, 0x0000000000008082, 0x800000000000808A, 0x8000000080008000, 0x000000000000808B, 0x0000000080000001,
   0x8000000080008081, 0x8000000000008009, 0x000000000000008A, 0x0000000000000088, 0x0000000080008009, 0x000000008000000A] ++
  [0x000000008000808B, 0x800000000000008B, 0x8000000000008089, 0x8000000000008003, 0x8000000000008002, 0x8000000000000080,
   0x000000000000800A, 0x800000008000000A, 0x8000000080008081, 0x8000000000008080, 0x0000000080000001, 0x8000000080008008]

/-- Lane (x, y) of the state. -/
def lane (a : List Word) (x y : Nat) : Word := a.getD (x % 5 + 5 * (y % 5)) 0

/-- One round of Keccak-f[1600]. -/
def keccakRound (a : List Word) (rc : Word) : List Word :=
  let c (x : Nat) : Word := lane a x 0 ^^^ lane a x 1 ^^^ lane a x 2 ^^^ lane a x 3 ^^^ lane a x 4
  let t := (List.range 25).map (fun i => lane a (i % 5) (i / 5) ^^^ c (i + 4) ^^^ (c (i + 1)).rotateLeft 1)
  let b := (List.range 25).map (fun i => (lane t (i % 5 + 3 * (i / 5)) (i % 5)).rotateLeft (keccakRot.getD ((i % 5 + 3 * (i / 5)) % 5 + 5 * (i % 5)) 0))
  let n := (List.range 25).map (fun i => lane b (i % 5) (i / 5) ^^^ (~~~(lane b (i % 5 + 1) (i / 5)) &&& lane b (i % 5 + 2) (i / 5)))
  match n with
  | [] => []
  | w :: ws => (w ^^^ rc) :: ws

def keccakF (a : List Word) : List Word := keccakRc.foldl keccakRound a

/-- Absorbs one block of 168 bytes. -/
def absorb (a : List Word) (blk : List Byte) : List Word :=
  keccakF ((List.range 25).map (fun i => a.getD i 0 ^^^ (if i < 21 then BitVec.ofNat 64 (leNat ((blk.drop (8 * i)).take 8)) else 0)))

/-- The message with SHAKE's suffix and padding. -/
def shakePad (m : List Byte) : List Byte :=
  let k := 168 - m.length % 168
  m ++ (if k = 1 then [0x9F] else 0x1F :: (List.replicate (k - 2) 0 ++ [0x80]))

/-- The first `n` output bytes of SHAKE128, n at most 168. -/
def shake128 (n : Nat) (m : List Byte) : List Byte :=
  let p := shakePad m
  let a := (List.range (p.length / 168)).foldl (fun a i => absorb a ((p.drop (168 * i)).take 168)) (List.replicate 25 0)
  (a.flatMap (fun w => leBytes 8 w.toNat)).take n

/-- A node's name (R140), as the node id. -/
def nodeName (ns : Word) (parent : BitVec 128) (tokens : List (BitVec 32)) : BitVec 128 :=
  BitVec.ofNat 128 (leNat (shake128 16 (leBytes 8 ns.toNat ++ leBytes 16 parent.toNat ++ tokens.flatMap (fun t => leBytes 4 t.toNat))))

/-- The check of a layer block (R141). -/
def blockCheck (name : BitVec 128) (layer : Nat) (payload : List Byte) : Word :=
  BitVec.ofNat 64 (leNat (shake128 8 (leBytes 16 name.toNat ++ leBytes 2 layer ++ payload)))

/-! ### Namespaces (R138) -/

def NSpace.eb (p : NSpace) : Nat := if p.ef = 8 then 2 else 1
def NSpace.rb (p : NSpace) : Nat := p.kvh * p.hd * p.eb
def NSpace.payload (p : NSpace) : Nat := 2 * p.bt * p.rb
def NSpace.chunks (p : NSpace) : Nat := p.kvh * p.hd / 64
def NSpace.ty (p : NSpace) : ElemType := fmtType p.ef
/-- Dense bytes of a K chunk. -/
def NSpace.chunkBytes (p : NSpace) : Nat := p.bt * 64 * p.eb

def State.space (s : State) (ns : Word) : Option NSpace := s.crucible.spaces.find? (fun p => p.ns == ns)

/-- Rights of an ASID: bits R, W, L, D. -/
def NSpace.right (p : NSpace) (asid : BitVec 12) (bit : Nat) : Bool := (p.rights.getD asid.toNat 0).getLsbD bit

/-! ### Nodes -/

def State.node (s : State) (slot : Nat) : Option KNode := s.crucible.nodes.find? (fun n => n.slot == slot)
def State.setNode (s : State) (n : KNode) : State :=
  { s with crucible := { s.crucible with nodes := s.crucible.nodes.map (fun m => if m.slot = n.slot then n else m) } }
def State.dropNode (s : State) (slot : Nat) : State :=
  { s with crucible := { s.crucible with nodes := s.crucible.nodes.filter (fun n => n.slot != slot) } }

/-- R142. -/
def NState.readable (t : NState) : Bool := t == .sealed || t == .demoting
def NState.present (t : NState) : Bool := t == .opened || t == .sealing || t == .sealed || t == .demoting

/-- A node of the name that is readable in this module's index. -/
def State.readableName (s : State) (ns : Word) (name : BitVec 128) : Option KNode :=
  s.crucible.nodes.find? (fun n => n.ns == ns && n.name == name && n.st.readable)

/-- The node of a name in this module's index: present there; a readable copy, a replica say, before one that is still OPEN or SEALING
(log 31). -/
def State.named (s : State) (ns : Word) (name : BitVec 128) : Option KNode :=
  (s.readableName ns name).or (s.crucible.nodes.find? (fun n => n.ns == ns && n.name == name && n.st.present))

/-- Fields of a handle (Table 6.5). -/
def hGen (h : Word) : BitVec 16 := h.extractLsb' 40 16
def hMid (h : Word) : Nat := fld h 32 8
def hSlot (h : Word) : Nat := fld h 0 26

/-- The handle of a node of module `mid`. -/
def KNode.handle (n : KNode) (mid : Nat) : Word := BitVec.ofNat 64 (n.gen.toNat * 2 ^ 40 + mid * 2 ^ 32 + n.slot)

/-- The node that a handle of this module names, if the handle is current (R145). -/
def State.current (s : State) (h : Word) : Option KNode :=
  if fld h 56 8 ≠ 0 ∨ fld h 26 6 ≠ 0 ∨ hMid h ≠ s.mid then none
  else match s.node (hSlot h) with
    | some n => if n.gen = hGen h ∧ n.st ≠ .free ∧ n.st ≠ .evicting then some n else none
    | none => none

/-- A node's parent: slots count from 1 here, 0 is the root. -/
def State.parent (s : State) (n : KNode) : Option KNode := if n.parent = 0 then none else s.node (n.parent - 1)

/-- The node and its ancestors, at most `fuel` of them. -/
def State.chain (s : State) : Nat → KNode → List KNode
  | 0, _ => []
  | f + 1, n => n :: (match s.parent n with
    | some p => s.chain f p
    | none => [])

/-- The ancestor at a depth, or the node itself. -/
def State.atDepth (s : State) (n : KNode) (d : Nat) : Option KNode := (s.chain n.depth n).find? (fun m => m.depth == d)

/-- The parent's name, zero at depth 1. -/
def State.parentName (s : State) (n : KNode) : BitVec 128 :=
  match s.parent n with
  | some p => p.name
  | none => 0

/-- Children present or evicting that name the node as parent. -/
def State.kids (s : State) (n : KNode) : List KNode := s.crucible.nodes.filter (fun m => m.parent == n.slot + 1 && m.st.present)

/-- The node lies on the chain of `m`. -/
def State.below (s : State) (n m : KNode) : Bool := (s.chain m.depth m).any (fun k => k.slot == n.slot)

/-! ### References, leases, holding (R147 to R150) -/

/-- A launch as the Crucible sees it: module, acceptance serial, ASID. -/
structure Caller where
  mod : Nat
  serial : Nat
  asid : BitVec 12
  deriving DecidableEq, Repr

/-- The key under which a node counts references of a launch of another module. -/
def Caller.key (w : Caller) : Nat := w.mod * 2 ^ 64 + w.serial

def KNode.refsOf (n : KNode) (mid : Nat) (w : Caller) : Nat :=
  if w.mod = mid then (lookupN w.serial n.refs).getD 0 else (lookupN w.key n.remoteRefs).getD 0

/-- The reference count, remote references included. -/
def KNode.refCount (n : KNode) : Nat := sumN (n.refs.map (fun e => e.2)) + sumN (n.remoteRefs.map (fun e => e.2))

/-- A lease has not expired. -/
def KNode.leased (n : KNode) (now : Word) : Bool := n.expiry != 0 && decide (now.toNat < n.expiry.toNat)

/-- References a launch of this module holds at once, on nodes of other modules too. -/
def State.refsHeld (s : State) (serial : Nat) : Nat :=
  sumN (s.crucible.nodes.map (fun n => (lookupN serial n.refs).getD 0)) +
  sumN ((s.crucible.held.filter (fun e => e.1 % 2 ^ 64 == serial)).map (fun e => e.2))

/-- The launch may take one more reference (R147). -/
def State.mayRef (s : State) (serial : Nat) : Bool := decide (s.refsHeld serial < 65536)

/-- Counts a reference on a node of module `m` that a launch of this module takes (`up`) or gives back. -/
def State.holdRemote (s : State) (m serial : Nat) (up : Bool) : State :=
  let k := m * 2 ^ 64 + serial
  let c := (lookupN k s.crucible.held).getD 0
  let c' := if up then c + 1 else c - 1
  { s with crucible := { s.crucible with held := if c' = 0 then eraseN k s.crucible.held else insertN k c' s.crucible.held } }

/-- Takes a reference, or fails at a limit (R147); of a launch of another module that module tests the launch's own limit. -/
def State.takeRef (s : State) (w : Caller) (n : KNode) : Option State :=
  if 65535 ≤ n.refCount ∨ (w.mod = s.mid ∧ !s.mayRef w.serial) then none
  else if w.mod = s.mid then some (s.setNode { n with refs := insertN w.serial (n.refsOf s.mid w + 1) n.refs })
  else some (s.setNode { n with remoteRefs := insertN w.key (n.refsOf s.mid w + 1) n.remoteRefs })

/-- A node with one reference of a launch fewer. -/
def KNode.unref (n : KNode) (mid : Nat) (w : Caller) : KNode :=
  let k := n.refsOf mid w - 1
  if w.mod = mid then { n with refs := if k = 0 then eraseN w.serial n.refs else insertN w.serial k n.refs }
  else { n with remoteRefs := if k = 0 then eraseN w.key n.remoteRefs else insertN w.key k n.remoteRefs }

/-- The owner launch (R146). -/
def KNode.ownedBy (n : KNode) (mid : Nat) (w : Caller) : Bool := n.st == .opened && w.mod == mid && n.owner == w.serial && n.asid == w.asid

/-- A launch holds a node (R150). -/
def State.holds (s : State) (w : Caller) (n : KNode) : Bool :=
  n.ownedBy s.mid w ||
  s.crucible.nodes.any (fun m => m.st.present && (decide (0 < m.refsOf s.mid w) || m.leased s.regs.m.tbase) && s.below n m)

/-! ### Space (R139, R158) -/

def granulesOf (bytes : Nat) : Nat := (bytes + 16383) / 16384

/-- Granules of a node's blocks: four of each until it is sealed. -/
def KNode.size (n : KNode) : Nat := sumN (n.blocks.map (fun b => b.granules.length))

/-- Every granule that a node keeps: of its blocks, of copies under way, and of its old tier until the pins taken before are
released (R159). -/
def KNode.granules (n : KNode) : List Nat := n.blocks.flatMap (fun b => b.granules ++ b.next) ++ n.old

/-- Granules a node keeps in a tier. -/
def KNode.inTier (n : KNode) (cxl : Bool) : Nat :=
  let next := sumN (n.blocks.map (fun b => b.next.length))
  if cxl then (if n.cxl then n.size else next) else (if n.cxl then n.old.length else n.size)

def State.tierUsed (s : State) (cxl : Bool) : Nat := sumN (s.crucible.nodes.map (fun n => n.inTier cxl))
/-- The first granule of a tier (15 R331). -/
def State.tierBase (s : State) (cxl : Bool) : Nat := (if cxl then fld s.regs.m.crcxl 30 22 else fld s.regs.m.crhbm 30 22) * 65536
def State.tierCap (s : State) (cxl : Bool) : Nat :=
  if cxl then fld s.regs.m.crcxl 52 12 * 8 * 65536 else fld s.regs.m.crhbm 52 12 * 65536
/-- Frames that take no new granule: bad ones, and those of a migration until its remap is gone (16 R358). -/
def State.lostFrames (s : State) : List Nat :=
  (s.memory.badFrames ++ s.memory.remaps.flatMap (fun e => [e.1, e.2]) ++ (match s.memory.busyFrame with
    | some e => [e.1, e.2]
    | none => [])).foldl (fun l f => insertSet f l) []

def State.usedGranules (s : State) : List Nat := s.crucible.nodes.flatMap KNode.granules

/-- Granules of lost frames in a tier that nothing uses. -/
def State.tierLost (s : State) (cxl : Bool) : Nat :=
  let b := s.tierBase cxl
  let used := s.usedGranules
  sumN ((s.lostFrames.filter (fun f => decide (b ≤ 4 * f) && decide (4 * f < b + s.tierCap cxl))).map (fun f =>
    ((List.range 4).filter (fun i => !used.contains ((4 * f + i) * 16384))).length))

def State.tierFree (s : State) (cxl : Bool) : Nat := s.tierCap cxl - (s.tierUsed cxl + s.tierLost cxl)

/-- The first `need` granules from g on that are not taken, in at most `fuel` trials. -/
def firstGranules (taken : Nat → Bool) : Nat → Nat → Nat → List Nat
  | 0, _, _ => []
  | f + 1, g, need =>
    if need = 0 then [] else if taken g then firstGranules taken f (g + 1) need
    else g * 16384 :: firstGranules taken f (g + 1) (need - 1)

/-- Granules for an allocation: the lowest free ones of the tier (log 54). -/
def State.grab (s : State) (cxl : Bool) (need : Nat) : List Nat :=
  let used := s.usedGranules
  let lost := s.lostFrames
  firstGranules (fun g => used.contains (g * 16384) || lost.contains (g / 4)) (need + used.length + 4 * lost.length) (s.tierBase cxl) need

/-- Pressure at or above, and above, a mark in units of 1/1,024. -/
def State.pressureAt (s : State) (cxl : Bool) (mark : Nat) : Bool := decide (mark * s.tierCap cxl ≤ s.tierUsed cxl * 1024)
def State.pressureOver (s : State) (cxl : Bool) (mark : Nat) : Bool := decide (mark * s.tierCap cxl < s.tierUsed cxl * 1024)

def markLow (w : Word) : Nat := fld w 0 11
def markHigh (w : Word) : Nat := fld w 11 11
def markBreak (w : Word) : Nat := fld w 22 11
def markCxl (w : Word) : Nat := fld w 33 11

/-- R158. -/
def State.evictable (s : State) (n : KNode) : Bool :=
  n.st == .sealed && n.refCount == 0 && n.pins.isEmpty &&
  (s.kids n).all (fun k => n.cxl == false && k.cxl) &&
  (n.cxl || (s.kids n).isEmpty || decide (n.size ≤ s.tierFree true))

/-- The earlier victim by (expiry, node id). -/
def victimMin (a b : KNode) : KNode :=
  if b.expiry.toNat < a.expiry.toNat ∨ (b.expiry = a.expiry ∧ b.name.toNat < a.name.toNat) then b else a

def pickVictim : List KNode → Option KNode
  | [] => none
  | n :: ns => some (ns.foldl victimMin n)

/-- The evictable nodes of a tier; with `leaf` those without children, whose drop frees an index slot. -/
def State.victims (s : State) (cxl leaf : Bool) : List KNode :=
  s.crucible.nodes.filter (fun n => n.cxl == cxl && s.evictable n && (!leaf || (s.kids n).isEmpty))

/-- The first victim of E0, counted in EVICT0 (17 R363). -/
def State.victimE0 (s : State) (cxl leaf : Bool) : Option (KNode × State) :=
  let t := s.regs.telem
  (pickVictim ((s.victims cxl leaf).filter (fun n => !n.leased s.regs.m.tbase || n.bad))).map (fun n =>
    (n, { s with regs := { s.regs with telem := { t with evict0 := t.evict0 + 1 } } }))

/-- The first victim of E1 with HBM pressure at or above BREAK, counted in BRKCNT. -/
def State.victimE1 (s : State) (leaf : Bool) : Option (KNode × State) :=
  let t := s.regs.telem
  if s.pressureAt false (markBreak s.regs.m.crmark) then
    (pickVictim (s.victims false leaf)).map (fun n => (n, { s with regs := { s.regs with telem := { t with brkcnt := t.brkcnt + 1 } } }))
  else none

/-- NextVictim, with the counters EVICT0 and BRKCNT. -/
def State.nextVictim (s : State) (cxl : Bool) : Option KNode × State :=
  match (s.victimE0 cxl false).or (if cxl then none else s.victimE1 false) with
  | some r => (some r.1, r.2)
  | none => (none, s)

/-! ### Messages of the store between modules (log 9) -/

/-- A request between Crucibles: 0 probe, 1 register, 2 unregister, 3 command, 4 read, 5 node image with a pin, 6 unpin,
7 release all references of a launch, 8 become home, 9 a module's references and pins on a home copy, 10 the home has moved,
11 a check failed at a move. -/
structure KReq where
  op : Nat
  sub : Nat
  flags : Nat
  handle : Word
  arg : Word
  ns : Word
  serial : Nat
  asid : BitVec 12
  name : BitVec 128
  deriving DecidableEq, Repr

def KReq.bytes (r : KReq) : List Byte :=
  leBytes 1 r.op ++ leBytes 1 r.sub ++ leBytes 2 r.flags ++ leBytes 4 r.asid.toNat ++ leBytes 8 r.handle.toNat ++ leBytes 8 r.arg.toNat ++
  leBytes 8 r.ns.toNat ++ leBytes 8 r.serial ++ leBytes 16 r.name.toNat

def KReq.read (bs : List Byte) : KReq :=
  let at_ (k n : Nat) : Nat := leNat ((bs.drop k).take n)
  { op := at_ 0 1, sub := at_ 1 1, flags := at_ 2 2, asid := BitVec.ofNat 12 (at_ 4 4), handle := BitVec.ofNat 64 (at_ 8 8),
    arg := BitVec.ofNat 64 (at_ 16 8), ns := BitVec.ofNat 64 (at_ 24 8), serial := at_ 32 8, name := BitVec.ofNat 128 (at_ 40 16) }

/-- Sends a request of class node directory. -/
def State.sendK (s : State) (dst : Nat) (tag : BitVec 32) (r : KReq) : State := s.sendMsg (s.message dst 4 0 tag r.bytes)

/-- Sends bytes in answer to a request: pieces that carry the total length and their offset. -/
def State.answer (s : State) (dst : Nat) (tag : BitVec 32) (bs : List Byte) : State :=
  (List.range ((bs.length + 4031) / 4032)).foldl (fun s i =>
    s.sendMsg (s.message dst 1 0 tag
      (MemResp.bytes { code := 0, time := bs.length * 2 ^ 32 + i * 4032, data := (bs.drop (i * 4032)).take 4032 }))) s

/-! ### The node directory (R160 to R162) -/

/-- The module that keeps the directory of a name. -/
def State.dirMod (s : State) (name : BitVec 128) : Nat := name.toNat % (s.nmod + 1)

def State.kdir (s : State) (name : BitVec 128) : Option KDir := s.crucible.dir.find? (fun d => d.name == name)
def State.setKdir (s : State) (d : KDir) : State :=
  { s with crucible := { s.crucible with dir := s.crucible.dir.filter (fun e => e.name != d.name) ++ [d] } }
def State.dropKdir (s : State) (name : BitVec 128) : State :=
  { s with crucible := { s.crucible with dir := s.crucible.dir.filter (fun e => e.name != name) } }

/-- Registers a home (or, with `repl`, a replica) in this module's directory. Of two modules that seal one name, of which the spec is
silent, the later one becomes the home, and the earlier copy drops out of the directory: the model's choice (log 57). -/
def State.dirRegister (s : State) (name : BitVec 128) (mod : Nat) (h : Word) (repl : Bool) : State :=
  match s.kdir name with
  | none => s.setKdir ⟨name, mod, h, [], [], []⟩
  | some d => if repl then s.setKdir { d with replicas := insertN mod h d.replicas } else s.setKdir { d with home := mod, handle := h, refs := [], pins := [] }

/-- The references and pins of a module on the home copy, as its holder reports them (R160); of another copy nothing is recorded. -/
def State.dirCounts (s : State) (name : BitVec 128) (holder m refs pins : Nat) : State :=
  match s.kdir name with
  | none => s
  | some d =>
    if d.home ≠ holder then s
    else s.setKdir { d with refs := if refs = 0 then eraseN m d.refs else insertN m refs d.refs,
                            pins := if pins = 0 then eraseN m d.pins else insertN m pins d.pins }

/-- The key of a pin that a command of module m took: local ones are the command's own number. -/
def remotePin (m id : Nat) : Nat := (m + 1) * 2 ^ 64 + id

/-- Tells the directory how many references and pins module m has on a home copy here (R160); on a replica it records none. -/
def State.noteRemote (s : State) (slot m : Nat) : State :=
  match s.node slot with
  | none => s
  | some n =>
    let refs := sumN ((n.remoteRefs.filter (fun e => e.1 / 2 ^ 64 == m)).map (fun e => e.2))
    let pins := (n.pins.filter (fun p => p / 2 ^ 64 == m + 1)).length
    if n.repl then s
    else if s.dirMod n.name = s.mid then s.dirCounts n.name s.mid m refs pins
    else s.sendK (s.dirMod n.name) 0 ⟨9, m, 0, 0, BitVec.ofNat 64 (refs + pins * 2 ^ 32), 0, 0, 0, n.name⟩

/-- Tells the directory of every module that has a reference or a pin on the copy here. -/
def State.noteAll (s : State) (n : KNode) : State :=
  ((n.remoteRefs.map (fun (e : Nat × Nat) => e.1 / 2 ^ 64) ++ (n.pins.filter (fun p => decide (2 ^ 64 ≤ p))).map (fun p => p / 2 ^ 64 - 1)).foldl
    (fun l m => insertSet m l) []).foldl (fun s m => s.noteRemote n.slot m) s

/-- The home of a name is module m now, as the holders of its copies learn; a new home reports what other modules hold on its copy. -/
def State.homeMoved (s : State) (name : BitVec 128) (m : Nat) : State :=
  let mine (n : KNode) : Bool := n.name == name && n.st.readable
  let s1 := { s with crucible := { s.crucible with nodes := s.crucible.nodes.map (fun (n : KNode) =>
      if mine n then { n with home := m, repl := m != s.mid } else n) } }
  if m = s.mid then (s1.crucible.nodes.filter mine).foldl State.noteAll s1 else s1

/-- The lowest-numbered replica becomes the home (DIRECTORY_HOME_MOVE); its module and those of the other replicas are told.
Without one the entry goes. -/
def State.dirMoveHome (s : State) (d : KDir) : State :=
  match d.replicas with
  | [] => s.dropKdir d.name
  | r :: rest =>
    let low := rest.foldl (fun a b => if b.1 < a.1 then b else a) r
    let left := eraseN low.1 d.replicas
    let s1 := s.setKdir { d with home := low.1, handle := low.2, replicas := left, refs := [], pins := [] }
    (low :: left).foldl (fun s e =>
      if e.1 = s.mid then s.homeMoved d.name low.1
      else s.sendK e.1 0 ⟨if e.1 = low.1 then 8 else 10, low.1, 0, 0, 0, 0, 0, 0, d.name⟩) s1

/-- The copy under a handle is dropped: a replica's registration is removed, a home moves. -/
def State.dirDrop (s : State) (name : BitVec 128) (h : Word) : State :=
  match s.kdir name with
  | none => s
  | some d => if d.handle = h then s.dirMoveHome d else s.setKdir { d with replicas := d.replicas.filter (fun e => e.2 != h) }

/-- Tells the directory that a copy was sealed or replicated here. -/
def State.register (s : State) (n : KNode) : State :=
  if s.dirMod n.name = s.mid then s.dirRegister n.name s.mid (n.handle s.mid) n.repl
  else s.sendK (s.dirMod n.name) 0 ⟨1, n.repl.toNat, 0, n.handle s.mid, 0, n.ns, 0, 0, n.name⟩

/-- Tells the directory that this module's copy is dropped. -/
def State.unregister (s : State) (n : KNode) : State :=
  if s.dirMod n.name = s.mid then s.dirDrop n.name (n.handle s.mid)
  else s.sendK (s.dirMod n.name) 0 ⟨2, 0, 0, n.handle s.mid, 0, n.ns, 0, 0, n.name⟩

/-! ### Blocks in memory (R139, R141) -/

/-- Where the header of layer l stands (Table 6.2). -/
def KNode.header (n : KNode) (l : Nat) : Nat := n.hdr + 512 * l

/-- A field of a block's header. -/
def State.hdrNum (s : State) (n : KNode) (b : Block) (off len : Nat) : Nat := s.homeNum (n.header b.layer + off) len
/-- FORM, PBYTES and RANKS. -/
def State.tempered (s : State) (n : KNode) (b : Block) : Bool := s.hdrNum n b 50 1 == 1
def State.pbytes (s : State) (n : KNode) (b : Block) : Nat := s.hdrNum n b 52 4
def State.rank (s : State) (n : KNode) (b : Block) (c : Nat) : Nat := s.hdrNum n b (64 + c) 1
/-- TOKENS of layer 0's header, as bytes. -/
def State.nodeTokens (s : State) (n : KNode) (bt : Nat) : List Byte := s.homeRead (n.header 0 + 256) (4 * bt)

/-- A layer-block header of Table 6.2. -/
def headerBytes (check : Word) (name parent : BitVec 128) (ns : Word) (layer form pbytes : Nat) (ranks toks : List Byte) : List Byte :=
  leBytes 8 check.toNat ++ leBytes 16 name.toNat ++ leBytes 16 parent.toNat ++ leBytes 8 ns.toNat ++ leBytes 2 layer ++ leBytes 1 form ++ [0] ++
  leBytes 4 pbytes ++ leBytes 8 0 ++ ranks ++ List.replicate 128 0 ++ padTo 256 toks

/-- Pieces of an extent of a block's payload: physical address, offset in the extent, length. -/
def Block.spans (b : Block) (off n : Nat) : List (Nat × Nat × Nat) :=
  b.granules.zipIdx.filterMap (fun e =>
    let lo := max off (16384 * e.2)
    let hi := min (off + n) (16384 * e.2 + 16384)
    if lo < hi then some (e.1 + lo - 16384 * e.2, lo - off, hi - lo) else none)

/-- Bytes of a payload. -/
def State.blockGet (s : State) (b : Block) (off n : Nat) : List Byte := (b.spans off n).flatMap (fun e => s.homeRead e.1 e.2.2)
/-- A byte of an extent cannot be corrected. -/
def State.blockUe (s : State) (b : Block) (off n : Nat) : Bool := (b.spans off n).any (fun e => s.poisoned e.1 e.2.2)
/-- The extent's lines enter their home slices (05 R375). -/
def State.blockTouch (s : State) (b : Block) (off n : Nat) : State := (b.spans off n).foldl (fun s e => (s.homeFetch e.1 e.2.2).2) s
/-- Writes bytes of a payload. -/
def State.blockPut (s : State) (b : Block) (off : Nat) (bs : List Byte) : State :=
  (b.spans off bs.length).foldl (fun s e => s.homePut e.1 ((bs.drop e.2.1).take e.2.2)) s
/-- The stored payload of a block. -/
def State.payload (s : State) (n : KNode) (b : Block) : List Byte := s.blockGet b 0 (s.pbytes n b)
/-- The check of a block agrees with its data (R141). -/
def State.blockGood (s : State) (n : KNode) (b : Block) : Bool :=
  !s.blockUe b 0 (s.pbytes n b) && s.hdrNum n b 0 8 == (blockCheck n.name b.layer (s.payload n b)).toNat

/-! ### Eviction (R158, R159) -/

/-- EVICT_FREE: an EVICTING node whose earlier pins are released is FREE. -/
def State.settleEvict (s : State) (slot : Nat) : State :=
  match s.node slot with
  | some n => if n.st = .evicting ∧ n.evictPins.isEmpty then s.dropNode slot else s
  | none => s

/-- SEALED to EVICTING; the directory learns of it. -/
def State.evict (s : State) (n : KNode) : State :=
  ((s.setNode { n with st := .evicting, evictPins := n.evictPins ++ n.pins }).unregister n).settleEvict n.slot

/-- Dispose: a demotion starts (true), with granules of the CXL tier for it, or the node is dropped. -/
def State.dispose (s : State) (n : KNode) : Bool × State :=
  if !n.cxl && decide (0 < s.tierCap true) &&
     (!s.pressureAt true (markCxl s.regs.m.crmark) || (s.kids n).any (fun k => k.cxl)) && decide (n.size ≤ s.tierFree true) then
    let g := s.grab true n.size
    let at_ (i : Nat) : Nat := sumN ((n.blocks.take i).map (fun b => b.granules.length))
    (true, s.setNode { n with st := .demoting, blocks := n.blocks.zipIdx.map (fun e => { e.1 with next := (g.drop (at_ e.2)).take e.1.granules.length }) })
  else (false, s.evict n)

/-- How a reclaim went: space is there, none can be made, or a demotion must end first. -/
inductive Reclaim where
  | done | fail | wait
  deriving DecidableEq, Repr

/-- Reclaim(HBM, need) until a demotion has to be awaited. -/
def State.reclaimFor (need : Nat) : Nat → State → Reclaim × State
  | 0, s => (.fail, s)
  | f + 1, s =>
    if need ≤ s.tierFree false then (.done, s)
    else if s.crucible.nodes.any (fun n => n.st == .demoting) then (.wait, s)
    else
      let v := s.nextVictim false
      match v.1 with
      | none => (.fail, v.2)
      | some n =>
        let d := v.2.dispose n
        if d.1 then (.wait, d.2) else State.reclaimFor need f d.2

/-- The running HBM walk goes on until pressure is at most LOW, no victim remains, or a demotion must end. -/
def State.walkOn : Nat → State → State
  | 0, s => s
  | f + 1, s =>
    if !s.crucible.walkHbm then s
    else if !s.pressureOver false (markLow s.regs.m.crmark) then { s with crucible := { s.crucible with walkHbm := false } }
    else if s.crucible.nodes.any (fun n => n.st == .demoting) then s
    else
      let v := s.nextVictim false
      match v.1 with
      | none => { v.2 with crucible := { v.2.crucible with walkHbm := false } }
      | some n => State.walkOn f (v.2.dispose n).2

/-- The CXL walk: by drop only, candidates E0. -/
def State.walkCxlOn : Nat → State → State
  | 0, s => s
  | f + 1, s =>
    if !s.pressureOver true (markCxl s.regs.m.crmark) then { s with crucible := { s.crucible with walkCxl := false } }
    else
      let v := s.nextVictim true
      match v.1 with
      | none => { v.2 with crucible := { v.2.crucible with walkCxl := false } }
      | some n => State.walkCxlOn f (v.2.evict n)

/-- RECLAIM_TEST with the walks it begins. -/
def State.reclaimTest (s : State) : State :=
  let fuel := s.crucible.nodes.length + 1
  let s1 := if !s.crucible.walkHbm && s.pressureAt false (markHigh s.regs.m.crmark) && decide (0 < s.tierCap false) then
      { s with crucible := { s.crucible with walkHbm := true } } else s
  let s2 := State.walkOn fuel s1
  if s2.pressureOver true (markCxl s2.regs.m.crmark) then State.walkCxlOn fuel { s2 with crucible := { s2.crucible with walkCxl := true } } else s2

/-- A pin is released: granules and EVICTING slots that waited for it are freed, those of ancestors too. -/
def State.releasePins (s : State) (slots : List Nat) (pin : Nat) : State :=
  let s1 := { s with crucible := { s.crucible with nodes := s.crucible.nodes.map (fun n =>
    let left := n.evictPins.erase pin
    { n with pins := if slots.contains n.slot then n.pins.erase pin else n.pins, evictPins := left,
             old := if left.isEmpty then [] else n.old }) } }
  (slots.foldl State.settleEvict s1).reclaimTest

/-- The pins that hold the chain of a node: its own and those of its descendants (R149). -/
def State.chainPins (s : State) (n : KNode) : List Nat := (s.crucible.nodes.filter (s.below n)).flatMap KNode.pins

/-- A node as a command with a pin reads it: one whose pin was taken before the demotion reads the granules of the old tier (R159). -/
def KNode.seenBy (n : KNode) (pin : Option Nat) : KNode :=
  if n.old.isEmpty || !pin.any (fun p => n.evictPins.contains p) then n
  else
    let at_ (i : Nat) : Nat := sumN ((n.blocks.take i).map (fun b => b.granules.length))
    { n with blocks := n.blocks.zipIdx.map (fun e => { e.1 with granules := (n.old.drop (at_ e.2)).take e.1.granules.length }) }

/-! ### OPEN nodes -/

/-- The next generation of a slot, skipping 0. -/
def State.nextGen (s : State) (slot : Nat) : BitVec 16 :=
  let g := (lookupN slot s.crucible.gens).getD 0 + 1
  if g = 0 then 1 else g

/-- The lowest slot that is FREE. -/
def State.freeSlot (s : State) : Nat :=
  ((List.range (s.crucible.nodes.length + 1)).find? (fun k => (s.node k).isNone)).getD 0

/-- Where the headers of one more node of a namespace may stand: the first place of its region that no node has (15 R333). -/
def State.headerPlace (s : State) (p : NSpace) : Option Nat :=
  let mine := s.crucible.nodes.filter (fun n => n.ns == p.ns)
  ((List.range (mine.length + 1)).map (fun i => p.hreg.toNat + 512 * p.nlayer * i)).find? (fun a =>
    decide (a + 512 * p.nlayer ≤ p.hreg.toNat + p.hlen.toNat) && !mine.any (fun n => n.hdr == a))

/-- An exhausted index gives a slot up: the next victim without children is dropped and counted (R158), of HBM before CXL (log 31). -/
def State.reclaimSlot (s : State) : Option State :=
  (((s.victimE0 false true).or (s.victimE0 true true)).or (s.victimE1 true)).map (fun r => r.2.evict r.1)

/-- A node leaves FREE. -/
def State.addNode (s : State) (n : KNode) : State :=
  { s with crucible := { s.crucible with nodes := s.crucible.nodes ++ [n], gens := insertN n.slot n.gen s.crucible.gens } }

/-- An OPEN node becomes FREE with every OPEN descendant (Table 6.4). -/
def State.freeOpen (s : State) (n : KNode) : State :=
  { s with crucible := { s.crucible with nodes := s.crucible.nodes.filter (fun m => !(m.st == .opened && s.below n m)) } }

/-- OWNER_NODES_FREE (R146, R147): at launch end its OPEN nodes become FREE and its references are released. -/
def State.launchNodes (s : State) (serial : Nat) (asid : BitVec 12) : State :=
  let own := s.crucible.nodes.filter (fun n => n.st == .opened && n.owner == serial && n.asid == asid)
  let s1 := own.foldl State.freeOpen s
  let s2 := { s1 with crucible := { s1.crucible with 
    nodes := s1.crucible.nodes.map (fun (n : KNode) => { n with refs := eraseN serial n.refs }),
    held := s1.crucible.held.filter (fun e => e.1 % 2 ^ 64 != serial) } }
  ((List.range (s.nmod + 1)).foldl (fun s m =>
    if m = s.mid then s else s.sendK m 0 ⟨7, 0, 0, 0, 0, 0, serial, asid, 0⟩) s2).reclaimTest

/-! ### Planes and chunks (R138, R144, R153) -/

/-- Where chunk c of a tempered block begins, and its length. -/
def State.chunkAt (s : State) (p : NSpace) (n : KNode) (b : Block) (c : Nat) : Nat × Nat :=
  let len (k : Nat) : Nat := if s.rank n b k = 0xFF then p.chunkBytes else 512 * s.rank n b k
  (sumN ((List.range c).map len), len c)

/-- The whole K plane of a tempered block. -/
def State.kLen (s : State) (p : NSpace) (n : KNode) (b : Block) : Nat := (s.chunkAt p n b p.chunks).1

/-- Element codes of a dense plane row cut at chunk c: 64 of them. -/
def chunkRow (p : NSpace) (bs : List Byte) (off t c : Nat) : List Nat :=
  (List.range 64).map (fun i => leNat ((bs.drop (off + t * p.rb + (64 * c + i) * p.eb)).take p.eb))

/-- Chunk c of a dense K plane as 64 columns over an identity (R144). -/
def chunkComps (p : NSpace) (bs : List Byte) (c : Nat) : Comps :=
  let rows := (List.range 64).map (fun t => if t < p.bt then (chunkRow p bs 0 t c).map (fun e => f32r (elemVal p.ty 0 e)) else List.replicate 64 0)
  (List.range 64).map (fun j => (rows.map (fun r => r.getD j 0), (List.range 64).map (fun i => if i = j then 0x3F800000 else 0)))

/-- Chunk c as sealing stores it: its RANKS byte and its bytes. -/
def sealChunk (p : NSpace) (bs : List Byte) (c : Nat) : Byte × List Byte :=
  let r := (temper p.kabs.toNat p.krel.toNat (chunkComps p bs c)).2
  if r.length ≤ p.krmax ∧ 512 * r.length < p.chunkBytes then
    (BitVec.ofNat 8 r.length, r.flatMap (fun e => (e.1 ++ e.2).flatMap (leBytes 4)))
  else (0xFF, (List.range p.bt).flatMap (fun t => (chunkRow p bs 0 t c).flatMap (leBytes p.eb)))

/-- A tempered block's payload and RANKS. -/
def temperBlock (p : NSpace) (bs : List Byte) : List Byte × List Byte :=
  let cs := (List.range p.chunks).map (sealChunk p bs)
  (cs.map (fun c => c.1) ++ List.replicate (64 - p.chunks) 0xFF, cs.flatMap (fun c => c.2) ++ bs.drop (p.bt * p.rb))

/-- The header of a block as sealing leaves it: CHECK, FORM, PBYTES, RANKS. -/
def State.sealHeader (s : State) (n : KNode) (layer form : Nat) (ranks payload : List Byte) : State :=
  let a := n.header layer
  ((s.homePut a (leBytes 8 (blockCheck n.name layer payload).toNat)).homePut (a + 50) (leBytes 1 form ++ [0] ++ leBytes 4 payload.length)).homePut
    (a + 64) ranks

/-- One layer block sealed (R144): tempered into granules of the pool, or dense with the granules beyond its payload freed. A block
with a byte that cannot be corrected stays where it is (log 54). -/
def State.sealBlock (s : State) (p : NSpace) (slot i : Nat) : State :=
  match s.node slot with
  | none => s
  | some n => match n.blocks[i]? with
    | none => s
    | some b =>
      let bs := s.blockGet b 0 p.payload
      let t := temperBlock p bs
      let need := granulesOf t.2.length
      let put (b' : Block) (s : State) : State := s.setNode { n with blocks := n.blocks.set i b' }
      let s0 := s.blockTouch b 0 p.payload
      if p.temper ∧ need ≤ s.tierFree false ∧ !s.blockUe b 0 p.payload then
        let b' := { b with granules := s.grab false need }
        put b' ((s0.blockPut b' 0 t.2).sealHeader n b.layer 1 t.1 t.2)
      else put { b with granules := b.granules.take (granulesOf p.payload) } (s0.sealHeader n b.layer 0 (List.replicate 64 0xFF) bs)

/-- The extents of the payload that a row of a plane is read from. -/
def State.rowExt (s : State) (p : NSpace) (n : KNode) (b : Block) (v : Bool) (t : Nat) : List (Nat × Nat) :=
  if s.tempered n b then
    if v then [(s.kLen p n b + t * p.rb, p.rb)]
    else (List.range p.chunks).map (fun c =>
      let at_ := s.chunkAt p n b c
      if s.rank n b c = 0xFF then (at_.1 + t * 64 * p.eb, 64 * p.eb) else at_)
  else [((if v then p.bt * p.rb else 0) + t * p.rb, p.rb)]

/-- A row of a plane of a block, as KLD delivers it in rows form (R153); a row of an OPEN node that was not written reads zero. -/
def State.blockRow (s : State) (p : NSpace) (n : KNode) (b : Block) (v : Bool) (t : Nat) : List Byte :=
  if n.st = .opened ∧ !n.written.contains (2 * b.layer + v.toNat, t) then List.replicate p.rb 0
  else if s.tempered n b && !v then
    (List.range p.chunks).flatMap (fun c =>
      let at_ := s.chunkAt p n b c
      if s.rank n b c = 0xFF then s.blockGet b (at_.1 + t * 64 * p.eb) (64 * p.eb)
      else
        let cs := compsOf (s.rank n b c) (s.blockGet b at_.1 at_.2)
        (List.range 64).flatMap (fun j => leBytes p.eb (toElem p.ty rne 0 (factoredElem cs t j))))
  else (s.rowExt p n b v t).flatMap (fun e => s.blockGet b e.1 e.2)

/-- The extents that chunk c in factor form is read from. -/
def State.factorExt (s : State) (p : NSpace) (n : KNode) (b : Block) (v : Bool) (c : Nat) : List (Nat × Nat) :=
  if s.tempered n b ∧ !v ∧ s.rank n b c ≠ 0xFF then [s.chunkAt p n b c]
  else (List.range p.bt).flatMap (fun t => (s.rowExt p n b v t).drop (if s.tempered n b && !v then c else 0) |>.take 1)

/-- Factor form of chunk c: the rank word, then from byte 512 the components or the dense tile; bytes with their offsets. -/
def State.blockFactor (s : State) (p : NSpace) (n : KNode) (b : Block) (v : Bool) (c : Nat) : List (Nat × List Byte) :=
  let r := if s.tempered n b ∧ !v then s.rank n b c else 0xFF
  if r = 0xFF then
    let rows := (List.range 64).flatMap (fun t => if t < p.bt then ((s.blockRow p n b v t).drop (64 * c * p.eb)).take (64 * p.eb) else List.replicate (64 * p.eb) 0)
    [(0, leBytes 8 0xFF), (512, rows)]
  else
    let at_ := s.chunkAt p n b c
    [(0, leBytes 8 r), (512, s.blockGet b at_.1 at_.2)]

/-- Every row of every plane of every layer was written. -/
def KNode.complete (n : KNode) (p : NSpace) : Bool :=
  (List.range p.nlayer).all (fun l => (List.range 2).all (fun pl => (List.range p.bt).all (fun t => n.written.contains (2 * l + pl, t))))

/-! ### Events of the store -/

/-- SEAL_COMPLETE (R143, R144): checks, tempering and publication. -/
def execSealComplete (slot : Nat) (s : State) : Host.Outcome State Fault Refusal :=
  enabledOr "SEAL_COMPLETE" (match s.node slot with
    | none => none
    | some n =>
      let parentOk := match s.parent n with
        | some q => q.st.readable
        | none => true
      if n.st ≠ .sealing ∨ n.repl ∨ !parentOk then none
      else match s.space n.ns with
        | none => none
        | some p =>
          let s1 := (List.range n.blocks.length).foldl (fun s i => s.sealBlock p slot i) s
          match s1.node slot with
          | none => none
          | some m =>
            let n' := { m with st := .sealed, owner := 0, home := s.mid }
            some ((s1.setNode n').register n').reclaimTest)

/-- DEMOTE_COMPLETE (R141, R143, R159): the copy's check is compared; DEMOTE counts. -/
def execDemoteComplete (slot : Nat) (s : State) : Host.Outcome State Fault Refusal :=
  enabledOr "DEMOTE_COMPLETE" (match s.node slot with
    | none => none
    | some n =>
      if n.st ≠ .demoting then none
      else
        let t := s.regs.telem
        let s1 := if n.blocks.all (fun b => s.blockGood n b) then
            let s1 := n.blocks.foldl (fun s b => (s.blockTouch b 0 (s.pbytes n b)).blockPut { b with granules := b.next } 0 (s.payload n b)) s
            { s1.setNode { n with
                st := .sealed, cxl := true, blocks := n.blocks.map (fun b => { b with granules := b.next, next := [] }),
                old := if (s.chainPins n).isEmpty then [] else n.blocks.flatMap (fun (b : Block) => b.granules), evictPins := s.chainPins n } with
              regs := { s1.regs with telem := { t with demote := t.demote + 1 } } }
          else s.setNode { n with st := .sealed, bad := true, blocks := n.blocks.map (fun b => { b with next := [] }) }
        some s1.reclaimTest)

/-- LEASE_EXPIRE (R148): the expiry has passed; a reclaim test follows. -/
def execLeaseExpire (slot : Nat) (s : State) : Host.Outcome State Fault Refusal :=
  enabledOr "LEASE_EXPIRE" (match s.node slot with
    | none => none
    | some n => if n.expiry ≠ 0 ∧ n.expiry.toNat ≤ s.regs.m.tbase.toNat then some s.reclaimTest else none)

/-- This module masters the time base. -/
def State.isMaster (s : State) : Bool := s.regs.m.domain.getLsbD 63 || s.domain.master == some s.mid

end Sys2Proof.Machine
end

