-- ==== Sys2Proof/Machine/Hearth.lean ====
section
/-! DEFINITION. Hearth: launch queues and records (02 R29 to R33; 15 R318 to R322), the task graph (02 R34 to R37), dispatch
(02 R38 to R41, R57), the entry of a task (02 R42 to R44; 14 R303 to R306) and its retirement (02 R52 to R54). -/
namespace Sys2Proof.Machine
open Sys2Proof

/-! ### Hearth's own accesses -/

/-- What Hearth has read and asked for on behalf of a reader. -/
def State.reading (s : State) (who : Reader) : HRead := (s.hearth.reads.find? (fun r => r.who == who)).getD ⟨who, [], [], false⟩
def State.setReading (s : State) (r : HRead) : State :=
  { s with hearth := { s.hearth with reads := s.hearth.reads.filter (fun k => k.who != r.who) ++ [r] } }
def State.endRead (s : State) (who : Reader) : State :=
  { s with hearth := { s.hearth with reads := s.hearth.reads.filter (fun k => k.who != who) } }
/-- A reader awaits other modules. -/
def State.readWaits (s : State) (who : Reader) : Bool := !(s.reading who).asks.isEmpty

/-- The outcome of a read: bytes, a translation fault or another error with the address, or a wait. -/
inductive HRes where
  | ok (bs : List Byte)
  | fault (va : Nat)
  | error (va : Nat)
  | wait
  deriving DecidableEq, Repr

/-- The address of a failed read. -/
def HRes.failed : HRes → Option Nat
  | .fault a | .error a => some a
  | _ => none

/-- Reads bytes through an ASID at their homes, those of other modules by requests (05 R135). It waits for their answers, and while
a home answers RETRY (05 R133). -/
def State.hearthRead (s : State) (who : Reader) (asid : BitVec 12) (k : AccKind) (va n : Nat) : HRes × State :=
  let r := s.segments asid k va n
  match r.1 with
  | .fault a => (.fault a, r.2)
  | .busy _ => (.wait, s)
  | .error _ done => (.error (va + sumN (done.map (fun g => g.len))), r.2)
  | .ok l =>
    let rd := r.2.reading who
    if !l.all (fun g => match g.place with
      | .home pa => r.2.homeFree pa g.len
      | _ => true) || !rd.asks.isEmpty then (.wait, s)
    else if !l.all (hasGot rd.got) then
      if rd.lost then (.error (va + sumN ((l.takeWhile (hasGot rd.got)).map (fun g => g.len))), r.2)
      else
        let q := r.2.askSegs r.2.regs.m.tbase.toNat (l.filter (fun g => !hasGot rd.got g))
        (.wait, q.2.setReading { rd with asks := q.1 })
    else
      l.foldl (fun (acc : HRes × State) g =>
        match acc.1 with
        | .ok bs =>
          match g.place with
          | .home pa =>
            if acc.2.poisoned pa g.len then (.error g.va, acc.2)
            else
              let q := acc.2.homeFetch pa g.len
              (.ok (bs ++ q.1), q.2)
          | .host pa =>
            let s1 := (lineParts pa g.len).foldl (fun s l => s.hostFill l.1) acc.2
            (.ok (bs ++ (lineParts pa g.len).flatMap (fun l => s1.hostBytes l.1 l.2.1 l.2.2)), s1)
          | .remote m pa => (.ok (bs ++ (List.range g.len).map (fun i => (lookupN (remoteBase + m * 2 ^ 52 + pa + i) rd.got).getD 0)), acc.2)
        | _ => acc) (.ok [], r.2)

/-- A write can go ahead now: no home that it needs answers RETRY. -/
def State.hearthFree (s : State) (asid : BitVec 12) (va n : Nat) : Bool :=
  match (s.segments asid .write va n).1 with
  | .busy _ => false
  | .ok l => l.all (fun g => match g.place with
      | .home pa => s.homeFree pa g.len
      | _ => true)
  | _ => true

/-- A write under an ASID whose home has yet to answer: a kill of the ASID and a shootdown wait for it (15 R330; 16 R355 step 4). -/
def State.awaitWrite (s : State) (asid : BitVec 12) (tag : BitVec 32) : State :=
  { s with hearth := { s.hearth with writes := s.hearth.writes ++ [(tag, asid)] } }

/-- Writes bytes through an ASID at their homes, with their fan-outs; what cannot be reached is not written. -/
def State.hearthWrite (s : State) (asid : BitVec 12) (va : Nat) (bs : List Byte) : State :=
  let r := s.segments asid .write va bs.length
  match r.1 with
  | .ok l =>
    l.foldl (fun s g =>
      let part := (bs.drop (g.va - va)).take g.len
      match g.place with
      | .home pa => s.homePut pa part
      | .host pa => (lineParts pa g.len).foldl (fun s l =>
          s.hostPut asid l.1 l.2.1 ((part.drop (l.1 * 128 + l.2.1 - pa)).take l.2.2)) s
      | .remote m pa =>
        let t := s.takeTag m
        if (t.2.route m).isNone then s
        else (t.2.awaitWrite asid t.1).sendMsg (t.2.message m 0 0 t.1 (MemReq.bytes ⟨1, 0, part.length, false, pa, 0, 0, s.regs.m.tbase.toNat, part⟩))) r.2
  | _ => r.2

/-- A little-endian number in a list of bytes. -/
def numAt (bs : List Byte) (k n : Nat) : Nat := leNat ((bs.drop k).take n)
/-- Bytes `k` to `k + n − 1` are zero. -/
def zeroAt (bs : List Byte) (k n : Nat) : Bool := ((bs.drop k).take n).all (fun b => b == 0)

/-! ### The graph's checks (R35, R319, R321, R322) -/

/-- A node as read, with its malformed or out-of-range fields refused; `n` nodes, defaults from the launch. -/
def parseNode (n : Nat) (l : Launch) (bs : List Byte) : Option GNode :=
  let succ (k : Nat) : Option Nat := if numAt bs k 2 = 0xFFFF then none else some (numAt bs k 2)
  let good := (succ 4).all (fun k => decide (k < n)) && (succ 6).all (fun k => decide (k < n))
  let mk (k : GKind) : GNode :=
    { kind := k, dep := numAt bs 2 2, left := numAt bs 2 2, succ0 := succ 4, succ1 := succ 6, iters := 0, firings := 0, ready := none,
      home := none, redispatches := 0, noRedo := false, running := 0, cluster := none }
  if !good then none
  else match numAt bs 0 1 with
    | 0 =>
      let g := if numAt bs 10 1 = 0 then l.g else numAt bs 10 1
      let m := if numAt bs 12 2 = 0 then l.cmax else numAt bs 12 2
      let d := numAt bs 1 1 % 2 = 1
      let pl := numAt bs 1 1 / 2
      if pl ≤ 2 ∧ (g = 1 ∨ g = 2 ∨ g = 4) ∧ zeroAt bs 11 1 ∧ zeroAt bs 14 2 ∧ zeroAt bs 24 8 ∧ numAt bs 16 8 % 8 = 0 ∧ m ≤ l.cmax ∧
         ¬(pl = 1 ∧ 8 < m * g) ∧ ¬(pl = 2 ∧ 88 < m * g) ∧ ¬(d ∧ l.dgrp = 0) then
        some (mk (.task pl d (numAt bs 8 2) g m (l.arg + BitVec.ofNat 64 (numAt bs 16 8))))
      else none
    | 1 => if zeroAt bs 1 1 ∧ numAt bs 8 8 % 8 = 0 ∧ zeroAt bs 16 16 then some (mk (.cond (BitVec.ofNat 64 (numAt bs 8 8)))) else none
    | 2 =>
      if zeroAt bs 1 1 ∧ numAt bs 6 2 = 0xFFFF ∧ numAt bs 8 8 % 8 = 0 ∧ zeroAt bs 22 10 ∧ numAt bs 18 2 < n ∧ 0 < numAt bs 20 2 then
        some (mk (.whileLoop (BitVec.ofNat 64 (numAt bs 8 8)) (numAt bs 16 2) (numAt bs 18 2) (numAt bs 20 2)))
      else none
    | 3 => if zeroAt bs 1 1 ∧ zeroAt bs 8 24 then some (mk .join) else none
    | _ => none

def GNode.succs (n : GNode) : List Nat := n.succ0.toList ++ n.succ1.toList

/-- Removes nodes without remaining predecessors; what remains after as many passes as nodes lies on a cycle. -/
def pruneGraph (edges : List (Nat × Nat)) : Nat → List Nat → List Nat
  | 0, left => left
  | f + 1, left => pruneGraph edges f (left.filter (fun k => edges.any (fun e => e.2 == k && left.contains e.1)))

/-- The while nodes: index, BODY, EXITJ. -/
def bodiesOf (ns : List GNode) : List (Nat × Nat × Nat) :=
  ns.zipIdx.filterMap (fun (e : GNode × Nat) => match e.1.kind with
    | .whileLoop _ b x _ => some (e.2, b, x)
    | _ => none)

def GNode.isJoin (n : GNode) : Bool :=
  match n.kind with
  | .join => true
  | _ => false

/-- R35's cycle check and R322. -/
def graphOk (ns : List GNode) : Bool :=
  let edges := ns.zipIdx.flatMap (fun (e : GNode × Nat) => e.1.succs.map (fun k => (e.2, k)))
  let bs := bodiesOf ns
  let inB (b : Nat × Nat × Nat) (k : Nat) : Bool := decide (b.2.1 ≤ k) && decide (k ≤ b.2.2)
  (pruneGraph edges ns.length (List.range ns.length)).isEmpty &&
  bs.all (fun b =>
    decide (b.2.1 < b.2.2) && !inB b b.1 && !inB b 0 &&
    (match ns[b.2.2]? with
     | some x => x.isJoin && x.succs.isEmpty
     | none => false) &&
    (ns.zipIdx.all (fun e => !inB b e.2 || (if e.2 = b.2.1 then e.1.dep == 1 else e.1.dep != 0))) &&
    edges.all (fun e => inB b e.1 == inB b e.2) &&
    bs.all (fun c => decide (c.2.2 < b.2.1) || decide (b.2.2 < c.2.1) ||
      (decide (b.2.1 ≤ c.2.1) && decide (c.2.2 ≤ b.2.2)) || (decide (c.2.1 ≤ b.2.1) && decide (b.2.2 ≤ c.2.2)))) &&
  (match ns with
   | n :: _ => n.dep == 0
   | [] => false)

/-! ### Firing nodes (R34, R36, R37) -/

def Launch.mod (l : Launch) (i : Nat) (f : GNode → GNode) : Launch := { l with nodes := updAt f i l.nodes }

/-- WHILE_ITERATION: body nodes return to their state at acceptance (R37). -/
def Launch.reload (l : Launch) (b x : Nat) : Launch :=
  { l with nodes := l.nodes.zipIdx.map (fun (e : GNode × Nat) =>
      if b ≤ e.2 ∧ e.2 ≤ x then { e.1 with left := e.1.dep, iters := 0, home := none } else e.1) }

/-- The 64-bit condition word, through the launch's ASID: none while the read waits. -/
def State.condWord (s : State) (l : Launch) (va : Word) : Option (Option Nat) × State :=
  let r := s.hearthRead (.cond l.serial) l.asid .read va.toNat 8
  match r.1 with
  | .wait => (none, r.2)
  | .ok bs => (some (some (leNat bs)), r.2.endRead (.cond l.serial))
  | _ => (some none, r.2.endRead (.cond l.serial))

/-- One item of work: what follows from it; none while a condition word is awaited. A word that cannot be read ends the launch
(R321; log 23). -/
def State.act (s : State) (l : Launch) : Act → Option (List Act × Launch) × State
  | .dec i home =>
    match l.nodes[i]? with
    | none => (some ([], l), s)
    | some n =>
      let l1 := l.mod i (fun n => { n with left := n.left - 1, home := home })
      if n.left ≠ 1 then (some ([], l1), s)
      else match n.kind with
        | .task _ _ _ _ _ _ =>
          (some ([], l1.mod i (fun n => { n with ready := some s.regs.m.tbase, firings := n.firings + 1, redispatches := 0, noRedo := false })), s)
        | .cond va =>
          let r := s.condWord l1 va
          match r.1 with
          | none => (none, r.2)
          | some none => (some ([], l1.stop 1 i), r.2)
          | some (some w) => (some ((if w ≠ 0 then n.succ0 else n.succ1).toList.map (fun k => .dec k home), l1), r.2)
        | .whileLoop _ _ _ _ => (some ([.go i home], l1), s)
        | .join =>
          (some ((bodiesOf l.nodes).filterMap (fun (b : Nat × Nat × Nat) => if b.2.2 = i then some (Act.go b.1 home) else none) ++
            n.succs.map (fun k => .dec k home), l1), s)
  | .go i home =>
    match l.nodes[i]? with
    | some n =>
      match n.kind with
      | .whileLoop va b x cap =>
        let r := s.condWord l va
        match r.1 with
        | none => (none, r.2)
        | some none => (some ([], l.stop 1 i), r.2)
        | some (some w) =>
          if w ≠ 0 ∧ n.iters < cap then (some ([.dec b home], (l.reload b x).mod i (fun n => { n with iters := n.iters + 1 })), r.2)
          else (some (n.succ0.toList.map (fun k => .dec k home), if w ≠ 0 then { l with capHit := true } else l), r.2)
      | _ => (some ([], l), s)
    | none => (some ([], l), s)

/-- Works a list off, at most `fuel` items; what awaits a condition word stays to do. A launch that stops fires nothing more. -/
def State.acts : Nat → State → Launch → List Act → Launch × State
  | 0, s, l, _ => (l, s)
  | _ + 1, s, l, [] => (l, s)
  | f + 1, s, l, a :: as =>
    if l.stopping then (l, s)
    else
      let r := s.act l a
      match r.1 with
      | none => ({ l with todo := a :: as }, r.2)
      | some q => State.acts f r.2 q.2 (q.1 ++ as)

/-- More items than any graph gives rise to between two task completions. -/
abbrev actFuel : Nat := 2 ^ 64

def State.launch (s : State) (serial : Nat) : Option Launch := s.hearth.launches.find? (fun l => l.serial == serial)
def State.setLaunch (s : State) (l : Launch) : State :=
  { s with hearth := { s.hearth with launches := s.hearth.launches.map (fun k => if k.serial = l.serial then l else k) } }

/-- Gives a launch work: behind what it still awaits. -/
def State.walkGraph (s : State) (l : Launch) (as : List Act) : State :=
  if l.todo.isEmpty then
    let w := s.acts actFuel l as
    w.2.setLaunch w.1
  else s.setLaunch { l with todo := l.todo ++ as }

/-- A launch whose work awaited a condition word goes on. -/
def State.resumeWalk (s : State) (l : Launch) : State :=
  if l.todo.isEmpty || l.stopping || s.readWaits (.cond l.serial) then s
  else
    let w := s.acts actFuel { l with todo := [] } l.todo
    w.2.setLaunch w.1

/-! ### Binding, as Hearth sees it (15 R313) -/

def gwOf (w : Word) : Nat :=
  match fld w 30 2 with
  | 0 => 0
  | 1 => 1
  | 2 => 2
  | _ => 4

def State.cbindOf (s : State) (c : Core) : Word := vget (s.stack c.stk).cbind c.fe 0
/-- Member g's slab entry. -/
def memberOf (w : Word) (g : Nat) : Nat := fld w (7 * g) 7
/-- Module cluster number and cluster position that the binding gives a core. -/
def State.cidOf (s : State) (c : Core) : Nat := 11 * c.stk + memberOf (s.cbindOf c) 0 / 8
def State.posOf (s : State) (c : Core) : Nat := memberOf (s.cbindOf c) 0 % 8

/-- ACL (17 R364). -/
def State.acl (s : State) : Nat := fld s.regs.telem.pwr 34 7

/-- A core that may be dispatched onto, of width g (R40). -/
def State.eligible (s : State) (g : Nat) (c : Core) : Bool :=
  let w := s.cbindOf c
  gwOf w == g && !w.getLsbD 63 && decide (s.cidOf c < s.acl) && !(s.stack c.stk).removed

/-- It is free: no task, not held or restoring, its weight-store gate open. -/
def State.freeCore (s : State) (g : Nat) (c : Core) : Bool :=
  s.eligible g c && c.task.isNone && !(s.stack c.stk).wsgate.getLsbD 0 && (c.cstate == 0 || (c.cstate == 5 && !c.drv.cctl.getLsbD 58))

/-- Clusters by (class, CID). -/
def clusterOrder (home : Option Nat) : List Nat :=
  match home with
  | none => List.range 88
  | some h => [h] ++ (List.range 88).filter (fun c => c != h && c / 11 == h / 11) ++ (List.range 88).filter (fun c => c / 11 != h / 11)

/-- The cores of a cluster with a property, by position. -/
def State.inCluster (s : State) (p : Core → Bool) (cid : Nat) : List Nat :=
  (List.range 8).filterMap (fun k => (s.cores.find? (fun c => p c && s.cidOf c == cid && s.posOf c == k)).map (fun c => c.cnum))

/-- Place over the cores with a property. -/
def State.place (s : State) (p : Core → Bool) (home : Option Nat) (pl n : Nat) : Option (List Nat) :=
  let order := clusterOrder home
  let pick (cs : List Nat) : Option (List Nat) :=
    let l := cs.flatMap (s.inCluster p)
    if n ≤ l.length then some (l.take n) else none
  match pl with
  | 0 => pick order
  | 1 => order.findSome? (fun c => pick [c])
  | _ => order.findSome? (fun c => pick (order.filter (fun d => d / 11 == c / 11)))

def GNode.pl (n : GNode) : Nat :=
  match n.kind with
  | .task pl _ _ _ _ _ => pl
  | _ => 0
def GNode.width (n : GNode) : Nat :=
  match n.kind with
  | .task _ _ _ g _ _ => g
  | _ => 0
def GNode.count (n : GNode) : Nat :=
  match n.kind with
  | .task _ _ _ _ m _ => m
  | _ => 0
def GNode.dom (n : GNode) : Bool :=
  match n.kind with
  | .task _ d _ _ _ _ => d
  | _ => false

/-- R40: it could not be placed even on all eligible cores. -/
def State.unplaceable (s : State) (n : GNode) : Bool := (s.place (s.eligible n.width) n.home n.pl n.count).isNone

/-- The undispatched ready tasks of a launch: index and node. -/
def Launch.waiting (l : Launch) : List (Nat × GNode) :=
  if l.stopping then [] else l.nodes.zipIdx.filterMap (fun (e : GNode × Nat) => if e.1.ready.isSome then some (e.2, e.1) else none)

/-- Cores that the launch holds. -/
def Launch.cores (l : Launch) : Nat := sumN (l.nodes.map (fun n => n.running))

/-- The ready tasks of a launch that may be considered: those that are not Unplaceable and leave it within CMAX (R32; log 55). -/
def State.readyTasks (s : State) (l : Launch) : List (Nat × GNode) :=
  l.waiting.filter (fun e => !s.unplaceable e.2 && decide (l.cores + e.2.count ≤ l.cmax))

def readySince (n : GNode) : Nat :=
  match n.ready with
  | some w => w.toNat
  | none => 0

/-- The oldest task of a list, ties to the lower index. -/
def oldestTask : List (Nat × GNode) → Option (Nat × GNode)
  | [] => none
  | t :: ts => some (ts.foldl (fun a b => if readySince b.2 < readySince a.2 then b else a) t)

/-- WaitStart and effective priority (R39), over every undispatched ready task. -/
def Launch.waitStart (l : Launch) : Nat :=
  max (match oldestTask l.waiting with
    | some t => readySince t.2
    | none => 0) l.lastDispatch.toNat

def State.effPri (s : State) (l : Launch) : Nat :=
  min 7 (l.pri + (s.regs.m.tbase.toNat - l.waitStart) / max 1 s.hearth.age.toNat)

/-! ### Dispatch -/

/-- The innermost while body that holds a node: its iteration number (R42). -/
def Launch.iterOf (l : Launch) (i : Nat) : Nat :=
  let bs := (bodiesOf l.nodes).filter (fun b => decide (b.2.1 ≤ i) && decide (i ≤ b.2.2))
  match bs with
  | [] => 0
  | b :: rest =>
    let inner := rest.foldl (fun a c => if c.2.2 - c.2.1 < a.2.2 - a.2.1 then c else a) b
    match l.nodes[inner.1]? with
    | some w => w.iters - 1
    | none => 0

/-- Inserts a core into a list ordered by cluster and position (R44). -/
def insertPos (k : Nat × Nat × Nat) : List (Nat × Nat × Nat) → List (Nat × Nat × Nat)
  | [] => [k]
  | a :: l => if k.1 < a.1 ∨ (k.1 = a.1 ∧ k.2.1 < a.2.1) then k :: a :: l else a :: insertPos k l

/-- GANG of a core from its stack's slab entries (01 R20). -/
def State.gangWord (s : State) (c : Core) : Word :=
  let w := s.cbindOf c
  (List.range (gwOf w)).foldl (fun v g => putFld v (16 * g) 16 (fld (vget (s.stack c.stk).slab (memberOf w g) 0) 0 16)) 0

def dmemWord (grp nmem idx : Nat) : Word := BitVec.ofNat 64 (grp % 2 ^ 20 * 2 ^ 40 + nmem * 2 ^ 20 + idx)

/-- Puts a task on a core: identity registers and task record (R38, R44). It has neither ended nor departed. -/
def State.assign (s : State) (l : Launch) (i : Nat) (n : GNode) (order : List (Nat × Nat × Nat)) (c : Core) : Core :=
  match order.findIdx? (fun e => e.2.2 == c.cnum) with
  | none => c
  | some k =>
    let cid := s.cidOf c
    let same := order.filter (fun e => e.1 == cid)
    let stk := order.filter (fun e => e.1 / 11 == c.stk)
    let at_ (l : List (Nat × Nat × Nat)) : Nat := (l.findIdx? (fun e => e.2.2 == c.cnum)).getD 0
    let pk := (l.serial * 4096 + i) % 2 ^ 20
    let m := n.count
    { c with
      g := n.width,
      ident :=
        { core := BitVec.ofNat 64 (c.cnum * 1024 + c.stk * 128 + c.fe), gang := s.gangWord c,
          cluster := BitVec.ofNat 64 (cid * 128 + cid % 11), stack := BitVec.ofNat 64 ((s.stack c.stk).inc.toNat * 65536 + c.stk),
          module := BitVec.ofNat 64 (fld s.regs.m.domain 32 16 * 2 ^ 32 + s.nmod * 65536 + s.mid),
          dmem := Vector.ofFn (fun (v : Fin 5) => match v.val with
            | 0 => dmemWord c.cnum 1 0
            | 1 => dmemWord cid same.length (at_ same)
            | 2 => dmemWord c.stk stk.length (at_ stk)
            | 3 => dmemWord pk m k
            | _ => if n.dom then dmemWord l.dgrp (l.dsize * m) (l.drank * m + k) else dmemWord pk m k) },
      task := some
        { serial := l.serial, node := i, asid := l.asid, idx := k, n := m, iter := l.iterOf i, firing := n.firings, dgrp := l.dgrp,
          pr := false, cbase := 0, clen := 0, image := l.image, ident := 0, started := false, entered := false, redone := false, team := order.map (fun e => e.2.2) },
      front := { c.front with ended := false, departed := false, held := false, holds := [], granted := false } }

/-- The groups of a task's cores with more than one member (R44, Table 2.3). -/
def State.formGroups (s : State) (l : Launch) (i : Nat) (n : GNode) (order : List (Nat × Nat × Nat)) : List BGroup :=
  let id (e : Nat × Nat × Nat) : Nat × Nat := (s.mid * 1024 + e.2.2, 0)
  let mk (lvl key nmem : Nat) (ms : List (Nat × Nat × Nat)) (formed : Bool) : BGroup :=
    { lvl := lvl, key := key, launch := l.serial, node := i, nmem := nmem, arrived := ms.map id, departed := [], remote := [], gen := 0,
      formed := formed, joined := [l.drank], told := [] }
  let cls := (order.map (fun e => e.1)).foldl (fun a k => insertSet k a) []
  let stks := (order.map (fun e => e.1 / 11)).foldl (fun a k => insertSet k a) []
  let pk := (l.serial * 4096 + i) % 2 ^ 20
  let all := cls.map (fun c => mk 1 c (order.filter (fun e => e.1 == c)).length (order.filter (fun e => e.1 == c)) true) ++
    stks.map (fun k => mk 2 k (order.filter (fun e => e.1 / 11 == k)).length (order.filter (fun e => e.1 / 11 == k)) true) ++
    [mk 3 pk n.count order true] ++
    [if n.dom then mk 4 (l.dgrp + 2 ^ 20 * n.firings) (l.dsize * n.count) order (decide (l.dsize = 1)) else mk 4 pk n.count order true]
  all.filter (fun b => decide (1 < b.nmem))

/-- DISPATCH (R38, R40): WaitStart becomes now. -/
def State.dispatch (s : State) (l : Launch) (i : Nat) (n : GNode) (cores : List Nat) : State :=
  let order := (s.cores.filter (fun c => cores.contains c.cnum)).foldl (fun a c => insertPos (s.cidOf c, s.posOf c, c.cnum) a) []
  let home := order.head?.map (fun e => e.1)
  let l1 := { l.mod i (fun n => { n with ready := none, running := n.count, cluster := home }) with
    ntask := l.ntask + 1, lastDispatch := s.regs.m.tbase, lastCluster := home }
  let s1 := (s.mapCores (s.assign l i n order)).setLaunch l1
  { s1 with groups := s1.groups.filter (fun (b : BGroup) => !(b.launch == l.serial && b.node == i)) ++ s.formGroups l i n order }

/-- SELECT (R40): one run; whether it dispatched. -/
def State.select1 (s : State) : Bool × State :=
  let cand := s.hearth.launches.filterMap (fun (l : Launch) =>
    let ts := s.readyTasks l
    if ts.isEmpty then none else some (l, ts, s.effPri l))
  let top := cand.foldl (fun m c => max m c.2.2) 0
  let list := cand.filter (fun c => c.2.2 == top)
  match list with
  | [] => (false, s)
  | first :: _ =>
    let rr := vget s.hearth.rr top 0
    let pick := (list.find? (fun c => decide (rr < c.1.serial))).getD first
    match oldestTask pick.2.1 with
    | none => (false, s)
    | some t =>
      let home := match t.2.home with
        | some h => some h
        | none => pick.1.lastCluster
      match s.place (s.freeCore t.2.width) home t.2.pl t.2.count with
      | none => (false, s)
      | some cores =>
        (true, State.dispatch { s with hearth := { s.hearth with rr := vset s.hearth.rr top pick.1.serial } } pick.1 t.1 t.2 cores)

/-- Select runs again after every dispatch. -/
def State.select : Nat → State → State
  | 0, s => s
  | f + 1, s =>
    if s.regs.m.hcfg.getLsbD 63 && fld s.regs.m.mstate 0 4 == 4 then
      let r := s.select1
      if r.1 then State.select f r.2 else s
    else s

/-! ### The end of a launch (R33, R320) -/

/-- Nothing can fire and every dispatched task has retired. -/
def Launch.over (l : Launch) : Bool :=
  l.nodes.all (fun n => n.running == 0) && (l.stopping || (l.todo.isEmpty && l.nodes.all (fun n => n.ready.isNone)))

/-- The completion record can be written now. -/
def State.mayEnd (s : State) (l : Launch) : Bool := l.over && s.hearthFree l.asid l.donePtr.toNat 16

/-- LAUNCH_END: the completion record, bytes 8 to 15 before bytes 0 to 7, and the Crucible's part. -/
def State.endLaunch (s : State) (l : Launch) : State :=
  let hi := leBytes 2 (l.fnode.getD 0xFFFF) ++ List.replicate 6 0
  let lo := leBytes 2 l.seq.toNat ++ leBytes 1 l.status ++ leBytes 1 l.capHit.toNat ++ leBytes 4 l.ntask
  let s1 := ((s.endRead (.cond l.serial)).launchNodes l.serial l.asid).hearthWrite l.asid (l.donePtr.toNat + 8) hi
  let s2 := s1.hearthWrite l.asid l.donePtr.toNat lo
  { s2 with hearth := { s2.hearth with launches := s2.hearth.launches.filter (fun k => k.serial != l.serial) },
            groups := s2.groups.filter (fun b => b.launch != l.serial) }

/-- Goes on where a condition word has come, ends what is over, then selects. -/
def State.hearthRun (s : State) : State :=
  let s0 := s.hearth.launches.foldl (fun s l => s.resumeWalk l) s
  let s1 := s0.hearth.launches.foldl (fun s l => if s.mayEnd l then s.endLaunch l else s) s0
  s1.select (s1.cores.length + 1)

/-- Some launch can go on or end although nothing has come for it: a home no longer answers RETRY. -/
def State.hearthDue (s : State) : Bool :=
  s.hearth.launches.any (fun l => s.mayEnd l || (!l.todo.isEmpty && !l.stopping && !s.readWaits (.cond l.serial) &&
    (s.resumeWalk l).hearth.launches != s.hearth.launches))

/-- CLUSTER_GATE (17 R364): clusters at or above ACL are clock-gated once idle, with no task and no restore under way; the others are
not. -/
def State.regate (s : State) : State :=
  let g := ((List.range (88 - s.acl)).map (fun i => s.acl + i)).filter (fun c =>
    !s.cores.any (fun k => (k.task.isSome || k.cstate == 6) && s.cidOf k == c))
  { s with hearth := { s.hearth with gated := g } }

/-! ### Launch queues (15 R318) -/

def State.queue (s : State) (q : Nat) : LQueue := (lookupN q s.hearth.queues).getD ⟨0, 0, 0, 0, 0, 0, false⟩
def State.setQueue (s : State) (q : Nat) (k : LQueue) : State :=
  { s with hearth := { s.hearth with queues := insertN q k s.hearth.queues } }

def LQueue.asid (k : LQueue) : BitVec 12 := k.lq3.extractLsb' 44 12
def LQueue.on (k : LQueue) : Bool := k.lq3.getLsbD 63
def LQueue.stopc (k : LQueue) : Nat := fld k.lq3 32 4
def LQueue.tailVa (k : LQueue) : Nat := fld k.lq1 3 53 * 8
def LQueue.headVa (k : LQueue) : Nat := fld k.lq2 3 53 * 8

/-- QUEUE_STOP (R31): the cause is recorded and reported. -/
def State.stopQueue (s : State) (q code : Nat) : State :=
  let k := s.queue q
  (s.setQueue q { k with lq3 := putFld k.lq3 32 4 code }).post ⟨10, 0xFFFF, BitVec.ofNat 32 (q * 256 + code), 0, 0⟩

/-- A word of a queue, none while the read waits; an unreadable one keeps its last value (log 23). -/
def State.queueWord (s : State) (q : Nat) (k : LQueue) (va : Nat) (old : Word) : Option Word × State :=
  let r := s.hearthRead (.words q) k.asid .read va 8
  match r.1 with
  | .ok bs => (some (BitVec.ofNat 64 (leNat bs)), r.2)
  | .wait => (none, r.2)
  | _ => (some old, r.2)

/-- Reads a queue's head and tail words (15 R318); until both have come, the queue stays to be synchronised. -/
def State.syncQueue (s : State) (q : Nat) : State :=
  let k := s.queue q
  let h := s.queueWord q k k.headVa k.head
  match h.1 with
  | none => h.2.setQueue q { k with sync := true }
  | some hw =>
    let t := h.2.queueWord q k k.tailVa k.tail
    match t.1 with
    | none => t.2.setQueue q { k with sync := true }
    | some tw => (t.2.endRead (.words q)).setQueue q { k with head := hw, tail := tw, sync := false }

/-- A wait is an event only where a request has gone out. -/
def State.waited (s : State) (who : Reader) : Option State := if s.readWaits who then some s else none

/-- TAIL_WORD_CHANGE (R30): Hearth acquires the tail word; of a queue just enabled both words (15 R318). -/
def execTailWordChange (q : Nat) (s : State) : Host.Outcome State Fault Refusal :=
  enabledOr "TAIL_WORD_CHANGE" (
    let k := s.queue q
    if !k.on || k.stopc != 0 || s.readWaits (.words q) then none
    else if k.sync then
      let s1 := s.syncQueue q
      if (s1.queue q).sync then s1.waited (.words q) else some s1
    else
      let r := s.queueWord q k k.tailVa k.tail
      match r.1 with
      | some w => some ((r.2.endRead (.words q)).setQueue q { k with tail := w })
      | none => r.2.waited (.words q))

/-- The limits of a record's fields (Tables 2.1, 15.8). -/
def recordOk (bs : List Byte) : Bool :=
  let g := numAt bs 5 1
  decide (numAt bs 4 1 < 8) && (g == 1 || g == 2 || g == 4) && decide (1 ≤ numAt bs 6 2) && decide (numAt bs 6 2 ≤ 704 / g) &&
  decide (numAt bs 8 8 % 64 = 0) && decide (numAt bs 16 8 % 64 = 0) && decide (numAt bs 24 8 % 256 = 0) && decide (numAt bs 32 4 < 2 ^ 20) &&
  decide (1 ≤ numAt bs 36 2) && decide (numAt bs 36 2 ≤ 256) && decide (numAt bs 38 2 < numAt bs 36 2) && decide (numAt bs 40 8 % 16 = 0) &&
  decide (1 ≤ numAt bs 48 2) && decide (numAt bs 48 2 ≤ 4096) && zeroAt bs 50 14 && decide (numAt bs 2 2 < 4096)

/-- The launch that a record asks for. -/
def launchOf (bs : List Byte) (q serial : Nat) (asid : BitVec 12) : Launch :=
  { serial := serial, q := q, seq := BitVec.ofNat 16 (numAt bs 0 2), asid := asid, pri := numAt bs 4 1, g := numAt bs 5 1,
    cmax := numAt bs 6 2, image := BitVec.ofNat 64 (numAt bs 8 8), arg := BitVec.ofNat 64 (numAt bs 24 8), dgrp := numAt bs 32 4,
    dsize := numAt bs 36 2, drank := numAt bs 38 2, donePtr := BitVec.ofNat 64 (numAt bs 40 8), nodes := [], ntask := 0, fnode := none,
    status := 0, capHit := false, stopping := false, lastDispatch := 0, lastCluster := none, reported := false, todo := [] }

/-- Reads and checks one record (R31; 15 R319, R326): a STOPC code, or the launch with its nodes; none while a read waits. -/
def State.readRecord (s : State) (q : Nat) (k : LQueue) : Option (Except Nat Launch) × State :=
  let n := 2 ^ fld k.lq0 0 5
  let head := k.head.toNat
  if n < (k.tail - k.head).toNat then (some (.error 1), s)
  else match s.asidOn k.asid with
  | (none, s) => (none, s)
  | (some false, s) => (some (.error 3), s)
  | (some true, s) =>
    let r := s.hearthRead (.record q) k.asid .read (fld k.lq0 12 44 * 4096 + 64 * (head % n)) 64
    match r.1 with
    | .wait => (none, r.2)
    | .ok bs =>
      if numAt bs 0 2 ≠ (head + 1) % 65536 then (some (.error 2), r.2)
      else if numAt bs 2 2 % 4096 ≠ k.asid.toNat then (some (.error 3), r.2)
      else if !recordOk bs then (some (.error 4), r.2)
      else
        let l := launchOf bs q (r.2.hearth.serial + 1) k.asid
        let nn := numAt bs 48 2
        let g := r.2.hearthRead (.record q) k.asid .read (numAt bs 16 8) (32 * nn)
        match g.1 with
        | .wait => (none, g.2)
        | .ok gb =>
          match (List.range nn).mapM (fun i => parseNode nn l ((gb.drop (32 * i)).take 32)) with
          | none => (some (.error 4), g.2)
          | some ns => if graphOk ns then (some (.ok { l with nodes := ns }), g.2) else (some (.error 4), g.2)
        | _ => (some (.error 4), g.2)
    | _ => (some (.error 4), r.2)

/-- At acceptance every node outside all bodies whose DEP is 0 fires (R322). -/
def fireFirst (ns : List GNode) : List Nat :=
  let bs := bodiesOf ns
  (ns.zipIdx.filter (fun e => e.1.dep == 0 && !bs.any (fun b => decide (b.2.1 ≤ e.2) && decide (e.2 ≤ b.2.2)))).map (fun e => e.2)

/-- A record is accepted: its launch fires its first nodes and the head word advances. -/
def State.acceptRecord (s : State) (q : Nat) (k : LQueue) (l : Launch) : State :=
  let first := fireFirst l.nodes
  let l0 := first.foldl (fun (l : Launch) i => l.mod i (fun n => { n with left := 1 })) l
  let s1 := { s with hearth := { s.hearth with serial := l.serial, launches := s.hearth.launches ++ [l0] } }
  let s2 := (s1.walkGraph l0 (first.map (fun i => .dec i none))).setQueue q { k with head := k.head + 1 }
  (s2.hearthWrite k.asid k.headVa (leBytes 8 (k.head + 1).toNat)).hearthRun

/-- LAUNCH_RECORD (R30, R31, R318): one record is accepted and the head word advances, or the queue stops. -/
def execLaunchRecord (q : Nat) (s : State) : Host.Outcome State Fault Refusal :=
  enabledOr "LAUNCH_RECORD" (
    let k := s.queue q
    if !k.on || k.stopc != 0 || k.sync || k.head == k.tail || !s.regs.m.hcfg.getLsbD 63 || fld s.regs.m.mstate 0 4 != 4 ||
       s.readWaits (.record q) || !s.hearthFree k.asid k.headVa 8 then none
    else
      let r := s.readRecord q k
      match r.1 with
      | none => r.2.waited (.record q)
      | some (.error code) => some ((r.2.endRead (.record q)).stopQueue q code)
      | some (.ok l) => some ((r.2.endRead (.record q)).acceptRecord q k l))

/-- AGE_BOUNDARY (R39, R323): a written AGE takes effect, Select runs. -/
def execAgeBoundary (s : State) : Host.Outcome State Fault Refusal :=
  .next (State.hearthRun { s with hearth := { s.hearth with age := BitVec.ofNat 64 (fld s.regs.m.hcfg 16 14) } })

/-- UNPLACEABLE_REPORT (R57): after 4 × AGE of waiting at effective priority 7. -/
def execUnplaceableReport (serial : Nat) (s : State) : Host.Outcome State Fault Refusal :=
  enabledOr "UNPLACEABLE_REPORT" (match s.launch serial with
    | none => none
    | some l =>
      let ts := l.waiting.filter (fun e => s.unplaceable e.2)
      if ts.isEmpty || l.reported then none
      else if l.waitStart + (7 - l.pri + 4) * s.hearth.age.toNat ≤ s.regs.m.tbase.toNat then
        some ((s.setLaunch { l with reported := true }).post ⟨11, 0xFFFF, 0, 0, serial⟩)
      else none)

/-! ### Task entry (R42, R43, R55, R56; 14 R303 to R306) -/

/-- A checked task header: what entry loads. -/
structure Entry where
  entry : Nat
  fmt : Word
  tol : Word
  tvec : Word
  vview : Word
  mview : Word
  qview : Word
  carry : Word
  rings : List (Option Word)
  pr : Bool
  ident : Word
  code : Nat
  ovls : List Nat
  deriving DecidableEq, Repr

/-- The state checks of R306, which give ILLOP; also those of an edited context (16 R351), where WOFF is free. -/
def entryStateOk (fmt tol vview mview qview : Word) : Bool :=
  okFmt fmt && okTol tol && okVview vview && okMview mview && okQview qview

/-- TASK_HEADER_FAULT or the entry: the fault's code, FINFO and the entry bundle on a failed check, in the order of R306. A
header that cannot be read names no entry bundle. Reserved bits of its registers' words are not loaded (00 R8). None while a read waits. -/
def State.readHeader (s : State) (l : Launch) (tt : Nat) : Option (Except (Nat × Nat × Nat) Entry) × State :=
  let im := l.image.toNat
  let who := Reader.entry s.core.cnum
  let r := s.hearthRead who l.asid .read im 64
  match r.1 with
  | .wait => (none, r.2)
  | .fault a | .error a => (some (.error (cILLBUNDLE, a, 0)), r.2)
  | .ok h =>
    let r2 := r.2.hearthRead who l.asid .read (im + numAt h 48 8 + 256 * tt) 256
    match r2.1 with
    | .wait => (none, r2.2)
    | .fault a | .error a => (some (.error (cILLBUNDLE, a, 0)), r2.2)
    | .ok t =>
      let w (k : Nat) : Word := BitVec.ofNat 64 (numAt t k 8)
      let novl := numAt h 24 4
      let n := numAt t 136 2
      let ovls := (List.range n).map (fun i => numAt t (144 + 2 * i) 2)
      let flags := w 128
      let hv := flags.getLsbD 1
      let on (i : Nat) : Bool := flags.getLsbD (16 + i)
      let ring (i : Nat) : Word := w (64 + 8 * i)
      let first := im + numAt h 16 8 + numAt t 0 8
      if numAt h 56 8 ≠ im ∨ im % 4096 ≠ 0 ∨ numAt h 6 2 ≤ tt ∨ numAt h 0 4 ≠ 0x4D495A59 ∨ numAt h 4 2 ≠ 1 ∨
         !zeroAt h 28 4 ∨ !zeroAt t 138 6 ∨ fld (w 56) 19 45 ≠ 0 ∨ fld flags 24 40 ≠ 0 ∨ fld flags 2 6 ≠ 0 ∨
         n = 0 ∨ 56 < n ∨ ovls.any (fun o => decide (novl ≤ o)) ∨ !ovls.contains (numAt t 0 8 / 4096) ∨
         (hv ∧ !ovls.contains (numAt t 24 8 / 4096)) then (some (.error (cILLBUNDLE, 0, first)), r2.2)
      else if !entryStateOk (w 8) (w 16) (w 32 &&& cregMask 2) (w 40 &&& cregMask 3) (w 48 &&& cregMask 4) ∨
         (List.range 8).any (fun i => on i && (!s.okRing (ring i))) ∨
         fld (w 32) 43 10 ≠ 0 ∨ 2048 < fld (w 56) 8 11 + fld (w 56) 0 8 ∨
         (List.range 8).any (fun i => on i && (fld (ring i) 40 24 != 0 || fld (ring i) 0 12 != 0)) then (some (.error (cILLOP, 0, first)), r2.2)
      else
        (some (.ok { entry := first, fmt := w 8 &&& cregMask 0, tol := w 16,
                     tvec := if hv then (BitVec.ofNat 64 (im + numAt h 16 8 + numAt t 24 8)) &&& cregMask 8 else 0,
                     vview := w 32 &&& cregMask 2, mview := w 40 &&& cregMask 3, qview := w 48 &&& cregMask 4, carry := w 56,
                     rings := (List.range 8).map (fun i => if on i then some (ring i) else none),
                     pr := flags.getLsbD 0, ident := BitVec.ofNat 64 (numAt h 8 8), code := im + numAt h 16 8, ovls := ovls }), r2.2)

/-- Room for one more page: the least recently used page of no running task goes (R56). -/
def evictPage (l : List Overlay) : List Overlay :=
  if l.length < 64 then l
  else match l.find? (fun o => !o.inUse) with
    | some o => l.erase o
    | none => l

/-- The outcome of a fill: done, an address that cannot be filled, or a wait. -/
inductive Fill where
  | ok (s : State)
  | error (va : Nat)
  | wait (s : State)

/-- Makes one overlay of the task resident on the core in focus. -/
def State.fillPage (s : State) (asid : BitVec 12) (e : Entry) (o : Nat) : Fill :=
  let va := e.code + 4096 * o
  let c := s.core
  let fits (p : Overlay) : Bool := p.ident == e.ident && p.asid == asid && p.num == o && p.va == va && !p.doomed
  match c.ovl.find? fits with
  | some p => .ok { s with core := { c with ovl := c.ovl.erase p ++ [{ p with inUse := true }] } }
  | none =>
    let r := s.hearthRead (.entry c.cnum) asid .fetch va 4096
    match r.1 with
    | .fault a | .error a => .error a
    | .wait => .wait r.2
    | .ok bs =>
      .ok { r.2 with core := { r.2.core with ovl := evictPage r.2.core.ovl ++
        [⟨e.ident, asid, o, va, Memory.setN [] 0 bs, true, false⟩] } }

def State.fillPages (asid : BitVec 12) (e : Entry) : List Nat → State → Fill
  | [], s => .ok s
  | o :: os, s =>
    match s.fillPage asid e o with
    | .ok s' => State.fillPages asid e os s'
    | r => r

/-- Banks kept when a slab is zeroed: those of the cache role (R43). -/
def State.zeroBanks (s : State) (m : Memory) : Memory := m.filter (fun c => s.role (c.1 % 0x100000 / 32768) == 0)

/-- The core in focus with the state of Table 2.2. -/
def State.enter (s : State) (t : Task) (x1 : Word) (e : Entry) : State :=
  let c := s.core
  let st := s.stack c.stk
  let slabs := (List.range c.g).map c.slabOf
  let fresh := slabs.any (fun k => vget st.slabAsid k 0 != t.asid)
  let regs : Regs := { Regs.zero with
    x := vset (vset (vset Regs.zero.x 1 x1) 2 (BitVec.ofNat 64 t.serial)) 3 (BitVec.ofNat 64 t.iter),
    rf := if fresh then [] else c.regs.rf,
    bank := if fresh then s.zeroBanks c.regs.bank else c.regs.bank }
  let rings := Vector.ofFn (fun (i : Fin 8) => match (e.rings.getD i.val none) with
    | some w => ringOfWord w true
    | none => Ring.zero)
  let t' := { t with pr := e.pr, cbase := fld e.carry 8 11, clen := fld e.carry 0 8, ident := e.ident, started := true, entered := true }
  let s1 := s.setStack c.stk { st with slabAsid := slabs.foldl (fun v k => vset v k t.asid) st.slabAsid }
  { s1 with core := { c with
      regs := regs,
      ctl := { Ctl.zero with fmt := e.fmt, tol := e.tol, vview := e.vview, mview := e.mview, qview := e.qview, tvec := e.tvec },
      front := { Front.zero with pc := BitVec.ofNat 56 e.entry, nextPc := BitVec.ofNat 56 e.entry, upset := c.front.upset, clock := c.front.clock,
                                 window := c.front.window },
      pipe := ⟨[], [], []⟩,
      units := { Units.zero with rings := rings, nextNum := c.units.nextNum, nextSeq := c.units.nextSeq, lamport := c.units.lamport },
      phase := { Phase.zero with front := c.phase.front },
      task := some t',
      drv := { c.drv with cctl := putFld c.drv.cctl 60 4 1 } } }

/-- A task whose header fails raises its fault at the first bundle, at `pc`. -/
def State.entryFault (s : State) (t : Task) (code info pc : Nat) : State :=
  let c := s.core
  State.systemFault { s with core := { c with
      task := some { t with started := true }, front := { Front.zero with
        pc := BitVec.ofNat 56 pc, nextPc := BitVec.ofNat 56 pc, clock := c.front.clock, upset := c.front.upset, window := c.front.window },
      drv := { c.drv with cctl := putFld c.drv.cctl 60 4 1 } } } 15 code 0xFF (BitVec.ofNat 64 info)

/-- An overlay page of the task cannot be filled (R55): the core, whose state is loaded, is held by XLATE at its bundle, which a RESUME
presents again by a new fill (log 18). -/
def State.pageFault (s : State) (va : Nat) : State :=
  State.systemFault { s with core := { s.core with
    task := s.core.task.map (fun t => { t with started := false }),
    drv := { s.core.drv with cctl := putFld s.core.drv.cctl 60 4 1 } } } 15 cXLATE 0xFF (BitVec.ofNat 64 va)

/-- The overlays are resident: the core and its lockstep group run on. -/
def State.goOn (s : State) : State :=
  State.resumeGroup { s with core := { s.core with
    task := s.core.task.map (fun t => { t with started := true }),
    drv := { s.core.drv with cctl := putFld s.core.drv.cctl 60 4 1 } } }

/-- TASK_ENTRY: overlays are resident, the header is checked, the entry state is loaded; where a fill had failed, issue goes on. -/
def execTaskEntry (c : Nat) (s : State) : Host.Outcome State Fault Refusal :=
  enabledOr "TASK_ENTRY" (s.atCore? c (fun s =>
    match s.core.task with
    | none => none
    | some t =>
      let who := Reader.entry s.core.cnum
      if t.started || !(s.core.cstate == 0 || s.core.cstate == 5) || s.readWaits who then none
      else match s.launch t.serial with
        | none => none
        | some l =>
          match (l.nodes[t.node]?).map GNode.kind with
          | some (.task _ _ tt _ _ arg) =>
            let r := s.readHeader l tt
            match r.1 with
            | none => r.2.waited who
            | some (.error e) => some ((r.2.endRead who).entryFault t e.1 e.2.1 e.2.2)
            | some (.ok e) =>
              match State.fillPages t.asid e e.ovls r.2 with
              | .error a => some ((if t.entered then r.2.endRead who else (r.2.endRead who).enter t arg e).pageFault a)
              | .wait s1 => s1.waited who
              | .ok s1 => some (if t.entered then (s1.endRead who).goOn else (s1.endRead who).enter t arg e)
          | _ => none))

/-! ### Retirement (R52 to R54, R60) -/

/-- The core in focus has ended, its queues are empty and its results have landed. -/
def State.mayRetire (s : State) : Bool :=
  let c := s.core
  c.front.ended && c.units.anvil.isEmpty && c.units.cmds.isEmpty && c.pipe.pwq.isEmpty && c.pipe.bwq.isEmpty && c.pipe.aside.isEmpty &&
  c.units.rings.toList.all (fun r => r.claims.all (fun k => k.done)) && c.front.after == .issue && c.cstate != 3 && c.cstate != 7

/-- Some token holds an error that no WAIT consumed (R54). The deferred error of a speculative command, which is not in ERRn
(08 R211), does not count: R54 does not say (log 50). -/
def Core.unconsumed (c : Core) : Bool := c.units.tokens.toList.any (fun t => t.err != 0)

/-- TASK_COMPLETE (R53): when its last core has retired, the task's successors are decremented, from the cluster of its IDX 0. -/
def State.taskDone (s : State) (t : Task) : State :=
  match s.launch t.serial with
  | none => s
  | some l =>
    match l.nodes[t.node]? with
    | none => s
    | some n =>
      let l1 := l.mod t.node (fun n => { n with running := n.running - 1 })
      let s1 := s.setLaunch l1
      if n.running ≠ 1 then s1
      else
        let s2 := { s1 with groups := s1.groups.filter (fun b => !(b.launch == t.serial && b.node == t.node)) }
        s2.walkGraph l1 (n.succs.map (fun k => .dec k n.cluster))

/-- BUSY of OVLINV clears once no doomed page is left (15 R324). -/
def State.ovlSettle (s : State) : State :=
  if s.cores.any (fun c => c.ovl.any (fun o => o.doomed)) then s
  else { s with regs := { s.regs with m := { s.regs.m with ovlinv := putFld s.regs.m.ovlinv 63 1 0 } } }

/-- The core in focus becomes free. -/
def Core.retired (c : Core) : Core :=
  let ovl := (c.ovl.filter (fun o => !(o.inUse && o.doomed))).map (fun o => { o with inUse := false })
  { c with task := none, ovl := ovl,
           front := { c.front with ended := true, departed := false, held := false, holds := [] },
           drv := { c.drv with cctl := putFld c.drv.cctl 60 4 (if c.drv.saved.isSome then 5 else 0), force := false } }

/-- CORE_RETIRE (R53, R54, R60): first the core's writes are released; once their fan-outs are done it is free. With an unconsumed error
the launch stops here, at the retirement of this core and before that of the task's others: R54 says only that the task completes with
COPYERR, the moment is the model's choice (log 50). -/
def execCoreRetire (c : Nat) (s : State) : Host.Outcome State Fault Refusal :=
  enabledOr "CORE_RETIRE" (s.atCore? c (fun s =>
    match s.core.task with
    | none => none
    | some t =>
      if !s.mayRetire || !t.started then none
      else
        let ls := s.coveredLines s.core.cid s.core.cnum (fun _ => true)
        if !ls.isEmpty then (if ls.any (fun l => s.frameBusy (l * 128)) then none else some (s.releaseLines s.core.cid ls).2)
        else if !(s.coveredFans s.core.cnum (fun _ => true)).isEmpty then none
        else
          let s1 := match s.launch t.serial with
            | some l => if s.core.unconsumed && !s.core.front.departed then s.setLaunch (l.stop 3 t.node) else s
            | none => s
          let s2 := { s1 with core := s1.core.retired }
          some ((if t.redone then s2 else s2.taskDone t).ovlSettle.regate.hearthRun)))

end Sys2Proof.Machine
end

