-- ==== Sys2Proof/Machine/Recover.lean ====
section
/-! DEFINITION. Recovery from recovered faults: phase replay, re-dispatch, failure (16 R356, R357; 14 R298), and the log of
C-slot commands. -/
namespace Sys2Proof.Machine
open Sys2Proof

/-- What marks a replay that met a command different from its log entry (log 1). -/
abbrev replayBroken : Nat := 2 ^ 32

/-- Logs an enabled non-speculative C-slot command, or in a replay checks it against its entry (R357). -/
def State.logCommand (s : State) (i : Instr) (ops : List Word) (data : List (Nat × Byte)) : State :=
  let ph := s.core.phase
  let put (ph : Phase) : State := { s with core := { s.core with phase := ph } }
  match ph.replay with
  | some n =>
    if ph.log[n]? = some ⟨i, ops, data⟩ then
      if n + 1 = ph.log.length then (put { ph with replay := none }).post ⟨4, s.core.cnum, 0, s.core.front.pc.zeroExtend 64, s.serialOf⟩
      else put { ph with replay := some (n + 1) }
    else put { ph with replay := some replayBroken }
  | none =>
    if ph.log.length < 1024 then put { ph with log := ph.log ++ [⟨i, ops, data⟩] } else put { ph with logOvf := true }

/-- An instruction of R298's list has issued. -/
def State.markIrrevocable (s : State) (b : Bool) : State := if b then s.irrevocable else s

/-- An instruction that rules re-dispatch out has issued (R356): the task's node remembers it, whatever becomes of the core. -/
def State.markIrredispatch (s : State) (b : Bool) : State :=
  match s.core.task with
  | some t =>
    if b then
      match s.launch t.serial with
      | some l => s.setLaunch (l.mod t.node (fun n => { n with noRedo := true }))
      | none => s
    else s
  | none => s

/-- CCTL.STATE of the core in focus. -/
def State.setCstate (s : State) (v : Nat) : State :=
  { s with core := { s.core with drv := { s.core.drv with cctl := putFld s.core.drv.cctl 60 4 v } } }

/-- The core in focus departs and will retire, whatever it waited for. -/
def State.departRun (s : State) (status : Nat) : State :=
  let s1 := (s.resumeGroup.depart status).setCstate 1
  { s1 with core := { s1.core with task := s1.core.task.map (fun t => { t with started := true }) } }

/-- PhaseReplayable (R298, R356). -/
def State.phaseReplayable (s : State) : Bool :=
  match s.core.task with
  | some t => t.pr && s.core.phase.ckv && !s.core.phase.logOvf && s.core.lockm == 0 && !s.core.phase.irrevocable
  | none => false

/-- Bytes of the first checkpoint bank of member `g`. -/
def State.ckRead (s : State) (g off n : Nat) : List Byte :=
  match s.ckBanks with
  | [] => []
  | b :: _ => s.core.regs.bank.getN (g * 0x100000 + b * 32768 + off) n

/-- The carry range of member `g` from its checkpoint banks. -/
def State.ckCarry (s : State) (g len : Nat) : List Byte :=
  match s.ckBanks with
  | b0 :: b1 :: _ => s.core.regs.bank.getN (g * 0x100000 + b0 * 32768 + 4096) (min len 28672) ++
      s.core.regs.bank.getN (g * 0x100000 + b1 * 32768) (len - 28672)
  | [b0] => s.core.regs.bank.getN (g * 0x100000 + b0 * 32768 + 4096) (min len 28672)
  | [] => []

/-- Restores the checkpoint of R211 in the layout of Table 8.3. -/
def State.restoreCheckpoint (s : State) (t : Task) : State :=
  let c := s.core
  let w (k : Nat) : Word := BitVec.ofNat 64 (leNat (s.ckRead 0 k 8))
  let x := Vector.ofFn (fun (i : Fin 64) => if i.val = 0 then (0 : Word) else w (8 * (i.val - 1)))
  let p := Vector.ofFn (fun (i : Fin 64) =>
    if i.val < 4 then BitVec.allOnes 256 else BitVec.ofNat 256 (leNat (s.ckRead (i.val % 4) (2048 + 32 * (i.val / 4)) 32)))
  let rings := Vector.ofFn (fun (i : Fin 8) =>
    let k := w (576 + 8 * i.val)
    let r := ringOfWord k (vget c.units.rings i.val Ring.zero).on
    let resv := c.phase.flipResv.getD i.val r.tail
    { r with tail := resv, cons := k.extractLsb' 0 12, resv := resv })
  let rf := (List.range c.g).foldl (fun m g => m.setN (g * 0x80000 + t.cbase * 256) (s.ckCarry g (t.clen * 256))) c.regs.rf
  { s with core := { c with
      regs := { c.regs with x := x, f := (w 504).extractLsb' 0 16, p := p, rf := rf },
      ctl := { c.ctl with vview := w 512, mview := w 520, qview := w 528, fmt := w 536, tol := w 544, iter := w 552, sticky := w 560 },
      units := { c.units with rings := rings } } }

/-- Commands of the phase leave, with their counts and errors (R357 step 2). -/
def Core.cancelPhase (c : Core) : Core :=
  let gone := c.units.cmds.filter (fun k => decide (c.phase.flipSeq ≤ k.seq))
  let c1 := gone.foldl (fun (c : Core) k => c.setToken k.tok (c.token k.tok).drop) c
  let toks := c1.units.tokens.map (fun (t : Token) =>
    let t1 := if t.err ≠ 0 ∧ c.phase.flipSeq ≤ t.errAt then { t with err := 0 } else t
    { (if t1.defErr ≠ 0 ∧ c.phase.flipSeq ≤ t1.defAt then { t1 with defErr := 0 } else t1) with spec := false })
  { c1 with units := { c1.units with tokens := toks, cmds := c.units.cmds.filter (fun k => decide (k.seq < c.phase.flipSeq)) } }

/-- ReplayPhase (R357): cancel, mark back banks invalid, restore, resume after the BFLIP under the log. -/
def State.replayPhase (s : State) (t : Task) : State :=
  let s1 := State.restoreCheckpoint { s with core := s.core.cancelPhase } t
  let pairs := (s1.spair s1.core).extractLsb' 0 16
  let ph := s1.core.phase
  let c := s1.core
  let s2 := { s1 with
    regs := { s1.regs with telem := { s1.regs.telem with replay := s1.regs.telem.replay + 1 } },
    core := { c with
      pipe := ⟨[], [], []⟩,
      front := { c.front with pc := ph.flipPc, nextPc := ph.flipPc, bubbles := 0, after := .issue, gatherFrz := none, bellowsFrz := none,
                              held := false, holds := [], arrv := [], granted := false, ended := false, stat := .ready, bnd := [] },
      phase := { ph with replays := ph.replays + 1, replay := if ph.log.isEmpty then none else some 0,
                         invalid := Vector.replicate 4 pairs, specBanks := 0 } } }
  let s3 := s2.setCstate 1
  if ph.log.isEmpty then s3.post ⟨4, c.cnum, 0, ph.flipPc.zeroExtend 64, s.serialOf⟩ else s3

/-- Cores of the task of the core in focus. -/
def State.taskCores (s : State) (t : Task) : List Core :=
  s.cores.filter (fun c => c.task.any (fun k => k.serial == t.serial && k.node == t.node && !k.redone))

/-- Redispatchable (R356). -/
def State.redispatchable (s : State) (t : Task) : Bool :=
  match (s.launch t.serial).bind (fun l => l.nodes[t.node]?) with
  | some n => !n.dom && decide (n.redispatches < 2) && !n.noRedo
  | none => false

/-- A saved context of a task is discarded (16 R355, R356, R359): the core is no longer PARKED, a restore is abandoned. -/
def Core.dropSaved (p : Task → Bool) (c : Core) : Core :=
  if c.drv.saved.any (fun v => p v.task) then
    let st := if c.cstate = 5 ∨ c.cstate = 6 then 0 else c.cstate
    { c with drv := { c.drv with saved := none, cctl := putFld (putFld c.drv.cctl 58 1 0) 60 4 st } }
  else c

/-- Every core of the task departs and Hearth makes it ready again. -/
def State.redispatch (s : State) (t : Task) : State :=
  let s1 := (s.taskCores t).foldl (fun s c => s.atCore c.cnum (fun s =>
    (State.departRun { s with core := { s.core with task := s.core.task.map (fun k => { k with redone := true }) } } 0))) s
  let tl := s1.regs.telem
  let s2 := { s1 with regs := { s1.regs with telem := { tl with redisp := tl.redisp + 1 } } }
  let s3 := match s2.launch t.serial with
    | none => s2
    | some l => s2.setLaunch (l.mod t.node (fun n =>
        { n with ready := some s2.regs.m.tbase, running := 0, redispatches := n.redispatches + 1 }))
  let mine (k : Task) : Bool := k.serial == t.serial && k.node == t.node
  let kept := s3.cores.filter (fun c => c.drv.saved.any (fun v => mine v.task))
  let s4 := (kept.foldl (fun (s : State) c => (s.releaseLines c.cid (s.coveredLines c.cid c.cnum (fun _ => true))).2) s3).mapCores (Core.dropSaved mine)
  (s4.post ⟨5, s.core.cnum, 0, s.core.front.pc.zeroExtend 64, t.serial⟩).hearthRun

/-- The part of Recover after the phase replay: re-dispatch, or the fault is taken as UE, with the class it had (log 42). -/
def State.recoverRest (s : State) : State :=
  match s.core.task with
  | none => s.setCstate 0
  | some t =>
    if s.redispatchable t then s.redispatch t
    else
      let s0 := { s with core := { s.core with drv := { s.core.drv with frec := putFld s.core.drv.frec 0 8 cUE } } }
      let s1 := s0.post ⟨6, s0.core.cnum, frecInfo s0.core.drv.frec, s0.core.front.pc.zeroExtend 64, t.serial⟩
      s1.departRun 1

/-- RECOVER of the core in focus (R356). -/
def State.recover (s : State) : State :=
  match s.core.task with
  | none => s.setCstate 0
  | some t => if s.phaseReplayable && decide (s.core.phase.replays < 3) then s.replayPhase t else s.recoverRest

/-- A Crucible command with pins on a node, here or at its home: it drains (R357 step 2; 06 R149). -/
def Cmd.pinned (k : Cmd) : Bool :=
  !k.pins.isEmpty || (match k.ins with
    | .kld _ _ => k.stage == 2
    | _ => false)

/-- The Anvil has drained and, for a replay, the commands from before the BFLIP and those with pins have completed. -/
def State.mayRecover (s : State) : Bool :=
  s.core.cstate == 7 && s.core.units.anvil.isEmpty &&
  (!(s.phaseReplayable && decide (s.core.phase.replays < 3)) || s.core.units.cmds.all (fun k => decide (s.core.phase.flipSeq ≤ k.seq) && !k.pinned))

/-- The members' SPECX marks of the pairs that a bank extent touches (11 R265). -/
def State.touchPairs (s : State) (a n : Nat) : State :=
  let m := (List.range 16).foldl (fun (v : BitVec 16) j =>
    if s.paired j ∧ j * 65536 < a + n ∧ a < (j + 1) * 65536 then v ||| (1 : BitVec 16) <<< j else v) 0
  { s with core := { s.core with phase := { s.core.phase with specBanks := s.core.phase.specBanks ||| m } } }

/-- Every byte of the extent lies in bank-pair banks, by the addresses that reach the pair: those of bank 2j (15 R316). -/
def State.inPairs (s : State) (a n : Nat) : Bool :=
  decide (a + n ≤ 0x100000) && (List.range 32).all (fun k =>
    if k * 32768 < a + n ∧ a < (k + 1) * 32768 then k % 2 == 0 && s.paired (k / 2) else true)

end Sys2Proof.Machine
end

