-- ==== Sys2Proof/Machine/Access.lean ====
section
/-! DEFINITION. C-slot commands outstanding (11 R263, R270): their order (05 R119 to R125), memory accesses and copies as they
are performed, translation parking (16 R348), RETRY (05 R133), and the events that complete them. -/
namespace Sys2Proof.Machine
open Sys2Proof

/-! ### Commands -/

def State.cmd (s : State) (seq : Nat) : Option Cmd := s.core.units.cmds.find? (fun k => k.seq == seq)

def State.setCmd (s : State) (k : Cmd) : State :=
  { s with core := { s.core with units := { s.core.units with
      cmds := s.core.units.cmds.map (fun j => if j.seq = k.seq then k else j) } } }

def State.asid (s : State) : BitVec 12 :=
  match s.core.task with
  | some t => t.asid
  | none => 0

/-- A command completes: its error is recorded, its ring slot completes, its count drops (03 R81, R82; 11 R271). -/
def State.finish (s : State) (k : Cmd) (code : BitVec 3) : State :=
  let c := s.core
  let c1 := c.setToken k.tok ((c.token k.tok).record k.spec k.seq code).drop
  let c2 := match k.ring with
    | some e => c1.setRing (BitVec.ofNat 3 e.1) ((c1.ring (BitVec.ofNat 3 e.1)).claimDone k.seq)
    | none => c1
  { s with core := { c2 with units := { c2.units with cmds := c2.units.cmds.filter (fun j => j.seq != k.seq) } } }

/-- TRANSLATION_REQUEST (16 R348): the unit parks and the driver is asked. -/
def State.park (s : State) (k : Cmd) (va : Nat) (write : Bool) : State :=
  (s.setCmd { k with parked := some (BitVec.ofNat 64 va, write), asked := none }).post
    ⟨9, s.core.cnum, BitVec.ofNat 32 (k.unit.toNat + 2 * write.toNat), BitVec.ofNat 64 va, s.serialOf⟩

/-- Order of a C-slot instruction; a copy's ar sets both flags (05 R118). -/
def orderOf : Instr → Order
  | .cpy _ o | .cpyr _ o | .lsend _ o | .lrecv _ o =>
    match o.order.toNat with
    | 0 => .rlx
    | 1 => .acq
    | 2 => .rel
    | _ => .ar
  | .ldg _ o | .stg _ o | .amo _ o | .cas _ o | .fence _ o | .waitaddr _ o => o.so
  | .vldg _ o | .vstg _ o => o.order
  | _ => .rlx

def isCopy : Instr → Bool
  | .cpy _ _ | .cpyr _ _ => true
  | _ => false

def isWatch : Instr → Bool
  | .waitaddr _ _ => true
  | _ => false

/-- A command that a saved context takes along as a restart record (16 R353). -/
def Cmd.restarts (k : Cmd) : Bool := k.parked.isSome || isWatch k.ins

def isFence : Instr → Bool
  | .fence _ _ => true
  | _ => false

/-- The instructions that access memory. -/
def isAccess : Instr → Bool
  | .cpy _ _ | .cpyr _ _ | .ldg _ _ | .stg _ _ | .vldg _ _ | .vstg _ _ | .amo _ _ | .cas _ _ | .fence _ _ | .waitaddr _ _ => true
  | _ => false

def isStore : Instr → Bool
  | .cpy _ _ | .stg _ _ | .vstg _ _ | .amo _ _ | .cas _ _ => true
  | _ => false

def Order.acquires (o : Order) : Bool := o == .acq || o == .ar || o == .sc
def Order.releases (o : Order) : Bool := o == .rel || o == .ar || o == .sc

/-- An acquire, other than a copy's flag and a watch (05 R124, R125); an STG is one with order sc (05 R127). -/
def isAcquire : Instr → Bool
  | .ldg _ o | .stg _ o | .amo _ o | .fence _ o => Order.acquires o.so
  | .cas _ o => Order.acquires o.so || o.fo
  | .vldg _ o => Order.acquires o.order
  | _ => false

/-- A release, other than a copy's flag. -/
def isRelease (i : Instr) : Bool := !isCopy i && !isWatch i && Order.releases (orderOf i)

/-- Runs of consecutive positions. -/
def runsOf : List Nat → List (Nat × Nat)
  | [] => []
  | p :: ps =>
    match runsOf ps with
    | (q, n) :: rest => if p + 1 = q then (p, n + 1) :: rest else (p, 1) :: (q, n) :: rest
    | [] => [(p, 1)]

/-- The virtual ranges of an access other than a copy. -/
def Cmd.extent (k : Cmd) : List (Nat × Nat) :=
  match k.ins with
  | .ldg _ o | .stg _ o | .amo _ o | .cas _ o | .waitaddr _ o => [(k.addr, 2 ^ o.size.toNat)]
  | .vldg _ _ | .vstg _ _ => (runsOf (k.data.map (fun e => e.1))).map (fun r => ((k.addr + r.1) % 2 ^ 64, r.2))
  | _ => []

/-- Where the ranges lie, in one numbering of every place. -/
def State.places (s : State) (ext : List (Nat × Nat)) : List (Nat × Nat) :=
  ext.flatMap (fun e =>
    match (s.segments s.asid .read e.1 e.2).1 with
    | .ok l => l.map (fun g => (match g.place with
        | .home pa => pa
        | .host pa => hostBase + pa
        | .remote m pa => remoteBase + m * 2 ^ 52 + pa, g.len))
    | _ => [(2 ^ 80 + e.1, e.2)])

/-- Two ranges share a byte. -/
def meets (a b : Nat × Nat) : Bool := decide (a.1 < b.1 + b.2) && decide (b.1 < a.1 + a.2)

/-- Two accesses of the core touch a common byte. -/
def State.overlap (s : State) (j k : Cmd) : Bool :=
  let a := j.extent
  let b := k.extent
  a.any (fun x => b.any (meets x)) || (s.places a).any (fun x => (s.places b).any (meets x))

/-- An earlier-bundle access that `k` must wait for before it is performed (05 R122 to R125; 11 R277): a copy with the acquire flag
waits for every one. -/
def waitsFor (j k : Instr) : Bool :=
  (isCopy k && Order.acquires (orderOf k)) || (isRelease k && !isWatch j) || (isAcquire j && isAccess k) || (isFence j && isStore k)

/-- The release of a copy is not held up: it waits for its core's earlier accesses, whatever they are (11 R268), but for the reads of a
watch, which nothing is ordered after before the WAIT (R278). -/
def State.releaseFree (s : State) (k : Cmd) : Bool :=
  !(isCopy k.ins && Order.releases (orderOf k.ins)) ||
  s.core.units.cmds.all (fun j => decide (k.seq ≤ j.seq) || decide (k.born ≤ j.born) || !isAccess j.ins || isWatch j.ins)

/-- Nothing that goes before the command is outstanding: its unit is not parked, accesses that order or overlap it are
done, earlier sc operations have returned their stamps (05 R119, R124, R127; 16 R348). No access waits for the reads of a watch
that runs (R124; 11 R278). While the core is saved nothing waits for a command that becomes a restart record (16 R353 step 2). -/
def State.mayPerform (s : State) (k : Cmd) : Bool :=
  k.parked.isNone && k.retry.isNone && !k.window &&
  s.core.units.cmds.all (fun j => decide (k.seq ≤ j.seq) || (s.core.cstate == 4 && j.restarts) ||
    !((j.parked.isSome && j.unit == k.unit) ||
      (isAccess j.ins && decide (j.born < k.born) && waitsFor j.ins k.ins) ||
      (isAccess j.ins && isAccess k.ins && !isCopy j.ins && !isCopy k.ins && !isWatch j.ins && s.overlap j k) ||
      (orderOf j.ins == .sc && orderOf k.ins == .sc && !j.performed)))

/-! ### Age (05 R130) -/

/-- Of two requests the first is at least as old: by time of issue, then core, then number. -/
def olderReq (a b : Nat × Nat × Nat) : Bool :=
  decide (a.1 < b.1) || (a.1 == b.1 && (decide (a.2.1 < b.2.1) || (a.2.1 == b.2.1 && decide (a.2.2 ≤ b.2.2))))

/-- The domain time at which a command of the core in focus issued, as other modules see its age. -/
def State.bornAt (s : State) (k : Cmd) : Nat := s.regs.m.tbase.toNat - (s.core.front.clock - k.born) / 850

/-- Commands refused at lines with a property, that only wait to be granted: core, and command. -/
def State.refusedAt (s : State) (p : Nat → Bool) : List (State × Cmd) :=
  s.cores.flatMap (fun d => (d.units.cmds.filter (fun j => j.asked.any p)).filterMap (fun j =>
    match s.focus d.cnum with
    | some t => if t.mayPerform { j with retry := none } then some (t, j) else none
    | none => none))

/-- The lines of a memory request. -/
def MemReq.lines (r : MemReq) : List Nat := (lineParts r.pa (if r.kind = 1 then r.data.length else r.size)).map (fun l => l.1)

/-- Memory requests of other modules that have arrived. -/
def State.arrived (s : State) : List MemReq :=
  s.links.toList.flatMap (fun l => (l.rx.filter (fun m => m.cls == 0)).map (fun m => MemReq.read m.body))

/-- An older request waits at the line: one that was refused there, or one of another module. -/
def State.behind (s : State) (k : Cmd) (line : Nat) : Bool :=
  (s.refusedAt (fun l => l == line)).any (fun e => !olderReq (k.born, s.core.cnum, k.seq) (e.2.born, e.1.core.cnum, e.2.seq)) ||
  s.arrived.any (fun r => decide (r.born < s.bornAt k) && r.lines.contains line)

/-! ### Reading and writing through the agent -/

/-- Why a piece of an access cannot go on: the driver must map an address, an error is recorded, or a home answers RETRY for a line. -/
inductive Stop where
  | fault (va : Nat)
  | code (c : BitVec 3)
  | busy (line : Nat)
  deriving DecidableEq, Repr

/-- The pieces of several ranges. -/
def State.plan (s : State) (k : AccKind) : List (Nat × Nat) → Except Stop (List Seg) × State
  | [] => (.ok [], s)
  | r :: rs =>
    let p := s.segments s.asid k r.1 r.2
    match p.1 with
    | .fault va => (.error (.fault va), p.2)
    | .error c _ => (.error (.code c), p.2)
    | .busy l => (.error (.busy l), p.2)
    | .ok l =>
      let q := State.plan p.2 k rs
      (q.1.map (fun m => l ++ m), q.2)

/-- Asks the remote homes for the bytes of the pieces. -/
def State.ask (s : State) (k : Cmd) (segs : List Seg) : State :=
  let r := s.askSegs (s.bornAt k) segs
  r.2.setCmd { k with asks := r.1, asked := none }

/-- A request of the command was refused at a line: it will be made again (R130, R133). -/
def State.refused (s : State) (k : Cmd) (line : Nat) : State := s.setCmd { k with retry := some line, asked := some line }

/-- Reads ranges: the bytes in order, or the state in which the command waits, parks or has ended. -/
def State.readRanges (s : State) (k : Cmd) (rs : List (Nat × Nat)) : Sum State (List Byte × State) :=
  let p := s.plan .read rs
  match p.1 with
  | .error (.fault va) => .inl (p.2.park k va false)
  | .error (.code c) => .inl (p.2.finish k c)
  | .error (.busy l) => .inl (p.2.refused k l)
  | .ok segs =>
    match p.2.segBusy s.core.cid false (p.2.behind k) segs with
    | some l => .inl (p.2.refused k l)
    | none =>
    if !segs.all (hasGot k.got) then .inl (p.2.ask k segs)
    else
      let r := segs.foldl (fun (acc : Option (List Byte) × State) g =>
        match acc.1 with
        | none => acc
        | some bs =>
          let q := acc.2.segRead s.core.cid k.got g
          (q.1.map (fun b => bs ++ b), q.2)) (some [], p.2)
      match r.1 with
      | none => .inl (r.2.finish k 3)
      | some bs => .inr (bs, r.2)

/-- Writes through to remote homes: the tags whose acknowledgements are awaited (05 R135). -/
def State.writeRemote (s : State) (born : Nat) (g : Seg) (bs : List Byte) : List (BitVec 32) × State :=
  match g.place with
  | .remote m pa => (reqParts g.len).foldl (fun (acc : List (BitVec 32) × State) p =>
      let t := acc.2.takeTag m
      (acc.1 ++ [t.1], t.2.sendMsg (t.2.message m 0 0 t.1
        (MemReq.bytes ⟨1, 0, p.2, false, pa + p.1, 0, 0, born, (bs.drop p.1).take p.2⟩)))) ([], s)
  | _ => ([], s)

/-- Writes the bytes of pieces in order. -/
def State.writeSegs (s : State) (born : Nat) (segs : List Seg) (bs : List Byte) : List (BitVec 32) × State :=
  let r := segs.foldl (fun (acc : List (BitVec 32) × List Byte × State) g =>
    let part := acc.2.1.take g.len
    let s1 := acc.2.2.segWrite s.core.cid s.core.cnum s.asid g part
    let w := s1.writeRemote born g part
    (acc.1 ++ w.1, acc.2.1.drop g.len, w.2)) ([], bs, s)
  (r.1, r.2.2)

/-- The lines at this module's homes that pieces touch. -/
def segLines (segs : List Seg) : List Nat := segs.flatMap (fun g => g.lines.map (fun l => l.1))

/-- The scope level at which the command's own write must be performed before it completes: of a release, of a store after a release
FENCE (11 R277), and of a relaxed STG or VSTG at its own scope (R114); 0 for none. -/
def Cmd.relScope (k : Cmd) : Nat :=
  max (if isRelease k.ins || (isCopy k.ins && Order.releases (orderOf k.ins)) then cmdScope k.ins else 0)
    (match k.ins with
     | .stg _ _ => max (cmdScope k.ins) k.fence
     | .vstg _ _ => cmdScope k.ins
     | .amo _ _ | .cas _ _ => k.fence
     | _ => 0)

/-- Checks the lines of a command's own write in, where it must be performed at .st or wider (05 R114, R122, R125, R132): a release
keeps a clean copy, a relaxed store gives the line up (log 24). The fan-outs of all its lines are awaited. -/
def State.releaseOwn (s : State) (k : Cmd) (segs : List Seg) : List Nat × State :=
  if 2 ≤ k.relScope then
    let keep := isRelease k.ins || isCopy k.ins || decide (2 ≤ k.fence)
    let r := s.releaseLines s.core.cid ((segLines segs).filter (fun l => match s.cline s.core.cid l with
      | some c => c.out
      | none => false)) keep
    ((segLines segs).flatMap r.2.fanOf, r.2)
  else ([], s)

/-- The command has written: it waits for acknowledgements and fan-outs, and a copy's release for earlier accesses, or it completes. -/
def State.written (s : State) (k : Cmd) (acks : List (BitVec 32)) (fans : List Nat) (code : BitVec 3) : State :=
  if acks.isEmpty && !s.fansRun fans && (code != 0 || s.releaseFree k) then s.finish k code
  else s.setCmd { k with stage := 2, acks := acks, fans := fans, err := code, performed := true, asked := none }

/-- Writes ranges of a store and goes on. -/
def State.writeRanges (s : State) (k : Cmd) (rs : List (Nat × Nat)) (bs : List Byte) : State :=
  let p := s.plan .write rs
  match p.1 with
  | .error (.fault va) => p.2.park k va true
  | .error (.code c) => p.2.finish k c
  | .error (.busy l) => p.2.refused k l
  | .ok segs =>
    match p.2.segBusy s.core.cid true (p.2.behind k) segs with
    | some l => p.2.refused k l
    | none =>
      let w := p.2.writeSegs (p.2.bornAt k) segs bs
      let r := w.2.releaseOwn k segs
      r.2.written k w.1 r.1 0

/-! ### Accesses at the home (11 R275, R276; 05 R127) -/

/-- The operation of an instruction at the home: kind as in `homeOp`, operation, size. -/
def homeKind : Instr → Nat × Nat × Nat
  | .stg _ o => (1, 0, 2 ^ o.size.toNat)
  | .amo _ o => (2, o.x.toNat, 2 ^ o.size.toNat)
  | .cas _ o => (3, 0, 2 ^ o.size.toNat)
  | .ldg _ o | .waitaddr _ o => (0, 0, 2 ^ o.size.toNat)
  | _ => (0, 0, 8)

/-- The register that receives a loaded value, and its extension (11 R273). -/
def State.loadInto (s : State) (i : Instr) (n v : Nat) : State :=
  match i with
  | .ldg _ o => { s with core := s.core.setX o.d (if o.x.getLsbD 0 then BitVec.ofInt 64 (toS (8 * n) v) else BitVec.ofNat 64 v) }
  | .amo _ o | .cas _ o | .waitaddr _ o => { s with core := s.core.setX o.d (BitVec.ofNat 64 v) }
  | _ => s

/-- The clock of the core after an sc operation returned its stamp. -/
def State.setClock (s : State) (sc : Bool) (t : Nat) : State :=
  if sc then { s with core := { s.core with units := { s.core.units with lamport := BitVec.ofNat 64 t } } } else s

/-- The operation at a line homed in this module. -/
def State.homeAccess (s : State) (k : Cmd) (pa : Nat) : State :=
  let op := homeKind k.ins
  let n := op.2.2
  let line := pa / 128
  let sc := orderOf k.ins == .sc
  if s.fanBusy line || s.frameBusy pa || s.behind k line then s.refused k line
  else match s.cline s.core.cid line with
    | some l =>
      if l.out then
        let s1 := s.checkIn s.core.cid line false
        if s1.fanBusy line then s1.refused k line else s1.setCmd k
      else (s.dropLine s.core.cid line).setCmd k
    | none =>
      if s.poisoned pa n then
        (s.logUe (4 * homeStack pa + 3) 0xFFFF 0 9 (BitVec.ofNat 64 pa)).finish { k with performed := true } 3
      else
        let old := s.homeNum pa n
        let y := (k.ops.getD 1 0).toNat % 2 ^ (8 * n)
        let cmp := (k.ops.getD 2 0).toNat % 2 ^ (8 * n)
        let s1 := match homeOp op.1 op.2.1 n old y cmp with
          | some v => s.homeWrite pa (leBytes n v) false [(s.core.cnum, k.addr / 128)]
          | none => s.touchL2 line false
        let st := if sc then s1.stampHome pa s.core.units.lamport.toNat (s.coreId s.core) else (0, s1)
        let s2 := (st.2.setClock sc st.1).loadInto k.ins n old
        s2.written { k with performed := true } [] (if 2 ≤ max (cmdScope k.ins) k.relScope then s2.fanOf line else []) 0

/-- The operation at a host line. -/
def State.hostAccess (s : State) (k : Cmd) (pa : Nat) : State :=
  let op := homeKind k.ins
  let n := op.2.2
  let sc := orderOf k.ins == .sc
  let s0 := s.hostFill (pa / 128)
  let old := leNat (s0.hostBytes (pa / 128) (pa % 128) n)
  let y := (k.ops.getD 1 0).toNat % 2 ^ (8 * n)
  let cmp := (k.ops.getD 2 0).toNat % 2 ^ (8 * n)
  let s1 := match homeOp op.1 op.2.1 n old y cmp with
    | some v => s0.hostPut s.asid (pa / 128) (pa % 128) (leBytes n v)
    | none => if sc then s0.hostPut s.asid (pa / 128) (pa % 128) [] else s0
  let st := if sc then s1.stampHost (pa / 128) s.core.units.lamport.toNat (s.coreId s.core) else (0, s1)
  ((st.2.setClock sc st.1).loadInto k.ins n old).finish k 0

/-- The operation at another module's home, as a kind of request: its response brings the old value and the stamp. -/
def State.remoteAccess (s : State) (k : Cmd) (kind m pa : Nat) : State :=
  let op := homeKind k.ins
  let n := op.2.2
  let t := s.takeTag m
  let y := leBytes n (k.ops.getD 1 0).toNat
  let cmp := leBytes n (k.ops.getD 2 0).toNat
  let s1 := t.2.sendMsg (t.2.message m 0 0 t.1
    (MemReq.bytes ⟨kind, op.2.1, n, orderOf k.ins == .sc, pa, s.core.units.lamport.toNat, s.coreId s.core, s.bornAt k,
      if kind = 3 then y ++ cmp else if kind = 0 then [] else y⟩))
  s1.setCmd { k with stage := if kind = op.1 then 2 else 4, asks := [(t.1, m * 2 ^ 52 + pa, n)], got := [], asked := none }

/-- AMO, CAS and every sc access: performed at the home of its line. -/
def State.atHome (s : State) (k : Cmd) : State :=
  let op := homeKind k.ins
  if k.addr % op.2.2 ≠ 0 then s.finish k 1
  else
    let p := s.plan (if op.1 = 0 then .read else .write) [(k.addr, op.2.2)]
    match p.1 with
    | .error (.fault va) => p.2.park k va (decide (op.1 ≠ 0))
    | .error (.code c) => p.2.finish k c
    | .error (.busy l) => p.2.refused k l
    | .ok [] => p.2.finish k 2
    | .ok (g :: _) =>
      match g.place with
      | .home pa => p.2.homeAccess k pa
      | .host pa => p.2.hostAccess k pa
      | .remote m pa => p.2.remoteAccess k op.1 m pa

/-! ### Memory accesses as they are performed -/

/-- An access that is not sc, performed now. -/
def State.performAccess (s : State) (k : Cmd) : State :=
  match k.ins with
  | .ldg _ o =>
    let n := 2 ^ o.size.toNat
    if k.addr % n ≠ 0 then s.finish k 1
    else match s.readRanges k [(k.addr, n)] with
      | .inl t => t
      | .inr r => (r.2.loadInto k.ins n (leNat r.1)).finish k 0
  | .stg _ o =>
    let n := 2 ^ o.size.toNat
    if k.addr % n ≠ 0 then s.finish k 1 else s.writeRanges k [(k.addr, n)] (leBytes n (k.ops.getD 1 0).toNat)
  | .vldg _ o =>
    if k.addr % esize o.ty ≠ 0 then s.finish k 1
    else match s.readRanges k k.extent with
      | .inl t => t
      | .inr r => ({ r.2 with core := r.2.core.setVec (k.ops.getD 1 0).toNat ((k.data.map (fun e => e.1)).zip r.1) } : State).finish k 0
  | .vstg _ o =>
    if k.addr % esize o.ty ≠ 0 then s.finish k 1 else s.writeRanges k k.extent (k.data.map (fun e => e.2))
  | .amo _ _ | .cas _ _ => s.atHome k
  | _ => s.finish k 0

/-- The release part of a release at .st or wider: the covered lines are checked in, and the fan-outs that perform covered writes
are awaited, those of lines that were checked in before it among them (05 R117, R122, R132). -/
def State.startRelease (s : State) (k : Cmd) (all : Bool) : Option State :=
  let covers (l : Nat) : Bool := all ||
    k.regions.any (fun r => decide (r.1.toNat ≤ l * 128) && decide (l * 128 < r.1.toNat + r.2.toNat))
  let ls := s.coveredLines s.core.cid s.core.cnum covers
  if ls.any (fun l => s.frameBusy (l * 128)) then none
  else
    let r := s.releaseLines s.core.cid ls
    some (r.2.setCmd { k with stage := 1, fans := r.1 ++ r.2.coveredFans s.core.cnum covers, got := [] })

/-! ### CAS with a release order (05 R122; 11 R276) -/

/-- A CAS whose success releases at .st or wider. -/
def isRelCas (i : Instr) : Bool :=
  match i with
  | .cas _ _ => isRelease i && decide (2 ≤ cmdScope i)
  | _ => false

/-- What the compare of a CAS would find at its home now. -/
inductive Peek where
  | known (old : Nat)
  | ask (g : Seg)
  | unknown
  deriving DecidableEq, Repr

/-- Looks at the location without performing the CAS; unknown where it cannot come to its compare yet. -/
def State.casPeek (s : State) (k : Cmd) : Peek :=
  let n := (homeKind k.ins).2.2
  if k.addr % n ≠ 0 then .unknown
  else match (s.plan .write [(k.addr, n)]).1 with
    | .ok (g :: _) =>
      match g.place with
      | .home pa => if (s.cline s.core.cid (pa / 128)).isSome || !s.homeFree pa n || s.poisoned pa n then .unknown else .known (s.homeNum pa n)
      | .host pa => .known (leNat (s.hostBytes (pa / 128) (pa % 128) n))
      | .remote _ _ => if hasGot k.got g then .known (leNat (k.got.map (fun c => c.2))) else .ask g
    | _ => .unknown

/-- The value that the CAS compares with. -/
def Cmd.casCmp (k : Cmd) : Nat := (k.ops.getD 2 0).toNat % 2 ^ (8 * (homeKind k.ins).2.2)

/-- A CAS with a release order compares first: only one that would succeed releases (R276). One that fails is a read with the
failure order; with order sc it waits for its turn as stage 3. -/
def State.relCas (s : State) (k : Cmd) : Option State :=
  let sc := orderOf k.ins == .sc
  match s.casPeek k with
  | .ask g => some (s.ask k [g])
  | .unknown => some (s.atHome k)
  | .known old =>
    if old = k.casCmp then s.startRelease k false
    else if sc then some (s.setCmd { k with stage := 3, got := [] })
    else if k.got.isEmpty then some (s.atHome k)
    else some ((s.loadInto k.ins (homeKind k.ins).2.2 old).finish k 0)

/-- The turn of an sc CAS whose compare had failed: it reads at its home, and releases after all if the compare would succeed. -/
def State.scRelCas (s : State) (k : Cmd) : Option State :=
  match s.casPeek k with
  | .known old => if old = k.casCmp then s.startRelease k false else some (s.atHome k)
  | .ask g =>
    match g.place with
    | .remote m pa => some (s.remoteAccess k 0 m pa)
    | _ => none
  | .unknown => some (s.atHome k)

/-- What a response brought for a command at a remote home. -/
def State.takeRemote (s : State) (k : Cmd) : State :=
  if k.err = 0 ∧ !k.got.isEmpty then (s.loadInto k.ins (homeKind k.ins).2.2 (leNat (k.got.map (fun c => c.2)))).finish k 0
  else s.finish k k.err

/-- A sequenced read that a CAS made at another module's home has come: a value that differs ends it. -/
def State.casRead (s : State) (k : Cmd) : Option State :=
  let v := leNat (k.got.map (fun c => c.2))
  if k.err ≠ 0 then some (s.finish k k.err)
  else if v ≠ k.casCmp then some ((s.loadInto k.ins (homeKind k.ins).2.2 v).finish k 0)
  else s.startRelease { k with performed := false } false

/-- MEMORY_ACCESS_COMPLETE's steps: release part, performance, completion. -/
def State.accessComplete (s : State) (k : Cmd) : Option State :=
  if !k.asks.isEmpty || !k.acks.isEmpty || s.fansRun k.fans then none
  else if k.stage = 2 then some (s.takeRemote k)
  else if k.stage = 4 then s.casRead k
  else if k.err ≠ 0 then some (s.finish k k.err)
  else if k.stage = 3 then none
  else if k.stage = 0 ∧ !s.mayPerform k then none
  else if k.parked.isSome || k.retry.isSome then none
  else if k.stage = 0 ∧ isRelCas k.ins then s.relCas k
  else if k.stage = 0 ∧ (isRelease k.ins ∧ 2 ≤ cmdScope k.ins) then s.startRelease k (isFence k.ins)
  else if orderOf k.ins = .sc then (if k.stage = 0 then some (s.setCmd { k with stage := 1 }) else none)
  else some (s.performAccess k)

/-- The instructions that MEMORY_ACCESS_COMPLETE completes (05 R114). -/
def isMemAccess : Instr → Bool
  | .ldg _ _ | .stg _ _ | .vldg _ _ | .vstg _ _ | .amo _ _ | .cas _ _ | .fence _ _ => true
  | _ => false

/-- MEMORY_ACCESS_COMPLETE (R114, R117, R122). -/
def execMemoryAccessComplete (c seq : Nat) (s : State) : Host.Outcome State Fault Refusal :=
  enabledOr "MEMORY_ACCESS_COMPLETE" (s.atCore? c (fun s =>
    match s.cmd seq with
    | none => none
    | some k => if isMemAccess k.ins then s.accessComplete k else none))

/-- SC_PERFORM (R127): the sequencer sends the oldest sc operation; its home performs it and stamps it. -/
def execScPerform (c seq : Nat) (s : State) : Host.Outcome State Fault Refusal :=
  enabledOr "SC_PERFORM" (s.atCore? c (fun s =>
    match s.cmd seq with
    | none => none
    | some k =>
      if orderOf k.ins ≠ .sc ∨ (k.stage ≠ 1 ∧ k.stage ≠ 3) ∨ k.performed ∨ !k.asks.isEmpty ∨ s.fansRun k.fans ∨ !s.mayPerform k then none
      else if isFence k.ins then
        some (({ s with core := { s.core with units := { s.core.units with lamport := s.core.units.lamport + 1 } } } : State).setCmd
          { k with stage := 2, performed := true })
      else if k.stage = 3 then s.scRelCas k
      else some (s.atHome k)))

/-! ### Copies (11 R268, R269) -/

/-- A row of a copy: member, source address, destination address. -/
structure CopyRow where
  g : Nat
  sa : Nat
  da : Nat
  deriving DecidableEq, Repr

/-- Space codes, REP, LEN, NROW of a copy; CPYR writes its ring slot in scratchpad. -/
def copyShape (k : Cmd) : Nat × Nat × Bool × Nat × Nat :=
  let sh := k.ops.getD 2 0
  match k.ins with
  | .cpy _ o => ((o.ssp : BitVec 2).toNat, (o.dsp : BitVec 2).toNat, o.flags.getLsbD 1, fld sh 0 32, fld sh 32 32)
  | .cpyr _ o => ((o.ssp : BitVec 2).toNat, 0, o.flags.getLsbD 1, fld sh 0 32, fld sh 32 32)
  | _ => (0, 0, false, 0, 0)

/-- Place of R268. -/
def copyPlace (sp : Nat) (base str : Word) (nrow g r : Nat) (rep : Bool) : Nat :=
  let i := if sp = 0 ∨ rep then r else g * nrow + r
  (base + BitVec.ofNat 64 i * str).toNat

/-- The rows of a copy, member by member in row order. -/
def copyRows (k : Cmd) (gs : Nat) : List CopyRow :=
  let c := copyShape k
  let sstr := ((k.ops.getD 3 0).extractLsb' 0 32).signExtend 64
  let dstr := ((k.ops.getD 3 0).extractLsb' 32 32).signExtend 64
  let dst := k.ops.getD 0 0 + BitVec.ofNat 64 k.addr
  (List.range gs).flatMap (fun g => (List.range c.2.2.2.2).map (fun r =>
    ⟨g, copyPlace c.1 (k.ops.getD 1 0) sstr c.2.2.2.2 g r c.2.2.1, copyPlace c.2.1 dst dstr c.2.2.2.2 g r false⟩))

/-- One side of a row in a space: pieces of memory, or a check of the scratchpad or weight-store range. -/
def State.rowSide (s : State) (sp : Nat) (write : Bool) (a n : Nat) : Except Stop (List Seg) × State :=
  if sp = 0 then (if s.okBanks a n then .ok [] else .error (.code 2), s)
  else if sp = 1 then s.plan (if write then .write else .read) [(a, n)]
  else (if write ∨ 0xC0000000 < a + n then .error (.code 2) else .ok [], s)

/-- A row with its pieces. -/
structure RowPlan where
  row : CopyRow
  src : List Seg
  dst : List Seg
  deriving DecidableEq, Repr

/-- The rows up to the first that cannot be moved, and why it cannot: the stop and whether a write meets it. -/
def State.planRows (ssp dsp n : Nat) : List CopyRow → State → List RowPlan × Option (Stop × Bool) × State
  | [], s => ([], none, s)
  | r :: rs, s =>
    let a := s.rowSide ssp false r.sa n
    match a.1 with
    | .error e => ([], some (e, false), a.2)
    | .ok src =>
      let b := a.2.rowSide dsp true r.da n
      match b.1 with
      | .error e => ([], some (e, true), b.2)
      | .ok dst =>
        let q := State.planRows ssp dsp n rs b.2
        (⟨r, src, dst⟩ :: q.1, q.2.1, q.2.2)

/-- The bytes of a row's source, or none where a correction fails; `ue` says that one fails in scratchpad or the weight store, which
the outside tells (16 R344; log 11). -/
def State.rowRead (s : State) (k : Cmd) (ue : Bool) (ssp n : Nat) (p : RowPlan) : Option (List Byte) × State :=
  if ue && ssp != 1 then (none, s)
  else if ssp = 0 then (some (s.bankRead p.row.g p.row.sa n), s)
  else if ssp = 1 then
    p.src.foldl (fun (acc : Option (List Byte) × State) g =>
      match acc.1 with
      | none => acc
      | some bs =>
        let q := acc.2.segRead s.core.cid k.got g
        (q.1.map (fun b => bs ++ b), q.2)) (some [], s)
  else (some ((s.stack s.core.stk).ws.getN p.row.sa n), s)

/-- Moves rows in order: tags of remote writes, whether an uncorrectable error stopped it. -/
def State.moveRows (k : Cmd) (ue : Bool) (born ssp dsp n : Nat) : List RowPlan → State → List (BitVec 32) × Bool × State
  | [], s => ([], false, s)
  | p :: ps, s =>
    let r := s.rowRead k ue ssp n p
    match r.1 with
    | none => ([], true, r.2)
    | some bs =>
      let w := if dsp = 0 then ([], r.2.putBank (r.2.bankCells true p.row.g p.row.da bs)) else r.2.writeSegs born p.dst bs
      let q := State.moveRows k ue born ssp dsp n ps w.2
      (w.1 ++ q.1, q.2.1, q.2.2)

/-- A weight-store group is in its refresh window (05 R115). -/
def State.refreshing (s : State) (stk g : Nat) : Bool := decide (((s.stack stk).wsphase.toNat + 8192 - 512 * g) % 8192 < 64)

/-- Groups of the weight store that a range touches. -/
def wsGroups (a n : Nat) : List Nat :=
  (List.range 16).filter (fun g => decide (n ≥ 16384) ||
    (List.range (n / 1024 + 2)).any (fun i => decide (min (a + 1024 * i) (a + n - 1) / 1024 % 16 = g)))

/-- The copy as it moves its bytes: all of them in one event. R126 lets them become visible in aligned 8-byte pieces in any order, and
R120 the same of wide and vector accesses; the model's order is one of those (log 48). -/
def State.performCopy (s : State) (k : Cmd) (ue : Bool) : State :=
  let c := copyShape k
  let n := c.2.2.2.1
  let p := State.planRows c.1 c.2.1 n (copyRows k s.core.g) s
  match p.2.1 with
  | some (.fault va, w) => p.2.2.park k va w
  | some (.busy l, _) => p.2.2.refused k l
  | stop =>
    let s1 := p.2.2
    if c.1 = 2 ∧ p.1.any (fun r => (wsGroups r.row.sa n).any (s1.refreshing s.core.stk)) then s1.setCmd { k with window := true, asked := none }
    else match (s1.segBusy s.core.cid false (s1.behind k) (p.1.flatMap (fun r => r.src))).or
        (s1.segBusy s.core.cid true (s1.behind k) (p.1.flatMap (fun r => r.dst))) with
    | some l => s1.refused k l
    | none =>
    if !p.1.all (fun r => r.src.all (hasGot k.got)) then s1.ask k (p.1.flatMap (fun r => r.src))
    else
      let m := State.moveRows k ue (s1.bornAt k) c.1 c.2.1 n p.1 s1
      let code : BitVec 3 := if m.2.1 then 3 else match stop with
        | some (.code e, _) => e
        | _ => 0
      let r := m.2.2.releaseOwn k (p.1.flatMap (fun r => r.dst))
      r.2.written k m.1 r.1 code

/-- What an acquire flag at .st or wider waits for beside completed accesses: its core's writes are checked in, and their fan-outs
end (05 R125). -/
def State.copyPush (s : State) (k : Cmd) (ue : Bool) : Option State :=
  let first := decide (k.stage = 0) && Order.acquires (orderOf k.ins) && decide (2 ≤ cmdScope k.ins)
  let ls := if first then s.coveredLines s.core.cid s.core.cnum (fun _ => true) else []
  let fs := if first then s.coveredFans s.core.cnum (fun _ => true) else []
  if ls.isEmpty && fs.isEmpty then some (s.performCopy { k with stage := 1 } ue)
  else if ls.any (fun l => s.frameBusy (l * 128)) then none
  else
    let r := s.releaseLines s.core.cid ls
    some (r.2.setCmd { k with stage := 1, fans := r.1 ++ fs })

/-- COPY_COMPLETE (R268 to R270; 05 R125): a copy moves its bytes and, with a release flag, releases them. -/
def execCopyComplete (c : Nat) (o : CopyEnd) (s : State) : Host.Outcome State Fault Refusal :=
  enabledOr "COPY_COMPLETE" (s.atCore? c (fun s =>
    match s.cmd o.seq with
    | none => none
    | some k =>
      if !isCopy k.ins || !k.asks.isEmpty || !k.acks.isEmpty || s.fansRun k.fans then none
      else if k.err != 0 then some (s.finish k k.err)
      else if k.stage = 2 then (if s.releaseFree k then some (s.finish k 0) else none)
      else if !s.mayPerform k then none
      else s.copyPush k o.ue))

/-- The weight-store groups that a copy reads. -/
def copyGroups (k : Cmd) (gs : Nat) : List Nat :=
  let c := copyShape k
  if c.1 = 2 then (copyRows k gs).flatMap (fun r => wsGroups r.sa c.2.2.2.1) else []

/-- WS_REFRESH_WINDOW_END (R115): copies that wait for the group go on. -/
def execWsRefreshWindowEnd (stk grp : Nat) (s : State) : Host.Outcome State Fault Refusal :=
  enabledOr "WS_REFRESH_WINDOW_END" (
    let waits (c : Core) (k : Cmd) : Bool := k.window && c.stk == stk && (copyGroups k c.g).contains grp
    if s.refreshing stk grp || !s.cores.any (fun c => c.units.cmds.any (waits c)) then none
    else some (s.mapCores (fun c => { c with units := { c.units with
      cmds := c.units.cmds.map (fun k => if waits c k then { k with window := false } else k) } })))

/-- RETRY_BACKOFF_EXPIRE (R130, R133): a refused request is made again; of those refused on one line the oldest goes first. -/
def execRetryBackoffExpire (c seq : Nat) (s : State) : Host.Outcome State Fault Refusal :=
  enabledOr "RETRY_BACKOFF_EXPIRE" (s.atCore? c (fun s =>
    match s.cmd seq with
    | none => none
    | some k =>
      if k.retry.isSome && s.cores.all (fun d => d.units.cmds.all (fun j => j.retry != k.retry ||
          olderReq (k.born, s.core.cnum, k.seq) (j.born, d.cnum, j.seq))) then some (s.setCmd { k with retry := none })
      else none))

/-! ### WAITADDR (11 R278) -/

/-- One read of a watch; `last` says that the watch ends with it in any case. -/
def State.watchRead (s : State) (k : Cmd) (final : Bool) : State :=
  let n := (homeKind k.ins).2.2
  if k.err ≠ 0 then s.finish k k.err
  else if k.addr % n ≠ 0 then s.finish k 1
  else match s.readRanges k [(k.addr, n)] with
    | .inl t => t
    | .inr r =>
      let v := leNat r.1
      if final ∨ v ≠ (k.ops.getD 2 0).toNat % 2 ^ (8 * n) then (r.2.loadInto k.ins n v).finish k 0
      else r.2.setCmd { k with last := BitVec.ofNat 64 v, performed := true, got := [], asked := none }

/-- WAITADDR_POLL. -/
def execWaitaddrPoll (c seq : Nat) (s : State) : Host.Outcome State Fault Refusal :=
  enabledOr "WAITADDR_POLL" (s.atCore? c (fun s =>
    match s.cmd seq with
    | none => none
    | some k => if !isWatch k.ins || !k.asks.isEmpty || !s.mayPerform k then none else some (s.watchRead k false)))

/-- WAITADDR_TIMEOUT: the time base has reached the limit; the last value read is returned. -/
def execWaitaddrTimeout (c seq : Nat) (s : State) : Host.Outcome State Fault Refusal :=
  enabledOr "WAITADDR_TIMEOUT" (s.atCore? c (fun s =>
    match s.cmd seq with
    | none => none
    | some k =>
      if !isWatch k.ins || !k.limit.any (fun l => decide (l ≤ s.regs.m.tbase.toNat)) then none
      else if k.performed then some ((s.loadInto k.ins (homeKind k.ins).2.2 k.last.toNat).finish k 0)
      else if !k.asks.isEmpty || !s.mayPerform k then none
      else some (s.watchRead k true)))

/-! ### LSEND (11 R283) -/

/-- Appends to a local receive queue. -/
def State.enqueue (s : State) (entry : Nat) (m : QMsg) : State :=
  let c := s.channel entry
  s.setChannel { c with queue := c.queue ++ [m] }

/-- The path of a channel is lost. -/
def State.pathLost (s : State) (e : ChEntry) : State := s.setChannel { s.channel e.idx with down := true }

/-- The message of an LSEND at its delivery: 256 bytes of member 0, or the error that makes it a marker. -/
def State.sendBody (s : State) (k : Cmd) : QMsg :=
  if k.addr % 256 ≠ 0 then .failed 1
  else if !s.okBanks k.addr 256 then .failed 2
  else .msg (s.bankRead 0 k.addr 256)

def QMsg.bytes : QMsg → List Byte
  | .msg bs => bs
  | .failed c => leBytes 1 c.toNat

def QMsg.code : QMsg → BitVec 3
  | .msg _ => 0
  | .failed c => c

/-- The message goes to the receiver's queue or onto its path. -/
def State.deliver (s : State) (k : Cmd) (e : ChEntry) : Option State :=
  let m := s.sendBody k
  if e.dstm = s.mid then
    if 64 ≤ (s.channel e.idx).queue.length then none else some ((s.enqueue e.idx m).finish k m.code)
  else if s.nmod < e.dstm ∨ (s.route e.dstm).isNone ∨ (s.channel e.idx).down then some ((s.pathLost e).finish k 7)
  else
    let t := s.takeTag e.dstm
    some ((t.2.sendMsg (t.2.message e.dstm 2 e.idx 0 m.bytes)).setCmd
      { k with stage := 2, err := m.code, acks := [t.1], last := BitVec.ofNat 64 e.idx })

/-- LSEND_DELIVERED (R283; 02 R50, R60): messages of a channel leave in order, after a release of the core's writes. -/
def execLsendDelivered (c seq : Nat) (s : State) : Host.Outcome State Fault Refusal :=
  enabledOr "LSEND_DELIVERED" (s.atCore? c (fun s =>
    match s.cmd seq with
    | none => none
    | some k =>
      match k.ins with
      | .lsend _ o =>
        if !k.acks.isEmpty || s.fansRun k.fans then none
        else if k.stage = 2 then some (s.finish k k.err)
        else if !s.mayPerform k || s.core.units.cmds.any (fun j => decide (j.seq < k.seq) && (match j.ins with
          | .lsend _ q => q.shape == o.shape
          | _ => false)) then none
        else if k.stage = 0 ∧ isRelease k.ins ∧ 2 ≤ cmdScope k.ins then s.startRelease k true
        else match s.sendEntry o.shape with
          | none => some (s.finish k 7)
          | some e => s.deliver k e
      | _ => none))

end Sys2Proof.Machine
end

