-- ==== Sys2Proof/Machine/Copy.lean ====
section
/-! DEFINITION. The copy slots C0 and C1 at issue (11 Table 11.1), except for the Crucible instructions. -/
namespace Sys2Proof.Machine
open Sys2Proof

/-! ### Common rules (R263 to R265) -/

/-- An enabled C-slot instruction; in a SPEC bundle one that R265 does not list is ILLOP. -/
def cissue (i : Instr) (h : Head) (specOk : Bool) (s : State) (body : SlotRes) : Host.Outcome State Fault Refusal :=
  issue h (cslot h) s (if h.spec && !specOk then .illop i else body)

/-- A C-slot command of the phase is logged (R265; 16 R357). -/
def State.logged (s : State) (i : Instr) (h : Head) (ops : List Word) (data : List (Nat × Byte) := []) : State :=
  if h.spec then s else s.logCommand i ops data

/-- An instruction that only waits for room on its token: held while its count is 15 (03 R63, R82). -/
def tokenRoom (s : State) (tok : KTok) (r : SlotRes) : SlotRes :=
  if s.holdClear (.tokenFull tok) then r else .hold [.tokenFull tok]

/-- The operands of a log entry: of VLDG and VSTG not the resolved place of the register. -/
def loggedOps (i : Instr) (ops : List Word) : List Word :=
  match i with
  | .vldg _ _ | .vstg _ _ => ops.take 1
  | _ => ops

/-- The vector operand of a log entry: VSTG's enabled bytes; of VLDG which bytes are enabled. -/
def loggedData (i : Instr) (data : List (Nat × Byte)) : List (Nat × Byte) :=
  match i with
  | .vldg _ _ => data.map (fun e => (e.1, 0))
  | .vstg _ _ => data
  | _ => []

/-- A command as it issues: the token counts it, it is logged and outstanding. -/
def State.start (s : State) (i : Instr) (h : Head) (tok : KTok) (ops : List Word) (addr : Nat) (data : List (Nat × Byte))
    (ring : Option (Nat × Nat)) : State :=
  let s1 := s.logged i h (loggedOps i ops) (loggedData i data)
  let c := s1.core
  let obj := BitVec.ofNat 64 (addr / 8 * 8)
  let k : Cmd :=
    { seq := c.units.nextSeq, unit := h.unit, ins := i, tok := tok, spec := h.spec, ops := ops, addr := addr, data := data, ring := ring,
      regions := (c.units.bindings.filter (fun b => b.obj == obj)).map (fun b => (b.base, b.len)), fence := c.units.fence,
      err := 0, parked := none, retry := none, asked := none, window := false, performed := false, last := 0, limit := none, pins := [],
      born := c.front.clock, stage := 0, fans := [], asks := [], got := [], acks := [] }
  let c1 := c.setToken tok ((c.token tok).arm h.spec)
  { s1 with core := { c1 with units := { c1.units with cmds := c1.units.cmds ++ [k], nextSeq := c1.units.nextSeq + 1 } } }

/-- CNOP (R263): no effect. -/
def execCnop (h : Head) (s : State) : Host.Outcome State Fault Refusal :=
  cissue (.cnop h) h true s (.ok s)

/-! ### Copies (R266 to R272) -/

/-- The operands of a copy, read at issue. -/
def copyOps (c : Core) (o : CB) : List Word := [c.x o.dst, c.x o.src, c.x o.shape, c.x (o.shape + 1)]

/-- R266 refuses a shape. -/
def badShape (w : Word) : Bool :=
  let len := fld w 0 32
  let n := fld w 32 32
  decide (len = 0) || decide (1048576 < len) || decide (n = 0) || decide (65536 < n) || decide (16777216 < len * n)

/-- Marks the bank pairs that a speculative extent touches. -/
def State.touchAll (s : State) (ext : List (Nat × Nat)) : State := ext.foldl (fun s e => s.touchPairs e.1 e.2) s

/-- CPY (R268): a copy on a token; in a SPEC bundle only into bank-pair banks. -/
def execCpy (h : Head) (o : CB) (s : State) : Host.Outcome State Fault Refusal :=
  let ops := copyOps s.core o
  let i := Instr.cpy h o
  cissue i h (decide (o.dsp = 0)) s (
    if badShape (ops.getD 2 0) || (o.flags.getLsbD 1 && decide (o.ssp = 0)) ||
       (h.spec && !(copyDests ops).all (fun e => s.inPairs e.1 e.2)) then .illop i
    else tokenRoom s o.token (
      let s1 := if h.spec then s.touchAll (copyDests ops) else s
      .ok ((s1.start i h o.token ops 0 [] none).markIrrevocable (orderOf i != .rlx))))

/-- A row of CPYR leaves the slot (R271). -/
def outsideSlot (size : Nat) (ops : List Word) : Bool := (copyDests ops).any (fun e => decide (size < e.1 + e.2))

/-- CPYR (R271; 03 R81): reserves the next slot of its ring, held while the ring is full. -/
def execCpyr (h : Head) (o : CB) (s : State) : Host.Outcome State Fault Refusal :=
  let ops := copyOps s.core o
  let i := Instr.cpyr h o
  let r := s.core.ring o.ring
  cissue i h false s (
    if badShape (ops.getD 2 0) || (o.flags.getLsbD 1 && decide (o.ssp = 0)) || !r.on || !s.okRing r.word ||
       outsideSlot (slotBytes r.ssz.toNat) ops then .illop i
    else if !s.holdClear (.ringFull o.ring 1) then .hold [.ringFull o.ring 1]
    else tokenRoom s o.token (
      let slot := (r.resv + BitVec.ofNat 12 (s.core.claimed o.ring)).toNat
      let s1 := s.start i h o.token ops (r.slotAddr slot) [] (some (o.ring.toNat, slot))
      .ok ((s1.boundary (.claim o.ring ⟨s.core.units.nextSeq, 1, false⟩)).markIrrevocable (orderOf i != .rlx))))

/-- RADV (R272): moves TAIL, or CONS and HEAD, by x[src] mod 4,096, at the boundary. -/
def execRadv (h : Head) (o : CB) (s : State) : Host.Outcome State Fault Refusal :=
  let n := fld (s.core.x o.src) 0 12
  let i := Instr.radv h o
  let r := s.core.ring o.ring
  cissue i h false s (
    if !r.on || decide (r.nslot.toNat + 1 < n) then .illop i
    else
      let s1 := s.logged i h [s.core.x o.src]
      if n = 0 then .ok s1
      else if o.flags.getLsbD 0 then
        if !s.holdClear (.ringFill o.ring n) then .hold [.ringFill o.ring n]
        else .ok (s1.boundary (.pop o.ring ⟨s.core.units.nextNum, n, true⟩))
      else if !s.holdClear (.ringFull o.ring n) then .hold [.ringFull o.ring n]
      else .ok (s1.boundary (.claim o.ring ⟨s.core.units.nextSeq, n, true⟩)))

/-! ### Memory instructions (R273 to R278) -/

/-- A memory instruction of form CA: its order is one of its row, then it waits for its token. -/
def memIssue (i : Instr) (h : Head) (o : CA) (legal : Bool) (ops : List Word) (irrev : Bool) (s : State) : Host.Outcome State Fault Refusal :=
  cissue i h false s (
    if !legal then .illop i
    else tokenRoom s o.token (.ok ((s.start i h o.token ops (s.core.x o.addr).toNat [] none).markIrrevocable irrev)))

/-- LDG (R273): orders rlx, acq, sc. -/
def execLdg (h : Head) (o : CA) (s : State) : Host.Outcome State Fault Refusal :=
  memIssue (.ldg h o) h o (o.so == .rlx || o.so == .acq || o.so == .sc) [s.core.x o.addr] (o.so != .rlx) s

/-- STG (R273): orders rlx, rel, sc. -/
def execStg (h : Head) (o : CA) (s : State) : Host.Outcome State Fault Refusal :=
  memIssue (.stg h o) h o (o.so == .rlx || o.so == .rel || o.so == .sc) [s.core.x o.addr, s.core.x o.val] (o.so != .rlx) s

/-- The vector bytes of the enabled elements. -/
def Core.enabledBytes (c : Core) (h : Head) (b : Nat) : List Nat :=
  (c.enabledElems h b).flatMap (fun e => (List.range b).map (fun k => e * b + k))

/-- VLDG and VSTG: with no element enabled suppressed; the register is resolved at issue, VSTG's bytes are read then. -/
def vecIssue (i : Instr) (h : Head) (o : CV) (legal : Bool) (s : State) : Host.Outcome State Fault Refusal :=
  let es := s.core.enabledBytes h (esize o.ty)
  if es.isEmpty then .next s
  else settle (cslot h) s (
    if h.spec || !legal then .illop i
    else match s.core.vaddr o.v with
      | none => .illop i
      | some va => tokenRoom s o.token (
          .ok ((s.start i h o.token [s.core.x o.addr, BitVec.ofNat 64 va] (s.core.x o.addr).toNat
            (es.map (fun p => (p, s.core.vbyte va p))) none).markIrrevocable (o.order != .rlx))))

/-- VLDG (R274): orders rlx, acq. -/
def execVldg (h : Head) (o : CV) (s : State) : Host.Outcome State Fault Refusal :=
  vecIssue (.vldg h o) h o (o.order == .rlx || o.order == .acq) s

/-- VSTG (R274): orders rlx, rel. -/
def execVstg (h : Head) (o : CV) (s : State) : Host.Outcome State Fault Refusal :=
  vecIssue (.vstg h o) h o (o.order == .rlx || o.order == .rel) s

/-- AMO (R275): every order. -/
def execAmo (h : Head) (o : CA) (s : State) : Host.Outcome State Fault Refusal :=
  memIssue (.amo h o) h o true [s.core.x o.addr, s.core.x o.val] true s

/-- CAS (R276): every order; sc with FO = 0 is ILLOP (07 R170). -/
def execCas (h : Head) (o : CA) (s : State) : Host.Outcome State Fault Refusal :=
  memIssue (.cas h o) h o (o.so != .sc || o.fo) [s.core.x o.addr, s.core.x o.val, s.core.x o.x] true s

/-- FENCE (R277): orders acq, rel, ar, sc. After a release FENCE the stores of later bundles count as releases at its scope. -/
def execFence (h : Head) (o : CA) (s : State) : Host.Outcome State Fault Refusal :=
  let i := Instr.fence h o
  cissue i h false s (
    if o.so == .rlx then .illop i
    else tokenRoom s o.token (
      let s1 := (s.start i h o.token [] (s.core.x o.addr).toNat [] none).markIrrevocable true
      .ok (if Order.releases o.so then s1.boundary (.fence (scopeLevel o.scope)) else s1)))

/-- WAITADDR (R278): orders rlx, acq; the limit counts from issue, zero for none. -/
def execWaitaddr (h : Head) (o : CA) (s : State) : Host.Outcome State Fault Refusal :=
  let i := Instr.waitaddr h o
  let t := s.core.x o.val
  cissue i h false s (
    if !(o.so == .rlx || o.so == .acq) then .illop i
    else tokenRoom s o.token (
      let s1 := s.start i h o.token [s.core.x o.addr, t, s.core.x o.x] (s.core.x o.addr).toNat [] none
      let lim := if t = 0 then none else some (s.regs.m.tbase.toNat + t.toNat)
      let n := s.core.units.cmds.length
      .ok { s1 with core := { s1.core with units := { s1.core.units with
        cmds := s1.core.units.cmds.take n ++ (s1.core.units.cmds.drop n).map (fun k => { k with limit := lim }) } } }))

/-! ### Bindings (R279; 05 R121) -/

/-- Entries of the binding table with the changes of the bundle so far. -/
def State.bindingsNext (s : State) : List Binding := (s.core.front.bnd.foldl Core.applyBnd s.core).units.bindings

/-- R121 refuses a BIND. -/
def badBind (tbl : List Binding) (base len obj : Word) : Bool :=
  decide (base.toNat % 128 ≠ 0) || decide (obj.toNat % 8 ≠ 0) || decide (len.toNat % 128 ≠ 0) || decide (len.toNat < 128) ||
  decide (2 ^ 30 < len.toNat) ||
  (decide (8 ≤ tbl.length) && !tbl.any (fun b => b.base == base && b.len == len && b.obj == obj))

/-- BIND (R279): the table changes at the boundary. -/
def execBind (h : Head) (o : CA) (s : State) : Host.Outcome State Fault Refusal :=
  let i := Instr.bind h o
  let c := s.core
  cissue i h false s (
    if badBind s.bindingsNext (c.x o.val) (c.x o.x) (c.x o.addr) then .illop i
    else .ok ((s.logged i h [c.x o.addr, c.x o.val, c.x o.x]).boundary (.bind (c.x o.val) (c.x o.x) (c.x o.addr))))

/-- UNBIND (R279): removes every entry of the object at the boundary. -/
def execUnbind (h : Head) (o : CA) (s : State) : Host.Outcome State Fault Refusal :=
  let i := Instr.unbind h o
  cissue i h false s (.ok ((s.logged i h [s.core.x o.addr]).boundary (.unbind (s.core.x o.addr))))

/-! ### Barriers (R280; 02 R45, R46) -/

/-- Marks an arrival that the bundle in issue has made: by slot and level. -/
def arrvKey (h : Head) (lvl : Nat) : Nat := 8 * cslot h + lvl

def State.markArrival (s : State) (k : Nat) : State :=
  { s with core := { s.core with front := { s.core.front with arrv := s.core.front.arrv ++ [k] } } }

/-- The wait of BARW for the core's last arrival. -/
def State.barWait (s : State) (h : Head) (lvl : Nat) : Host.Outcome State Fault Refusal :=
  settle (cslot h) s (if s.holdClear (.barGen lvl (s.lastArrival lvl)) then .ok s else .hold [.barGen lvl (s.lastArrival lvl)])

/-- The arrival, made once however often the bundle is presented; held while the core is a generation ahead. -/
def State.barArrive (s : State) (h : Head) (lvl : Nat) (thenWait : Bool) : Host.Outcome State Fault Refusal :=
  let key := arrvKey h lvl
  if s.core.front.arrv.contains key then (if thenWait then s.barWait h lvl else .next s)
  else if !s.holdClear (.barAhead lvl) then settle (cslot h) s (.hold [.barAhead lvl])
  else
    let s1 := (s.arrive lvl).markArrival key
    if thenWait then s1.barWait h lvl else .next s1

/-- A barrier instruction: ILLOP in a SPEC bundle and at .sy. -/
def barIssue (i : Instr) (h : Head) (o : CB) (s : State) (body : State → Host.Outcome State Fault Refusal) : Host.Outcome State Fault Refusal :=
  if !s.core.enabled h then .next s
  else if h.spec ∨ o.scope = .sy then settle (cslot h) s (.illop i)
  else body (s.logged i h []).irrevocable

/-- BAR (R45): arrives and waits. -/
def execBar (h : Head) (o : CB) (s : State) : Host.Outcome State Fault Refusal :=
  barIssue (.bar h o) h o s (fun s => s.barArrive h (scopeLevel o.scope) true)

/-- BARA (R45): arrives. -/
def execBara (h : Head) (o : CB) (s : State) : Host.Outcome State Fault Refusal :=
  barIssue (.bara h o) h o s (fun s => s.barArrive h (scopeLevel o.scope) false)

/-- BARW (R45): waits for the last arrival's generation. -/
def execBarw (h : Head) (o : CB) (s : State) : Host.Outcome State Fault Refusal :=
  barIssue (.barw h o) h o s (fun s => s.barWait h (scopeLevel o.scope))

/-- SSTEP (R46): waits for commands of the scope, releases every write, then arrives and waits as BAR. -/
def execSstep (h : Head) (o : CB) (s : State) : Host.Outcome State Fault Refusal :=
  let lvl := scopeLevel o.scope
  barIssue (.sstep h o) h o s (fun s =>
    if s.core.front.arrv.contains (arrvKey h lvl) then s.barWait h lvl
    else if s.scopeBusy lvl then settle (cslot h) s (.hold [.scopeDone lvl])
    else
      let ls := if 2 ≤ lvl then s.coveredLines s.core.cid s.core.cnum (fun _ => true) else []
      let s1 := (s.releaseLines s.core.cid ls).2
      if s1.holdClear (.scopeDone lvl) then s1.barArrive h lvl true else settle (cslot h) s1 (.hold [.scopeDone lvl]))

/-! ### Broadcast bus (R281, R282) -/

/-- The bus of the core's cluster in this issue cycle. -/
def State.bus (s : State) : Bus := (s.buses.find? (fun b => b.cluster == s.core.cid)).getD ⟨s.core.cid, [], []⟩

def State.setBus (s : State) (b : Bus) : State := { s with buses := s.buses.filter (fun d => d.cluster != b.cluster) ++ [b] }

/-- The checks of BCAST and LATCH, then the effect. -/
def busIssue (i : Instr) (h : Head) (a : Word) (s : State) (f : State → State) : Host.Outcome State Fault Refusal :=
  cissue i h false s (
    if s.core.lockm = 0 then .illop i
    else if a.toNat % 256 ≠ 0 then .fault cALIGN 0xFF a
    else if !s.okBanks a.toNat 512 then .fault cXLATE 0xFF a
    else .ok (f ((s.logged i h [a]).irrevocable)))

/-- BCAST (R281): drives 512 bytes of member 0 onto the cluster bus. -/
def execBcast (h : Head) (o : CB) (s : State) : Host.Outcome State Fault Refusal :=
  let a := s.core.x o.src
  busIssue (.bcast h o) h a s (fun s => s.setBus { s.bus with segs := s.bus.segs ++ [s.bankRead 0 a.toNat 512] })

/-- LATCH (R281): receives the cycle's segment. -/
def execLatch (h : Head) (o : CB) (s : State) : Host.Outcome State Fault Refusal :=
  let a := s.core.x o.dst
  busIssue (.latch h o) h a s (fun s => s.setBus { s.bus with latches := s.bus.latches ++ [(s.core.cnum, a.toNat)] })

/-- The end of the bus cycle (R282): one segment is written to the back banks four cycles on; none or several are a bus
error for every LATCH, with a trap where BUSERRE stands before the bundle (03 R59, R84). The sticky bit is a write of the C
slot: it comes after that of an MVTC in S (03 R61; log 41). -/
def State.busCycle (s : State) : State :=
  let s1 := s.buses.foldl (fun s b => b.latches.foldl (fun s l =>
    s.atCore l.1 (fun s =>
      match b.segs with
      | [seg] => { s with core := s.core.pushBank 4 (s.bankCellsAll true l.2 seg) }
      | _ => s.boundary (.busErr (BitVec.ofNat 64 l.2) (s.core.ctl.sticky.getLsbD 9)))) s) s
  { s1 with buses := [] }

/-! ### Links (R283, R284) -/

/-- LSEND (R283; 02 R50): the channel must be configured; held while its path is paused. -/
def execLsend (h : Head) (o : CB) (s : State) : Host.Outcome State Fault Refusal :=
  let i := Instr.lsend h o
  cissue i h false s (
    if o.scope = .sy ∨ !(orderOf i == .rlx || orderOf i == .rel) then .illop i
    else if !s.chTableFree then .hold [.path o.shape]
    else match s.sendEntry o.shape with
      | none => .illop i
      | some e =>
        if !s.holdClear (.path o.shape) then .hold [.path o.shape]
        else tokenRoom s o.token (
          .ok ((((s.chTouch e).start i h o.token [s.core.x o.src] (s.core.x o.src).toNat [] none).irrevocable).markIrredispatch true)))

/-- Tells a sender's module that its channel may go on once an entry is freed (02 R50; 15 R339). -/
def State.resumeChannel (s : State) (e : Nat) : State :=
  let c := s.channel e
  if c.paused && decide (c.queue.length < 64) then
    (List.range 16).foldl (fun s n =>
      let l := s.link n
      if l.sentCpause.contains (BitVec.ofNat 12 e) then
        (s.setLink n { l with sentCpause := l.sentCpause.erase (BitVec.ofNat 12 e), sentResume := l.sentResume ++ [(1, e)] }).sendControl n 5 e
      else s) (s.setChannel { c with paused := false })
  else s

/-- LRECV (R284): takes the oldest message of its channel, held while the queue is empty and the path is up. -/
def execLrecv (h : Head) (o : CB) (s : State) : Host.Outcome State Fault Refusal :=
  let i := Instr.lrecv h o
  let a := (s.core.x o.dst).toNat
  cissue i h false s (
    if o.scope = .sy ∨ !(orderOf i == .rlx || orderOf i == .acq) then .illop i
    else if !s.chTableFree then .hold [.empty o.shape]
    else match s.recvEntry o.shape with
      | none => .illop i
      | some e =>
        let q := s.channel e.idx
        if a % 256 ≠ 0 then .fault cALIGN 0xFF (s.core.x o.dst)
        else if !s.okBanks a 256 then .fault cXLATE 0xFF (s.core.x o.dst)
        else match q.queue with
          | [] => if q.down then .fault cLINKDOWN 0xFF (s.core.x o.dst) else .hold [.empty o.shape]
          | .failed code :: _ => .fault code.toNat 0xFF (BitVec.ofNat 64 (2 ^ 63 + o.shape.toNat))
          | .msg bs :: rest =>
            let s1 := (((s.chTouch e).logged i h [s.core.x o.dst]).irrevocable).markIrredispatch true
            let s2 := (s1.setChannel { q with queue := rest }).resumeChannel e.idx
            .ok { s2 with core := s2.core.pushBank 4 (s2.bankCellsAll true a bs) })

end Sys2Proof.Machine
end

