-- ==== Sys2Proof/Machine/Crucible.lean ====
section
/-! DEFINITION. The Crucible instructions KHASH to KDROP: their issue (11 R285 to R287), and their performance with result
records, rights and the order of checks (06 R151 to R164, R373, R374), here and at another module's Crucible (log 9). -/
namespace Sys2Proof.Machine
open Sys2Proof

/-! ### Issue -/

/-- A Crucible instruction at issue: token, operands read, marks of R298 and R356; a speculative one marks the bank pairs of the
extents known at issue (11 R265). -/
def kissue (i : Instr) (h : Head) (o : CK) (specOk changes : Bool) (s : State) (ext : List (Nat × Nat) := []) :
    Host.Outcome State Fault Refusal :=
  let c := s.core
  let ops := [c.x o.dst, c.x o.hnd, c.x o.arg]
  cissue i h specOk s (tokenRoom s o.token (
    let s1 := if h.spec then s.touchAll ext else s
    .ok (((s1.start i h o.token ops 0 [] none).markIrrevocable changes).markIrredispatch changes)))

/-- A speculative command whose record's extent is known at issue: it lies in bank-pair banks (R265). -/
def recordIssue (i : Instr) (h : Head) (o : CK) (n : Nat) (changes : Bool) (s : State) : Host.Outcome State Fault Refusal :=
  let a := (s.core.x o.dst).toNat
  kissue i h o (!changes && s.inPairs a n) changes s [(a, n)]

/-- KHASH (R151). -/
def execKhash (h : Head) (o : CK) (s : State) : Host.Outcome State Fault Refusal := kissue (.khash h o) h o true false s
/-- KLOOK (R152); with the reference flag it changes the store. -/
def execKlook (h : Head) (o : CK) (s : State) : Host.Outcome State Fault Refusal := recordIssue (.klook h o) h o 16 (o.flags.getLsbD 1) s
/-- KOPEN (06 R143, R156). -/
def execKopen (h : Head) (o : CK) (s : State) : Host.Outcome State Fault Refusal := kissue (.kopen h o) h o false true s
/-- KWR (R155). -/
def execKwr (h : Head) (o : CK) (s : State) : Host.Outcome State Fault Refusal := kissue (.kwr h o) h o false true s
/-- KSEAL (R144, R157). -/
def execKseal (h : Head) (o : CK) (s : State) : Host.Outcome State Fault Refusal := kissue (.kseal h o) h o false true s
/-- KLEASE (R148). -/
def execKlease (h : Head) (o : CK) (s : State) : Host.Outcome State Fault Refusal := kissue (.klease h o) h o false true s
/-- KREF (R147). -/
def execKref (h : Head) (o : CK) (s : State) : Host.Outcome State Fault Refusal := kissue (.kref h o) h o false true s
/-- KUNREF (R147). -/
def execKunref (h : Head) (o : CK) (s : State) : Host.Outcome State Fault Refusal := kissue (.kunref h o) h o false true s
/-- KREPL (R161). -/
def execKrepl (h : Head) (o : CK) (s : State) : Host.Outcome State Fault Refusal := kissue (.krepl h o) h o false true s
/-- KSTAT (R157). -/
def execKstat (h : Head) (o : CK) (s : State) : Host.Outcome State Fault Refusal := recordIssue (.kstat h o) h o 32 false s
/-- KDROP (R157). -/
def execKdrop (h : Head) (o : CK) (s : State) : Host.Outcome State Fault Refusal := kissue (.kdrop h o) h o false true s

/-- KLD (R153, R287): with RING = 1 a producer copy into its ring. -/
def execKld (h : Head) (o : CK) (s : State) : Host.Outcome State Fault Refusal :=
  if !o.ringed then kissue (.kld h o) h o true false s
  else
    let i := Instr.kld h o
    let c := s.core
    let r := c.ring o.ring
    cissue i h false s (
      if !r.on || !s.okRing r.word then .illop i
      else if !s.holdClear (.ringFull o.ring 1) then .hold [.ringFull o.ring 1]
      else tokenRoom s o.token (
        let slot := (r.resv + BitVec.ofNat 12 (c.claimed o.ring)).toNat
        let s1 := s.start i h o.token [c.x o.dst, c.x o.hnd, c.x o.arg] (r.slotAddr slot) [] (some (o.ring.toNat, slot))
        .ok (s1.boundary (.claim o.ring ⟨c.units.nextSeq, 1, false⟩))))

/-! ### Outcomes -/

/-- The calling launch. -/
def State.caller (s : State) : Caller := { mod := s.mid, serial := s.serialOf, asid := s.asid }

/-- The command ends with a token error; a shortage of space counts in SFULL. -/
def State.kFail (s : State) (k : Cmd) (code : BitVec 3) : State :=
  let t := s.regs.telem
  let s1 := if code = 6 then { s with regs := { s.regs with telem := { t with sfull := t.sfull + 1 } } } else s
  s1.finish k code

/-- Bytes delivered to every member, into back banks of pairs (11 R263, R287). -/
def State.kPut (s : State) (a : Nat) (bs : List Byte) : State := s.putBank (s.bankCellsAll true a bs)

/-- The result record, then the end (R156). -/
def State.kRecord (s : State) (k : Cmd) (h : Word) (status depth probes hi : Nat) : State :=
  let w := status % 256 + depth % 65536 * 2 ^ 8 + probes % 256 * 2 ^ 24 + hi % 2 ^ 32 * 2 ^ 32
  (s.kPut (k.ops.getD 0 0).toNat (leBytes 8 h.toNat ++ leBytes 8 w)).finish k 0

/-- A result record's address is refused (R285). -/
def State.recBad (s : State) (k : Cmd) (n : Nat) : Bool :=
  let a := (k.ops.getD 0 0).toNat
  decide (a % n ≠ 0) || !s.okBanks a n

/-- A block of scratchpad, as member 0 reads it. -/
def State.kBlock (s : State) (a n : Nat) : Option (List Byte) := if s.okBanks a n then some (s.bankRead 0 a n) else none

def Cmd.handle (k : Cmd) : Word := k.ops.getD 1 0
def Cmd.arg (k : Cmd) : Word := k.ops.getD 2 0

/-- A handle of another module. -/
def State.isRemote (s : State) (h : Word) : Bool := h != 0 && fld h 56 8 == 0 && fld h 26 6 == 0 && hMid h != s.mid

/-- Sends a request and waits for its answer. -/
def State.kAsk (s : State) (k : Cmd) (m stage : Nat) (r : KReq) : State :=
  let t := s.takeTag m
  (t.2.sendK m t.1 r).setCmd { k with stage := stage, asks := [(t.1, 0, 0)], got := [] }

def Cmd.gotN (k : Cmd) (a n : Nat) : Nat := leNat ((List.range n).map (fun i => (lookupN (a + i) k.got).getD 0))
def Cmd.gotBytes (k : Cmd) (a n : Nat) : List Byte := (List.range n).map (fun i => (lookupN (a + i) k.got).getD 0)

/-! ### KHASH -/

/-- Names below a parent. -/
def hashNames (ns : Word) (bt : Nat) (toks : List Byte) : Nat → BitVec 128 → List (BitVec 128)
  | 0, _ => []
  | n + 1, p =>
    let t := (List.range bt).map (fun i => BitVec.ofNat 32 (numAt toks (4 * i) 4))
    let name := nodeName ns p t
    name :: hashNames ns bt (toks.drop (4 * bt)) n name

/-- The bank pairs that a KHASH writes are marked whether or not it completes (11 R265): n names from its destination on. -/
def State.khashExt (s : State) (k : Cmd) : List (Nat × Nat) :=
  match s.kBlock k.arg.toNat 32 with
  | some b => if 0 < numAt b 24 1 ∧ numAt b 24 1 ≤ 64 then [((k.ops.getD 0 0).toNat, 16 * numAt b 24 1)] else []
  | none => []

def State.doKhash (s : State) (k : Cmd) : State :=
  let s1 := if k.spec then s.touchAll (s.khashExt k) else s
  match s.kBlock k.arg.toNat 32 with
  | none => s1.kFail k 2
  | some b =>
    let n := numAt b 24 1
    match s.space (BitVec.ofNat 64 (numAt b 0 8)) with
    | none => s1.kFail k 2
    | some p =>
      let dst := (k.ops.getD 0 0).toNat
      if n = 0 ∨ 64 < n ∨ !zeroAt b 25 7 ∨ !s.okBanks dst (16 * n) ∨ (k.spec ∧ !s.inPairs dst (16 * n)) then s1.kFail k 2
      else match s.kBlock k.handle.toNat (4 * n * p.bt) with
        | none => s1.kFail k 2
        | some toks =>
          (s1.kPut dst ((hashNames p.ns p.bt toks n (BitVec.ofNat 128 (numAt b 8 16))).flatMap (fun m => leBytes 16 m.toNat))).finish k 0

/-! ### KLOOK (R152) -/

/-- What a KLOOK looks for. -/
structure Look0 where
  p : NSpace
  names : List (BitVec 128)
  toks : List Byte
  deriving DecidableEq, Repr

/-- The lookup block with its checks. -/
def State.lookBlock (s : State) (k : Cmd) : Option Look0 :=
  if s.recBad k 16 then none
  else match s.kBlock k.arg.toNat 16 with
    | none => none
    | some b =>
      let n := numAt b 12 4 / 2 ^ 20
      match s.space (BitVec.ofNat 64 (numAt b 0 8)) with
      | none => none
      | some p =>
        if 2 ^ 20 ≤ numAt b 8 4 ∨ 128 ≤ n ∨ n = 0 ∨ 64 < n then none
        else match s.kBlock (numAt b 8 4) (16 * n), s.kBlock (numAt b 12 4 % 2 ^ 20) (4 * n * p.bt) with
          | some ns, some ts => some ⟨p, (List.range n).map (fun i => BitVec.ofNat 128 (numAt ns (16 * i) 16)), ts⟩
          | _, _ => none

/-- A handle to the home copy, as the directory of this module gives it. -/
def State.dirHandle (s : State) (name : BitVec 128) : Word :=
  match s.kdir name with
  | some d => d.handle
  | none => 0

/-- The handle under which name i is readable, zero for none; `none` while the directory of another module has to be asked, whose
answer stands at 512 i in `got`. A removed module keeps no directory any more (R162). -/
def State.lookHandle (s : State) (k : Cmd) (dom : Bool) (ns : Word) (i : Nat) (name : BitVec 128) : Option Word :=
  match s.readableName ns name with
  | some n => some (n.handle s.mid)
  | none =>
    if !dom || s.isRemoved (s.dirMod name) then some 0
    else if s.dirMod name = s.mid then some (s.dirHandle name)
    else if (lookupN (512 * i) k.got).isSome then some (BitVec.ofNat 64 (k.gotN (512 * i) 8))
    else none

/-- The binary search: depth and probes, or the first depth probed of which nothing is known yet. -/
def search (readable : Nat → Option Bool) : Nat → Nat → Nat → Nat → Except Nat (Nat × Nat)
  | 0, lo, _, probes => .ok (lo, probes)
  | f + 1, lo, hi, probes =>
    if lo < hi then
      let mid := lo + (hi - lo + 1) / 2
      match readable mid with
      | none => .error mid
      | some true => search readable f mid hi (probes + 1)
      | some false => search readable f lo (mid - 1) (probes + 1)
    else .ok (lo, probes)

/-- Verification from depth lo down: the depth kept and the mismatches, or the first depth whose header is not known yet. -/
def verifyDown (ok : Nat → Option Bool) : Nat → Nat → Except Nat (Nat × Nat)
  | 0, c => .ok (0, c)
  | d + 1, c => match ok (d + 1) with
    | none => .error (d + 1)
    | some true => .ok (d + 1, c)
    | some false => verifyDown ok d (c + 1)

/-- The parent's name; none where the parent handle is not current and readable. -/
def State.lookParent (s : State) (k : Cmd) : Option (BitVec 128) :=
  if k.handle = 0 then some 0
  else if s.isRemote k.handle then (if !s.isRemoved (hMid k.handle) ∧ k.gotN 40000 1 = 1 ∧ k.gotN 40001 1 = 3 then some (BitVec.ofNat 128 (k.gotN 40016 16)) else none)
  else match s.current k.handle with
    | some n => if n.st.readable then some n.name else none
    | none => none

/-- Header of name i: its parent's name and tokens agree with those given; `none` while the home of a remote one has to be asked. -/
def State.headerOk (s : State) (k : Cmd) (l : Look0) (parent : BitVec 128) (d : Nat) : Option Bool :=
  let name := l.names.getD (d - 1) 0
  let above := if d = 1 then parent else l.names.getD (d - 2) 0
  let ts := (l.toks.drop (4 * l.p.bt * (d - 1))).take (4 * l.p.bt)
  let at_ := 512 * (d - 1) + 16
  match s.readableName l.p.ns name with
  | some n => some (s.parentName n == above && s.nodeTokens n l.p.bt == ts)
  | none =>
    if (lookupN at_ k.got).isSome then
      some (BitVec.ofNat 128 (k.gotN at_ 16) == above && k.gotBytes (at_ + 16) (4 * l.p.bt) == ts)
    else none

/-- What a search found: the depth, its handle, the probes and the mismatches. -/
structure Found where
  d : Nat
  handle : Word
  probes : Nat
  coll : Nat
  deriving DecidableEq, Repr

/-- What was found, as it is kept while a reference is asked of another module. -/
def Found.cells (r : Found) : List Host.Cell :=
  (leBytes 8 r.handle.toNat ++ leBytes 1 r.d ++ leBytes 1 r.probes ++ leBytes 1 r.coll).zipIdx.map (fun e => (60000 + e.2, e.1))

def Cmd.found (k : Cmd) : Found := ⟨k.gotN 60008 1, BitVec.ofNat 64 (k.gotN 60000 8), k.gotN 60009 1, k.gotN 60010 1⟩

/-- The result of the search, or what has to be asked first: where the answer goes, the module, the request. Only names that the search
probes are asked for, and only headers that verification reads. -/
def State.lookResult (s : State) (k : Cmd) (dom verify : Bool) (l : Look0) (parent : BitVec 128) : Except (Nat × Nat × KReq) Found :=
  let name (d : Nat) : BitVec 128 := l.names.getD (d - 1) 0
  let h (d : Nat) : Option Word := s.lookHandle k dom l.p.ns (d - 1) (name d)
  match search (fun d => (h d).map (fun w => w != 0)) 8 0 l.names.length 0 with
  | .error d => .error (512 * (d - 1), s.dirMod (name d), ⟨0, 0, 0, 0, 0, l.p.ns, s.serialOf, s.asid, name d⟩)
  | .ok r =>
    match (if verify then verifyDown (s.headerOk k l parent) r.1 0 else .ok (r.1, 0)) with
    | .error d =>
      let w := (h d).getD 0
      .error (512 * (d - 1) + 16, hMid w, ⟨4, 1, 0, w, 0, l.p.ns, s.serialOf, s.asid, name d⟩)
    | .ok v => .ok ⟨v.1, if v.1 = 0 then k.handle else (h v.1).getD 0, r.2, v.2⟩

/-- A KLOOK completes: record and counters. -/
def State.lookDone (s : State) (k : Cmd) (h : Word) (status d probes coll n : Nat) : State :=
  let t := s.regs.telem
  let add (w : Word) (m : Nat) : Word := w + BitVec.ofNat 64 m
  let t' := { t with klookn := t.klookn + 1, klhit := add t.klhit d, klmiss := add t.klmiss (n - d), collcnt := add t.collcnt coll }
  State.kRecord { s with regs := { s.regs with telem := t' } } k h status d probes 0

/-- One more request of a KLOOK, whose earlier answers stay; a module that cannot be reached gives LINKDOWN (15 R341). -/
def State.lookAsk (s : State) (k : Cmd) (stage : Nat) (r : Nat × Nat × KReq) : State :=
  if (s.route r.2.1).isNone then s.kFail k 7
  else
    let t := s.takeTag r.2.1
    (t.2.sendK r.2.1 t.1 r.2.2).setCmd { k with stage := stage, asks := [(t.1, r.1, 0)] }

/-- The end of a KLOOK that found a node of this or another module, with the reference it may take (R147). -/
def State.lookFound (s : State) (k : Cmd) (ref : Bool) (l : Look0) (r : Found) : State :=
  let n := l.names.length
  let done (s : State) (status : Nat) : State := s.lookDone k r.handle status r.d r.probes r.coll n
  if r.d = 0 ∨ !ref then done s 0
  else match s.current r.handle with
    | some m => match s.takeRef s.caller m with
      | some s1 => done s1 0
      | none => done s 6
    | none =>
      if k.stage < 3 then
        if !s.mayRef s.serialOf then done s 6
        else if (s.route (hMid r.handle)).isNone then s.kFail k 7
        else (s.holdRemote (hMid r.handle) s.serialOf true).lookAsk { k with got := k.got ++ r.cells } 3 (50000, hMid r.handle, ⟨3, 0x2E, 0, r.handle, 0, l.p.ns, s.serialOf, s.asid, 0⟩)
      else
        let st := k.gotN 50000 1
        done (if st = 0 then s else s.holdRemote (hMid r.handle) s.serialOf false) st

/-- KLOOK: the right R and the parent come first; without either the result is NOHOLD whatever can be reached (R152, R374). -/
def State.doKlook (s : State) (k : Cmd) (verify ref dom : Bool) : State :=
  match s.lookBlock k with
  | none => s.kFail k 2
  | some l =>
    let n := l.names.length
    if k.stage = 3 then s.lookFound k ref l k.found
    else if !l.p.right s.asid 0 then s.lookDone k 0 10 0 0 0 n
    else if s.isRemote k.handle ∧ !s.isRemoved (hMid k.handle) ∧ k.stage = 0 then
      s.lookAsk k 1 (40000, hMid k.handle, ⟨3, 255, 0, k.handle, 0, l.p.ns, s.serialOf, s.asid, 0⟩)
    else match s.lookParent k with
      | none => s.lookDone k 0 10 0 0 0 n
      | some parent => match s.lookResult k dom verify l parent with
        | .error r => s.lookAsk k 1 r
        | .ok r => s.lookFound k ref l r

/-! ### What a module tells of a node -/

def NState.code (t : NState) : Nat :=
  match t with
  | .free => 0 | .opened => 1 | .sealing => 2 | .sealed => 3 | .demoting => 4 | .evicting => 5

/-- A node as a caller sees it. -/
structure KInfo where
  st : Nat
  depth : Nat
  ns : Word
  name : BitVec 128
  held : Bool
  mine : Bool
  frozen : Bool
  deriving DecidableEq, Repr

def State.info (s : State) (w : Caller) (n : KNode) : KInfo :=
  { st := n.st.code, depth := n.depth, ns := n.ns, name := n.name, held := s.holds w n, mine := n.ownedBy s.mid w, frozen := n.frozen }

/-- Byte 0 says current, byte 1 the state (3 for a readable node). -/
def KInfo.bytes (i : KInfo) : List Byte :=
  leBytes 1 1 ++ leBytes 1 (if i.st = 4 then 3 else i.st) ++ leBytes 2 i.depth ++ leBytes 1 i.held.toNat ++ leBytes 1 i.mine.toNat ++
  leBytes 2 i.frozen.toNat ++ leBytes 8 i.ns.toNat ++ leBytes 16 i.name.toNat

def Cmd.info (k : Cmd) : Option KInfo :=
  if k.gotN 0 1 = 1 then
    some { st := k.gotN 1 1, depth := k.gotN 2 2, ns := BitVec.ofNat 64 (k.gotN 8 8), name := BitVec.ofNat 128 (k.gotN 16 16),
           held := k.gotN 4 1 == 1, mine := k.gotN 5 1 == 1, frozen := k.gotN 6 2 == 1 }
  else none

/-- Asks the home for what it knows of the node; a removed module's handle is not current, an unreachable one is LINKDOWN. -/
def State.askInfo (s : State) (k : Cmd) (gone : State) : State :=
  let m := hMid k.handle
  if s.isRemoved m then gone
  else if (s.route m).isNone then s.kFail k 7
  else s.kAsk k m 1 ⟨3, 255, 0, k.handle, 0, 0, s.serialOf, s.asid, 0⟩

/-! ### KOPEN (R143, R146, R147, R156) -/

/-- A new OPEN node. -/
def State.openNode (s : State) (p : NSpace) (name : BitVec 128) (parent depth hdr : Nat) (w : Caller) : KNode :=
  let slot := s.freeSlot
  let g := s.grab false (4 * p.nlayer)
  { slot := slot, st := .opened, gen := s.nextGen slot, cxl := false, ns := p.ns, name := name, parent := parent, depth := depth,
    frozen := false, asid := w.asid, owner := w.serial, hdr := hdr,
    blocks := (List.range p.nlayer).map (fun l => { layer := l, granules := (g.drop (4 * l)).take 4, next := [] }), old := [],
    written := [], refs := [(w.serial, 1)], remoteRefs := [], pins := [], evictPins := [], expiry := 0, bad := false, repl := false, home := s.mid }

/-- The headers of a new node (R139): dense, nothing checked yet. -/
def State.putHeaders (s : State) (p : NSpace) (n : KNode) (parent : BitVec 128) (toks : List Byte) : State :=
  (List.range p.nlayer).foldl (fun s l =>
    s.homePut (n.header l) (headerBytes 0 n.name parent n.ns l 0 p.payload (List.replicate 64 0xFF) toks)) s

/-- Room for a node: its granules, its slot and its header (R158). -/
def State.roomFor (s : State) (p : NSpace) (need : Nat) : Reclaim × State :=
  if (s.headerPlace p).isNone then (.fail, s)
  else if 67108864 ≤ s.crucible.nodes.length then
    match s.reclaimSlot with
    | some s1 => (.wait, s1)
    | none => (.fail, s)
  else State.reclaimFor need (s.crucible.nodes.length + 1) s

/-- KOPEN past its operand checks; `none` while a demotion must end first. The parent's condition of Table 6.4 holds when the slot
leaves FREE, after what Reclaim has dropped (log 31). -/
def State.openAt (s : State) (k : Cmd) (p : NSpace) (parent : Option KNode) (name : BitVec 128) (toks : List Byte) : Option State :=
  let w := s.caller
  let depth := match parent with
    | some q => q.depth + 1
    | none => 1
  let carry (n : KNode) (status : Nat) : State :=
    match s.takeRef w n with
    | some s1 => s1.kRecord k (n.handle s.mid) status n.depth 0 0
    | none => s.kRecord k 0 6 0 0 0
  if !p.right w.asid 1 then some (s.kRecord k 0 10 0 0 0)
  else if 65535 < depth then some (s.kRecord k 0 9 0 0 0)
  else match s.named p.ns name with
    | some n =>
      if n.ownedBy s.mid w then some (carry n 0)
      else if n.st.readable then some (carry n 1)
      else some (s.kRecord k 0 2 0 0 0)
    | none =>
      let okParent (s : State) : Bool := match parent with
        | some q => q.ns == p.ns && (match s.current (q.handle s.mid) with
          | some q => q.st.readable || q.ownedBy s.mid w
          | none => false)
        | none => true
      if !okParent s then some (s.kRecord k 0 3 0 0 0)
      else if !s.mayRef w.serial then some (s.kRecord k 0 6 0 0 0)
      else match s.roomFor p (4 * p.nlayer) with
        | (.fail, s1) => some ((s1.reclaimTest).kFail k 6)
        | (.wait, s1) => if s1 = s then none else some s1.reclaimTest
        | (.done, s1) =>
          if !okParent s1 then some (s1.reclaimTest.kRecord k 0 3 0 0 0)
          else match s1.headerPlace p with
            | none => some (s1.reclaimTest.kFail k 6)
            | some a =>
              let n := s1.openNode p name (match parent with
                | some q => q.slot + 1
                | none => 0) depth a w
              let above := match parent with
                | some q => q.name
                | none => 0
              some (((s1.addNode n).putHeaders p n above toks).reclaimTest.kRecord k (n.handle s.mid) 0 depth 0 0)

/-- KOPEN. A name that does not match its tokens is XLATE (11 R285), which needs the parent's name: the model tests it once the parent's
handle is current, before the right W and the depth, a place that R374 does not give (log 57). A parent of another module is asked of its
home, for its currency and its name, and then gives NOPARENT. -/
def State.doKopen (s : State) (k : Cmd) : Option State :=
  match s.kBlock k.arg.toNat 32 with
  | none => some (s.kFail k 2)
  | some b =>
    match s.space (BitVec.ofNat 64 (numAt b 0 8)) with
    | none => some (s.kFail k 2)
    | some p =>
      match s.kBlock (numAt b 24 4 % 2 ^ 20) (4 * p.bt) with
      | none => some (s.kFail k 2)
      | some ts =>
        let toks := (List.range p.bt).map (fun i => BitVec.ofNat 32 (numAt ts (4 * i) 4))
        let name := BitVec.ofNat 128 (numAt b 8 16)
        if s.recBad k 16 ∨ 2 ^ 20 ≤ numAt b 24 4 ∨ !zeroAt b 28 4 then some (s.kFail k 2)
        else if k.handle = 0 then
          (if nodeName p.ns 0 toks = name then s.openAt k p none name ts else some (s.kFail k 2))
        else if s.isRemote k.handle then
          if k.stage = 0 then some (s.askInfo k (s.kRecord k 0 7 0 0 0))
          else some (match k.info with
            | none => s.kRecord k 0 7 0 0 0
            | some i =>
              if nodeName p.ns i.name toks ≠ name then s.kFail k 2
              else s.kRecord k 0 (if !p.right s.asid 1 then 10 else if 65535 < i.depth + 1 then 9 else 3) 0 0 0)
        else match s.current k.handle with
          | none => some (s.kRecord k 0 7 0 0 0)
          | some q => if nodeName p.ns q.name toks = name then s.openAt k p (some q) name ts else some (s.kFail k 2)

/-! ### What a module does to a node for a command -/

/-- The outcome of a command on a node: a status of Table 6.6 (254 and 255: sealing waits or runs), the high word, the state. -/
structure KRes where
  status : Nat
  hi : Nat
  s : State

/-- KSEAL by state (R157). While a SEALING parent is awaited the contents are frozen (R144 step 1). Of a node with an OPEN parent and
unwritten rows the answer is NOTREADY, the parent's condition being the first of Table 6.4 (log 31). -/
def State.sealAct (s : State) (w : Caller) (n : KNode) : KRes :=
  match n.st with
  | .opened =>
    if !n.ownedBy s.mid w then ⟨10, 0, s⟩
    else match s.space n.ns with
      | none => ⟨10, 0, s⟩
      | some p =>
        match (s.parent n).map KNode.st with
        | some .opened => ⟨5, 0, s⟩
        | t =>
          if !n.complete p then ⟨4, 0, s⟩
          else if t = some .sealing then ⟨254, 0, s.setNode { n with frozen := true }⟩
          else ⟨255, 0, s.setNode { n with st := .sealing }⟩
  | .sealing => ⟨255, 0, s⟩
  | _ => ⟨0, 0, s⟩

/-- KLEASE, KREF, KUNREF, KSEAL, KDROP on a node of this module. -/
def State.kAct (s : State) (w : Caller) (op : Nat) (n : KNode) (arg : Word) : KRes :=
  match op with
  | 0x2C => s.sealAct w n
  | 0x2D =>
    let d := fld arg 0 32
    let e := if d = 0 then n.expiry else BitVec.ofNat 64 (max n.expiry.toNat (s.regs.m.tbase.toNat + d))
    ⟨0, e.toNat, s.setNode { n with expiry := e }⟩
  | 0x2E =>
    match s.takeRef w n with
    | some s1 => ⟨0, 0, s1⟩
    | none => ⟨6, 0, s⟩
  | 0x2F => if n.refsOf s.mid w = 0 then ⟨8, 0, s⟩ else ⟨0, 0, (s.setNode (n.unref s.mid w)).reclaimTest⟩
  | _ =>
    if n.ownedBy s.mid w then ⟨0, 0, (s.freeOpen n).reclaimTest⟩
    else if n.st.readable then ⟨0, 0, (s.setNode { n with expiry := 0 }).reclaimTest⟩
    else ⟨10, 0, s⟩

/-- Opcode of a command on a node. -/
def kOp : Instr → Nat
  | .kseal _ _ => 0x2C
  | .klease _ _ => 0x2D
  | .kref _ _ => 0x2E
  | .kunref _ _ => 0x2F
  | _ => 0x33

/-- The right of Table 6.8 is held for a node seen as `i`. -/
def State.kRight (s : State) (op : Nat) (p : NSpace) (i : KInfo) : Bool :=
  match op with
  | 0x2C => p.right s.asid 1
  | 0x2D => p.right s.asid 2
  | 0x2E => p.right s.asid 0
  | 0x33 => !(i.st == 3 || i.st == 4) || p.right s.asid 3
  | _ => true

/-- The checks 1 to 3 of R374 on a node seen: an error code or a status that ends the command. -/
def State.kCheck (s : State) (op : Nat) (i : Option KInfo) : Except (BitVec 3 × Nat) Unit :=
  match i with
  | none => .error (0, 7)
  | some i =>
    match s.space i.ns with
    | none => .error (2, 0)
    | some p => if s.kRight op p i then .ok () else .error (0, 10)

/-- The depth of a node seen. -/
def depthOf (i : Option KInfo) : Nat :=
  match i with
  | some i => i.depth
  | none => 0

/-- Statuses of a command on a node whose record carries its handle (R156 gives a handle to OK and PRESENT and none to BUSY; log 31). -/
def carriesHandle (st : Nat) : Bool := st == 0 || st == 1 || st == 4 || st == 5 || st == 8

/-- The record of a status on the node of the handle (R156). -/
def State.kStatus (s : State) (k : Cmd) (st depth hi : Nat) : State :=
  if carriesHandle st then s.kRecord k k.handle st depth 0 hi else s.kRecord k 0 st 0 0 hi

/-- A command ends by a failed check. -/
def State.kStop (s : State) (k : Cmd) (e : BitVec 3 × Nat) (depth : Nat) : State :=
  if e.1 ≠ 0 then s.kFail k e.1 else s.kStatus k e.2 depth 0

/-- What a reference taken or given back at another module's node does to the launch's count (R147): counted when KREF leaves,
taken back where it failed, and when KUNREF has been done. -/
def State.settleRemote (s : State) (op st m : Nat) : State :=
  if (op = 0x2E ∧ st ≠ 0) ∨ (op = 0x2F ∧ st = 0) then s.holdRemote m s.serialOf false else s

/-- The end of a KSEAL whose node it found or put in SEALING: it waits until the node is SEALED, tells its directory (R160), and is OK. -/
def State.sealEnd (s : State) (k : Cmd) : Option State :=
  let ok (s : State) : State := s.kStatus k 0 k.last.toNat 0
  if k.stage = 5 then some (ok s)
  else match k.limit.bind s.node with
    | some n =>
      if n.gen ≠ hGen k.handle then some (ok s)
      else if n.st = .sealing then none
      else if n.repl || s.dirMod n.name == s.mid then some (ok s)
      else if (s.route (s.dirMod n.name)).isNone then some (s.kFail k 7)
      else some (s.kAsk k (s.dirMod n.name) 5 ⟨1, 0, 0, n.handle s.mid, 0, n.ns, 0, 0, n.name⟩)
    | none => some (ok s)

/-- KSEAL, KLEASE, KREF, KUNREF, KDROP. -/
def State.doNode (s : State) (k : Cmd) : Option State :=
  let op := kOp k.ins
  let h := k.handle
  if 4 ≤ k.stage then s.sealEnd k
  else if s.recBad k 16 || (op == 0x2D && fld k.arg 32 32 != 0) then some (s.kFail k 2)
  else if s.isRemote h then
    if k.stage = 0 then some (s.askInfo k (s.kRecord k 0 7 0 0 0))
    else if k.stage = 1 then
      match s.kCheck op k.info with
      | .error e => some (s.kStop k e (depthOf k.info))
      | .ok _ =>
        if op = 0x2E ∧ !s.mayRef s.serialOf then some (s.kStatus k 6 0 0)
        else if (s.route (hMid h)).isNone then some (s.kFail k 7)
        else
          let s1 := if op = 0x2E then s.holdRemote (hMid h) s.serialOf true else s
          some (s1.kAsk { k with last := BitVec.ofNat 64 (k.gotN 2 2) } (hMid h) 2 ⟨3, op, 0, h, k.arg, 0, s.serialOf, s.asid, 0⟩)
    else
      let st := k.gotN 0 1
      if st = 254 ∨ st = 255 then some (s.kAsk k (hMid h) 2 ⟨3, op, 0, h, k.arg, 0, s.serialOf, s.asid, 0⟩)
      else some ((s.settleRemote op st (hMid h)).kStatus k st k.last.toNat (k.gotN 8 8))
  else
    let n := s.current h
    match s.kCheck op (n.map (s.info s.caller)) with
    | .error e => some (s.kStop k e (depthOf (n.map (s.info s.caller))))
    | .ok _ =>
      match n with
      | none => none
      | some n =>
        let r := s.kAct s.caller op n k.arg
        if r.status = 254 then (if n.frozen then none else some r.s)
        else if r.status = 255 then some (r.s.setCmd { k with stage := 4, last := BitVec.ofNat 64 n.depth, limit := some n.slot })
        else some (r.s.kStatus k r.status n.depth r.hi)

/-! ### KSTAT (R157) -/

/-- The record of Table 6.7. -/
def State.statBytes (s : State) (n : KNode) : List Byte :=
  let w0 := n.st.code + n.cxl.toNat * 16 + n.bad.toNat * 32 + n.repl.toNat * 64 + n.depth % 65536 * 2 ^ 16 + n.home % 256 * 2 ^ 32
  let w1 := n.refCount % 65536 + min 65535 n.pins.length * 2 ^ 16 + min 65535 (s.kids n).length * 2 ^ 32
  leBytes 8 w0 ++ leBytes 8 w1 ++ leBytes 8 n.expiry.toNat ++ leBytes 8 s.regs.m.tbase.toNat

def statNone : List Byte := leBytes 8 15 ++ leBytes 24 0

def State.doKstat (s : State) (k : Cmd) : State :=
  let a := (k.ops.getD 0 0).toNat
  if s.recBad k 32 then s.kFail k 2
  else if s.isRemote k.handle then
    if k.stage = 0 then s.askInfo k ((s.kPut a statNone).finish k 0)
    else if k.stage = 1 then
      match k.info with
      | none => (s.kPut a statNone).finish k 0
      | some i =>
        if (s.space i.ns).isNone then s.kFail k 2
        else if (s.route (hMid k.handle)).isNone then s.kFail k 7
        else s.kAsk k (hMid k.handle) 2 ⟨3, 0x32, 0, k.handle, 0, 0, s.serialOf, s.asid, 0⟩
    else (s.kPut a (k.gotBytes 0 32)).finish k 0
  else match s.current k.handle with
    | some n => (s.kPut a (s.statBytes n)).finish k 0
    | none => (s.kPut a statNone).finish k 0

/-! ### KWR (R155; Table 11.8) -/

/-- The scratchpad extent that a KWR or a KLD in rows form names: w rows, of the node's namespace or, of a node not known here, of
the least size that R138 allows (R374 step 1; log 31). -/
def State.rowsLen (s : State) (i : Option KInfo) (w : Nat) : Nat :=
  match i.bind (fun i => s.space i.ns) with
  | some p => w * p.rb
  | none => w * 64

/-- The error of a KWR on a node seen as `i`, zero where it may write: the checks of R374 in order. -/
def State.kwrError (s : State) (k : Cmd) (i : Option KInfo) : BitVec 3 :=
  let w := fld k.arg 10 6 + 1
  let t := fld k.arg 16 6
  if !s.okBanks (k.ops.getD 0 0).toNat (s.rowsLen i w) then 2
  else match i with
    | none => 5
    | some i =>
      match s.space i.ns with
      | none => 2
      | some p =>
        if !p.right s.asid 1 ∨ (i.st = 1 ∧ !i.mine) then 5
        else if p.nlayer ≤ fld k.arg 0 9 ∨ p.bt < t + w then 2
        else if i.st = 1 && !i.frozen then 0 else 4

/-- KWR (R155). The rows come from the scratchpad of member 0, which the spec does not say of a gang of several (log 52). -/
def State.doKwr (s : State) (k : Cmd) : State :=
  if fld k.arg 22 42 ≠ 0 then s.kFail k 2
  else if s.isRemote k.handle then
    (if k.stage = 0 then
      (if !s.okBanks (k.ops.getD 0 0).toNat (s.rowsLen none (fld k.arg 10 6 + 1)) then s.kFail k 2 else s.askInfo k (s.kFail k 5))
     else s.kFail k (let e := s.kwrError k k.info; if e = 0 then 5 else e))
  else
    let n := s.current k.handle
    let e := s.kwrError k (n.map (s.info s.caller))
    if e ≠ 0 then s.kFail k e
    else match n with
      | none => s.kFail k 5
      | some n => match s.space n.ns with
        | none => s.kFail k 2
        | some p =>
          let w := fld k.arg 10 6 + 1
          let t := fld k.arg 16 6
          let l := fld k.arg 0 9
          let v := k.arg.getLsbD 9
          let bs := s.bankRead 0 (k.ops.getD 0 0).toNat (w * p.rb)
          let rows := (List.range w).map (fun i => (2 * l + v.toNat, t + i))
          let s1 := s.setNode { n with written := n.written ++ rows.filter (fun r => !n.written.contains r) }
          (match n.blocks.find? (fun (b : Block) => b.layer == l) with
           | some b => s1.blockPut b ((if v then p.bt * p.rb else 0) + t * p.rb) bs
           | none => s1).finish k 0

/-! ### KLD (R153, R154; Table 11.7) -/

/-- The block of a layer in the ancestor at a depth, with its node, as a command with a pin reads it (R159). -/
def State.blockAt (s : State) (pin : Option Nat) (n : KNode) (d l : Nat) : Option (KNode × Block) :=
  match s.atDepth n d with
  | some m => ((m.seenBy pin).blocks.find? (fun b => b.layer == l)).map (fun b => (m, b))
  | none => none

/-- The bytes that a KLD of a node delivers, as offsets and lengths from its destination (R153). -/
def State.kldLens (s : State) (n : KNode) (p : NSpace) (arg : Word) : List (Nat × Nat) :=
  if arg.getLsbD 40 then
    (0, 8) :: (match s.blockAt none n (fld arg 16 24 / p.bt + 1) (fld arg 0 9) with
      | some (m, b) =>
        if p.chunks ≤ fld arg 41 7 then []
        else if !s.tempered m b || arg.getLsbD 9 || s.rank m b (fld arg 41 7) == 0xFF then [(512, 4096 * p.eb)]
        else if s.rank m b (fld arg 41 7) = 0 then []
        else [(512, 512 * s.rank m b (fld arg 41 7))]
      | none => [])
  else [(0, (fld arg 10 6 + 1) * p.rb)]

/-- What a KLD delivers: bytes at offsets from its destination, and whether a block failed: BAD, a check that differs, a byte that
cannot be corrected (R141, R154, R158). -/
def State.kldPieces (s : State) (pin : Option Nat) (n : KNode) (p : NSpace) (arg : Word) (verify : Bool) : List (Nat × List Byte) × Bool :=
  let l := fld arg 0 9
  let v := arg.getLsbD 9
  let w := fld arg 10 6 + 1
  let t := fld arg 16 24
  let fails (m : KNode) (b : Block) (ext : List (Nat × Nat)) : Bool :=
    m.bad || (verify && m.st.readable && !s.blockGood m b) || ext.any (fun e => s.blockUe b e.1 e.2)
  if arg.getLsbD 40 then
    match s.blockAt pin n (t / p.bt + 1) l with
    | some (m, b) => if fails m b (s.factorExt p m b v (fld arg 41 7)) then ([], true) else (s.blockFactor p m b v (fld arg 41 7), false)
    | none => ([], true)
  else
    let r := (List.range w).foldl (fun (acc : List Byte × Bool) i =>
      if acc.2 then acc
      else match s.blockAt pin n ((t + i) / p.bt + 1) l with
        | some (m, b) => if fails m b (s.rowExt p m b v ((t + i) % p.bt)) then (acc.1, true) else (acc.1 ++ s.blockRow p m b v ((t + i) % p.bt), false)
        | none => (acc.1, true)) ([], false)
    ([(0, r.1)], r.2)

/-- The lines that a KLD reads enter their home slices (05 R375). -/
def State.kldTouch (s : State) (pin : Option Nat) (n : KNode) (p : NSpace) (arg : Word) : State :=
  let l := fld arg 0 9
  let v := arg.getLsbD 9
  (List.range (fld arg 10 6 + 1)).foldl (fun s' i =>
    let t := fld arg 16 24 + i
    match s.blockAt pin n (t / p.bt + 1) l with
    | some (m, b) => (s.rowExt p m b v (t % p.bt)).foldl (fun s' e => s'.blockTouch b e.1 e.2) s'
    | none => s') s

/-- The node here that a command names. -/
def State.nodeHere (s : State) (k : Cmd) : Option KNode := if s.isRemote k.handle then none else s.current k.handle

/-- The destination of a KLD before it delivers, offsets and lengths from x[dst]: exact for a node of this module; of one of another module
what is certain of it, the rank of a tempered chunk being known there only (log 31). -/
def State.kldExt (s : State) (k : Cmd) (i : Option KInfo) : List (Nat × Nat) :=
  match s.nodeHere k, i.bind (fun i => s.space i.ns) with
  | some n, some p => s.kldLens n p k.arg
  | _, q =>
    if !k.arg.getLsbD 40 then [(0, s.rowsLen i (fld k.arg 10 6 + 1))]
    else match q with
      | some p => if k.arg.getLsbD 9 || !p.temper then [(0, 8), (512, 4096 * p.eb)] else [(0, 8)]
      | none => [(0, 8)]

/-- The namespace of the node that a KLD names, as far as it is known here. -/
def State.kldSpace (s : State) (k : Cmd) : Option NSpace :=
  if !s.isRemote k.handle then (s.current k.handle).bind (fun n => s.space n.ns)
  else if k.stage = 2 then s.space k.last
  else if k.got.isEmpty then none
  else k.info.bind (fun i => s.space i.ns)

/-- Every byte that a KLD may deliver: exact for a node of this module, else the most that the namespace allows, or where that is not
known the widest namespace here (log 31). -/
def State.kldReach (s : State) (k : Cmd) : List (Nat × Nat) :=
  match s.nodeHere k, s.kldSpace k with
  | some n, some p => s.kldLens n p k.arg
  | _, q =>
    let most (f : NSpace → Nat) : Nat := ((match q with
      | some p => [p]
      | none => s.crucible.spaces).map f).foldl max 0
    (if k.arg.getLsbD 40 then [(0, 8), (512, most (fun p => 4096 * p.eb))] else [(0, (fld k.arg 10 6 + 1) * most NSpace.rb)]).filter
      (fun e => e.2 != 0)

/-- Where the delivery goes; none where it leaves its slot, the scratchpad or, speculative, the bank pairs. -/
def State.kldDest (s : State) (k : Cmd) (ps : List (Nat × Nat)) : Option Nat :=
  let dst := (k.ops.getD 0 0).toNat
  match k.ring with
  | some e =>
    let size := slotBytes (s.core.ring (BitVec.ofNat 3 e.1)).ssz.toNat
    if ps.all (fun q => decide (dst + q.1 + q.2 ≤ size)) then some (k.addr + dst) else none
  | none =>
    if ps.all (fun q => s.okBanks (dst + q.1) q.2 && (!k.spec || s.inPairs (dst + q.1) q.2)) then some dst else none

/-- The error of a KLD on a node seen as `i`, by the first check that fails (R374). -/
def State.kldError (s : State) (k : Cmd) (i : Option KInfo) : BitVec 3 :=
  let w := fld k.arg 10 6 + 1
  let t := fld k.arg 16 24
  if fld k.arg 48 16 ≠ 0 ∨ (s.kldDest k (s.kldExt k i)).isNone then 2
  else match i with
    | none => 5
    | some i =>
      match s.space i.ns with
      | none => 2
      | some p =>
        if !p.right s.asid 0 ∨ (i.st = 1 ∧ !i.mine) ∨ i.st = 2 ∨ !(i.held || i.mine) then 5
        else if p.nlayer ≤ fld k.arg 0 9 ∨ i.depth * p.bt < t + w then 2
        else if k.arg.getLsbD 40 ∧ (t % p.bt ≠ 0 ∨ w ≠ p.bt ∨ p.chunks ≤ fld k.arg 41 7) then 2
        else 0

/-- The bank pairs that an outstanding speculative Crucible command touches are marked, whether or not it completes (11 R265; a command with
a record marked its own at issue). -/
def State.specMarks (s : State) (k : Cmd) : State :=
  if !k.spec then s
  else match k.ins with
    | .khash _ _ => s.touchAll (s.khashExt k)
    | .kld _ _ => s.touchAll ((s.kldReach k).map (fun e => ((k.ops.getD 0 0).toNat + e.1, e.2)))
    | _ => s

/-- Delivers the pieces read of what is to be delivered, and ends. -/
def State.kldDeliver (s : State) (k : Cmd) (ext : List (Nat × Nat)) (ps : List (Nat × List Byte)) (ue : Bool) : State :=
  let s0 := if k.spec then s.touchAll (ext.map (fun e => ((k.ops.getD 0 0).toNat + e.1, e.2))) else s
  match s0.kldDest k ext with
  | none => s0.kFail k 2
  | some a => (ps.foldl (fun s q => s.kPut (a + q.1) q.2) s0).finish k (if ue then 3 else 0)

/-- The form's shape of delivered bytes: offsets and lengths of an answer of `n` bytes. -/
def kldShape (arg : Word) (bs : List Byte) : List (Nat × List Byte) :=
  if arg.getLsbD 40 then [(0, bs.take 8), (512, bs.drop 8)] else [(0, bs)]

/-- The lengths of `n` delivered bytes in the form's shape. -/
def kldShapeLens (arg : Word) (n : Nat) : List (Nat × Nat) :=
  if arg.getLsbD 40 then (0, 8) :: (if n ≤ 8 then [] else [(512, n - 8)]) else [(0, n)]

def State.doKld (s : State) (k : Cmd) (verify : Bool) : State :=
  let me := k.seq * 1024 + s.core.cnum
  let fail (code : BitVec 3) : State := (s.specMarks k).kFail k code
  if s.isRemote k.handle then
    if k.stage = 0 then
      (if fld k.arg 48 16 ≠ 0 ∨ (s.kldDest k (s.kldExt k none)).isNone then fail 2
       else if (s.route (hMid k.handle)).isNone ∧ !s.isRemoved (hMid k.handle) then fail 7
       else s.askInfo k (fail 5))
    else if k.stage = 1 then
      let e := s.kldError k k.info
      if e ≠ 0 then fail e
      else if (s.route (hMid k.handle)).isNone then fail 7
      else s.kAsk { k with last := (k.info.map KInfo.ns).getD 0 } (hMid k.handle) 2 ⟨4, 0, verify.toNat, k.handle, k.arg, 0, s.serialOf, s.asid, 0⟩
    else
      if k.gotN 0 1 ≠ 0 ∧ k.gotN 0 1 ≠ 3 then fail (BitVec.ofNat 3 (k.gotN 0 1))
      else s.kldDeliver k (kldShapeLens k.arg (k.gotN 4 4)) (kldShape k.arg (k.gotBytes 16 (k.gotN 8 8))) (k.gotN 0 1 == 3)
  else if k.stage = 0 then
    let n := s.current k.handle
    let e := s.kldError k (n.map (s.info s.caller))
    if e ≠ 0 then fail e
    else match n with
      | none => fail 5
      | some n => (s.setNode { n with pins := n.pins ++ [me] }).setCmd { k with stage := 1, pins := [n.slot] }
  else
    (match k.pins.head?.bind s.node with
     | none => fail 3
     | some n => match s.space n.ns with
       | none => fail 3
       | some p =>
         let r := s.kldPieces (some me) n p k.arg verify
         (s.kldTouch (some me) n p k.arg).kldDeliver k (s.kldLens n p k.arg) r.1 r.2).releasePins k.pins me

/-! ### KREPL (R161, R291) -/

/-- A node as another module copies it: name, parent's name, depth, tokens, blocks with forms, ranks, checks and payloads; byte 0 is
2 where a byte cannot be corrected. -/
def State.imageBytes (s : State) (n : KNode) (p : NSpace) : List Byte :=
  leBytes 8 (if n.blocks.any (fun b => s.blockUe b 0 (s.pbytes n b)) then 2 else 1) ++ leBytes 8 n.depth ++ leBytes 16 n.name.toNat ++
  leBytes 16 (s.parentName n).toNat ++ leBytes 4 p.bt ++ leBytes 4 n.blocks.length ++ s.nodeTokens n p.bt ++
  n.blocks.flatMap (fun (b : Block) => leBytes 4 b.layer ++ leBytes 4 (s.hdrNum n b 50 1) ++ s.homeRead (n.header b.layer + 64) 64 ++
    leBytes 8 (s.pbytes n b) ++ leBytes 8 (s.hdrNum n b 0 8) ++ s.payload n b)

/-- A block of an image: layer, FORM, RANKS, CHECK, payload. -/
structure BlockImage where
  layer : Nat
  form : Nat
  ranks : List Byte
  check : Nat
  bytes : List Byte
  deriving DecidableEq, Repr

/-- Blocks of an image from an offset on. -/
def imageBlocks (k : Cmd) : Nat → Nat → List BlockImage
  | 0, _ => []
  | n + 1, a =>
    let len := k.gotN (a + 72) 8
    { layer := k.gotN a 4, form := k.gotN (a + 4) 4, ranks := k.gotBytes (a + 8) 64, check := k.gotN (a + 80) 8,
      bytes := k.gotBytes (a + 88) len } :: imageBlocks k n (a + 88 + len)

/-- An image that arrived. -/
structure NodeImage where
  depth : Nat
  name : BitVec 128
  parent : BitVec 128
  toks : List Byte
  blocks : List BlockImage
  deriving DecidableEq, Repr

def Cmd.image (k : Cmd) : NodeImage :=
  let nt := k.gotN 48 4
  { depth := k.gotN 8 8, name := BitVec.ofNat 128 (k.gotN 16 16), parent := BitVec.ofNat 128 (k.gotN 32 16), toks := k.gotBytes 56 (4 * nt),
    blocks := imageBlocks k (k.gotN 52 4) (56 + 4 * nt) }

/-- The number under which a command's pins stand. -/
def State.pinId (s : State) (k : Cmd) : Nat := k.seq * 1024 + s.core.cnum

/-- The end of a KREPL: its pin at the source and those on the ancestors here are released. -/
def State.replEnd (s : State) (k : Cmd) : State :=
  let s1 := if k.stage = 2 then s.sendK (hMid k.handle) 0 ⟨6, 0, 0, k.handle, 0, 0, 0, 0, BitVec.ofNat 128 (s.pinId k)⟩ else s
  s1.releasePins k.pins (s.pinId k)

/-- Asks for the image of the ancestor at a depth; the handle's own node is the last. The source is pinned from the first request to
the end of the command (R149, R161). -/
def State.askImage (s : State) (k : Cmd) (d : Nat) : State :=
  if (s.route (hMid k.handle)).isNone then (s.replEnd k).kFail k 7
  else
    let t := s.takeTag (hMid k.handle)
    (t.2.sendK (hMid k.handle) t.1 ⟨5, 0, 0, k.handle, BitVec.ofNat 64 d, 0, s.serialOf, s.asid, BitVec.ofNat 128 (s.pinId k)⟩).setCmd
      { k with stage := 2, asks := [(t.1, 0, 0)], got := [], addr := d }

/-- The checks of a KREPL, then its first image. -/
def State.startRepl (s : State) (k : Cmd) (i : Option KInfo) : State :=
  match i with
  | none => s.kRecord k 0 7 0 0 0
  | some i =>
    match s.space i.ns with
    | none => s.kFail k 2
    | some p =>
      if !p.right s.asid 0 ∨ !i.held then s.kStatus k 10 i.depth 0
      else if ¬(i.st = 3 ∨ i.st = 4) then s.kStatus k 10 i.depth 0
      else match s.readableName i.ns i.name with
        | some n => s.kRecord k (n.handle s.mid) 0 n.depth 0 0
        | none => s.askImage { k with last := i.ns, limit := some i.depth } 1

def State.doKrepl (s : State) (k : Cmd) : Option State :=
  if s.recBad k 16 then some (s.kFail k 2)
  else if !s.isRemote k.handle then
    some (s.startRepl k ((s.current k.handle).map (s.info s.caller)))
  else if k.stage = 0 then some (s.askInfo k (s.kRecord k 0 7 0 0 0))
  else if k.stage = 1 then some (s.startRepl k k.info)
  else none

/-- The replica under way: a SEALING replica of the image's name. -/
def State.replicaOf (s : State) (ns : Word) (name : BitVec 128) : Option KNode :=
  s.crucible.nodes.find? (fun n => n.ns == ns && n.name == name && n.repl && n.st == .sealing)

/-- A replica begins: its slot, its headers and the granules of its blocks (R158). -/
def State.beginReplica (s : State) (k : Cmd) (p : NSpace) : Option State :=
  let im := k.image
  let need := sumN (im.blocks.map (fun b => granulesOf b.bytes.length))
  match s.roomFor p need with
  | (.fail, s1) => some ((s1.reclaimTest.replEnd k).kFail k 6)
  | (.wait, s1) => if s1 = s then none else some s1.reclaimTest
  | (.done, s1) =>
    let above := s1.readableName p.ns im.parent
    match s1.headerPlace p with
    | none => some ((s1.replEnd k).kFail k 6)
    | some a =>
      if above.isNone ∧ im.depth ≠ 1 then some (s1.askImage k 1)
      else
        let parent := match above with
          | some q => if im.depth = 1 then 0 else q.slot + 1
          | none => 0
        let n := s1.openNode p im.name parent im.depth a s.caller
        let g := s1.grab false need
        let at_ (i : Nat) : Nat := sumN ((im.blocks.take i).map (fun b => granulesOf b.bytes.length))
        let n' := { n with st := .sealing, repl := true, refs := [], owner := s.pinId k, home := hMid k.handle,
                           blocks := im.blocks.zipIdx.map (fun e => { layer := e.1.layer, granules := (g.drop (at_ e.2)).take (granulesOf e.1.bytes.length), next := [] }) }
        some (((s1.addNode n').putHeaders p n' im.parent im.toks).reclaimTest)

/-- The next ancestor, or the end, once a depth is readable here; the node is pinned until the end, so that its descendants find
their parent (R142; log 31). -/
def State.nextReplica (s : State) (k : Cmd) (n : KNode) : State :=
  let s1 := s.setNode { n with pins := n.pins ++ [s.pinId k] }
  let k1 := { k with pins := k.pins ++ [n.slot] }
  if k.limit.getD 0 ≤ k.addr then (s1.replEnd k1).kRecord k1 (n.handle s.mid) 0 n.depth 0 0 else s1.askImage k1 (k.addr + 1)

/-- A replica's block is good: its check agrees with the data read (R141). -/
def BlockImage.good (b : BlockImage) (name : BitVec 128) : Bool := b.check == (blockCheck name b.layer b.bytes).toNat

/-- One block of the image moves (R141): its check is computed from the data read and compared. A check that differs sets BAD at the
source (R158). A replica that cannot be registered, for want of a route to its directory, is given up with LINKDOWN (R161; 15 R341). -/
def State.moveBlock (s : State) (k : Cmd) : Option State :=
  match s.space k.last with
  | none => some ((s.replEnd k).kFail k 2)
  | some p =>
    let im := k.image
    match s.readableName p.ns im.name with
    | some n => some (s.nextReplica k n)
    | none =>
      if k.gotN 0 1 = 2 then some ((s.replEnd k).kFail k 3)
      else if k.gotN 0 1 ≠ 1 then some ((s.replEnd k).kStatus k 10 (k.limit.getD 0) 0)
      else match s.replicaOf p.ns im.name with
        | none => s.beginReplica k p
        | some n =>
          if n.owner ≠ s.pinId k then none
          else match im.blocks[n.written.length]?, n.blocks[n.written.length]? with
          | some b, some c =>
            if b.good im.name then
              some (((s.blockPut c 0 b.bytes).sealHeader n b.layer b.form b.ranks b.bytes).setNode { n with written := n.written ++ [(n.written.length, 0)] })
            else
              let s1 := s.sendK (hMid k.handle) 0 ⟨11, 0, 0, k.handle, BitVec.ofNat 64 k.addr, 0, 0, 0, 0⟩
              some (((s1.dropNode n.slot).replEnd k).reclaimTest.kFail k 3)
          | _, _ =>
            let n' := { n with st := .sealed, owner := 0, written := [] }
            if s.dirMod n.name ≠ s.mid ∧ (s.route (s.dirMod n.name)).isNone then
              some (((s.dropNode n.slot).replEnd k).reclaimTest.kFail k 7)
            else some ((((s.setNode n').register n').reclaimTest).nextReplica k n')

/-- REPLICA_BLOCK_MOVED (R141, R161). -/
def execReplicaBlockMoved (c seq : Nat) (s : State) : Host.Outcome State Fault Refusal :=
  enabledOr "REPLICA_BLOCK_MOVED" (s.atCore? c (fun s =>
    match s.cmd seq with
    | none => none
    | some k => match k.ins with
      | .krepl _ _ => if k.stage ≠ 2 || !k.asks.isEmpty || k.err != 0 then none else s.moveBlock k
      | _ => none))

/-- A command goes without an outcome (a kill, a cancelled speculation, a replay): its pins are released, and a replica that it was
copying leaves SEALING for FREE (R143). -/
def State.kAbandon (s : State) (k : Cmd) : State :=
  let s1 := if k.pins.isEmpty && k.stage != 2 then s
    else match k.ins with
      | .krepl _ _ => s.replEnd k
      | _ => s.releasePins k.pins (s.pinId k)
  match s1.crucible.nodes.find? (fun n => n.repl && n.st == .sealing && n.owner == s.pinId k) with
  | some n => (s1.dropNode n.slot).reclaimTest
  | none => s1

/-! ### Completion (R156, R164) -/

def isCrucible : Instr → Bool
  | .khash _ _ | .klook _ _ | .kopen _ _ | .kwr _ _ | .kseal _ _ | .klease _ _ | .kref _ _ | .kunref _ _ | .kld _ _ | .krepl _ _ |
    .kstat _ _ | .kdrop _ _ => true
  | _ => false

/-- The nodes here that a command is to: of its handle, and of the names that KOPEN and KLOOK give. -/
def State.kNodes (s : State) (k : Cmd) : List Nat :=
  ((s.nodeHere k).map (fun n => n.slot)).toList ++
  (match k.ins with
   | .kopen _ _ =>
     let name (b : List Byte) : Option KNode := s.named (BitVec.ofNat 64 (numAt b 0 8)) (BitVec.ofNat 128 (numAt b 8 16))
     (((s.kBlock k.arg.toNat 32).bind name).map (fun n => n.slot)).toList
   | .klook _ _ => match s.lookBlock k with
     | some l => l.names.filterMap (fun m => (s.named l.p.ns m).map (fun n => n.slot))
     | none => []
   | _ => [])

/-- Its unit is not parked before it, and no earlier command of the core to the same node is outstanding (R164). While the core is
saved nothing waits for a command that becomes a restart record (16 R353 step 2). -/
def State.kTurn (s : State) (k : Cmd) : Bool :=
  s.core.units.cmds.all (fun j => decide (k.seq ≤ j.seq) || (s.core.cstate == 4 && j.restarts) ||
    !((j.parked.isSome && j.unit == k.unit) ||
      (isCrucible j.ins && (match j.ins, k.ins with
        | .khash _ _, _ => false
        | _, .khash _ _ => false
        | _, _ => j.handle == k.handle || (s.kNodes j).any (fun n => (s.kNodes k).contains n)))))

/-- CRUCIBLE_COMMAND_COMPLETE: the command is accepted, answered, delivered and ends; several events where it waits. -/
def execCrucibleCommandComplete (c seq : Nat) (s : State) : Host.Outcome State Fault Refusal :=
  enabledOr "CRUCIBLE_COMMAND_COMPLETE" (s.atCore? c (fun s =>
    match s.cmd seq with
    | none => none
    | some k =>
      if !k.asks.isEmpty || !s.kTurn k then none
      else if k.err ≠ 0 then some (((s.specMarks k).kAbandon k).kFail k k.err)
      else match k.ins with
        | .khash _ _ => some (s.doKhash k)
        | .klook _ o => some (s.doKlook k (o.flags.getLsbD 0) (o.flags.getLsbD 1) (o.flags.getLsbD 2))
        | .kopen _ _ => s.doKopen k
        | .kwr _ _ => some (s.doKwr k)
        | .kseal _ _ | .klease _ _ | .kref _ _ | .kunref _ _ | .kdrop _ _ => s.doNode k
        | .kld _ o => some (s.doKld k (o.flags.getLsbD 0))
        | .krepl _ _ => s.doKrepl k
        | .kstat _ _ => some (s.doKstat k)
        | _ => none))

/-! ### The Crucible of another module asks -/

/-- A check failed at another module's copy of the ancestor of n at a depth: BAD is set here (R158). -/
def State.setBad (s : State) (n : KNode) (d : Nat) : State :=
  match s.atDepth n d with
  | some m => if m.st.readable then (s.setNode { m with bad := true }).reclaimTest else s
  | none => s

/-- A request of another module is served (R147 to R149, R160, R161; log 9). -/
def State.serveK (s : State) (src : Nat) (tag : BitVec 32) (r : KReq) : State :=
  let w : Caller := { mod := src, serial := r.serial, asid := r.asid }
  let reply (s : State) (bs : List Byte) : State := s.answer src tag bs
  match r.op with
  | 0 => reply s (leBytes 8 (s.dirHandle r.name).toNat)
  | 1 => reply (s.dirRegister r.name (hMid r.handle) r.handle (r.sub == 1)) (leBytes 8 0)
  | 2 => s.dirDrop r.name r.handle
  | 3 =>
    match s.current r.handle with
    | none => reply s (if r.sub = 0x32 then statNone else leBytes 64 (if r.sub = 255 then 0 else 7))
    | some n =>
      if r.sub = 255 then reply s (s.info w n).bytes
      else if r.sub = 0x32 then reply s (s.statBytes n)
      else
        let q := s.kAct w r.sub n r.arg
        reply (q.s.noteRemote n.slot src) (leBytes 8 q.status ++ leBytes 8 q.hi)
  | 4 =>
    match s.current r.handle with
    | none => reply s (leBytes 16 5)
    | some n =>
      match s.space n.ns with
      | none => reply s (leBytes 16 2)
      | some p =>
        if r.sub = 1 then reply s (leBytes 16 (s.parentName n).toNat ++ s.nodeTokens n p.bt)
        else if !n.st.readable || !s.holds w n then reply s (leBytes 16 5)
        else
          let q := s.kldPieces none n p r.arg (r.flags == 1)
          let bs := q.1.flatMap (fun e => e.2)
          reply (s.kldTouch none n p r.arg) (leBytes 4 (if q.2 then 3 else 0) ++ leBytes 4 (sumN ((s.kldLens n p r.arg).map (fun e => e.2))) ++
            leBytes 8 bs.length ++ bs)
  | 5 =>
    match s.current r.handle with
    | none => reply s (leBytes 8 0)
    | some n =>
      match s.atDepth n r.arg.toNat, s.space n.ns with
      | some m, some p =>
        if !n.st.readable then reply s (leBytes 8 0)
        else
          let pin := remotePin src r.name.toNat
          let s1 := s.setNode { n with pins := if n.pins.contains pin then n.pins else n.pins ++ [pin] }
          let s2 := m.blocks.foldl (fun s' b => s'.blockTouch b 0 (s.pbytes m b)) s1
          reply (s2.noteRemote n.slot src) (s.imageBytes m p)
      | _, _ => reply s (leBytes 8 0)
  | 6 => (s.releasePins [hSlot r.handle] (remotePin src r.name.toNat)).noteRemote (hSlot r.handle) src
  | 7 =>
    let hit := (s.crucible.nodes.filter (fun n => (lookupN w.key n.remoteRefs).isSome)).map (fun n => n.slot)
    let s1 := { s with crucible := { s.crucible with nodes := s.crucible.nodes.map (fun (n : KNode) =>
      { n with remoteRefs := eraseN w.key n.remoteRefs }) } }
    (hit.foldl (fun s k => s.noteRemote k src) s1).reclaimTest
  | 8 => s.homeMoved r.name s.mid
  | 9 => s.dirCounts r.name src r.sub (r.arg.toNat % 2 ^ 32) (r.arg.toNat / 2 ^ 32)
  | 10 => s.homeMoved r.name r.sub
  | 11 =>
    match s.current r.handle with
    | some n => s.setBad n r.arg.toNat
    | none => s
  | _ => s

end Sys2Proof.Machine
end

