-- ==== Sys2Proof/Machine/Pace.lean ====
section
/-! DEFINITION. The pace of a core: its clock with Bellows' charges (14 R293, R294) and the refresh phase of its stack (05 R116),
and the events between bundles: landings, the end of holds and freezes, trap entry and return (03 R58 to R65, R84 to R88). -/
namespace Sys2Proof.Machine
open Sys2Proof

/-! ### The clock -/

/-- The core runs a task whose entry state is loaded. -/
def Core.running (c : Core) : Bool :=
  c.cstate == 1 && (match c.task with
    | some t => t.started
    | none => false)

/-- Anvil weight of a queued instruction (Table 14.2). -/
def anvilWeight (j : MJob) : Nat :=
  match j.ins with
  | .mma _ _ | .mmas _ _ =>
    let a := fmtAf j.ctl
    let b := fmtBf j.ctl
    if a = .t6 ∧ b = .t6 then 40 else if a = .f32 then 24 else if a = .bf16 then 30 else 36
  | .lrmma _ _ | .lrmul _ _ | .lradd _ _ | .mtemper _ _ | .mdense _ _ | .mfac _ _ => 24
  | _ => 10

/-- The Anvil's part of the charge of the period at the core's clock. -/
def Core.anvilCharge (c : Core) : Nat :=
  sumN (c.units.anvil.map (fun j => match j.start with
    | some t => if t ≤ c.front.clock ∧ c.front.clock < t + j.occ then anvilWeight j else 0
    | none => 0))

/-- A clock period of the core in focus passes with the weight of a bundle: the window takes its charge, the stack's
refresh phase follows the core ahead, and a waiting matrix instruction may start. -/
def State.tick (s : State) (weight : Nat) : State :=
  let c := s.core
  let now := c.front.clock + 1
  let st := s.stack c.stk
  let s1 := if st.clock < now then s.setStack c.stk { st with clock := now, wsphase := st.wsphase + BitVec.ofNat 13 (now - st.clock) } else s
  State.anvilStart { s1 with core := { c with front := { c.front with clock := now, window := ((weight + c.anvilCharge) :: c.front.window).take 16 } } }

/-- Bellows' budget B (17 Table 17.1). -/
def State.budget (s : State) : Nat := fld s.regs.telem.pwr 41 11

def Core.windowSum (c : Core) : Nat := sumN c.front.window

/-- The other members of the core's lockstep group. -/
def State.mates (s : State) : List Core :=
  if s.core.lockm = 0 then [] else s.others.filter (fun c => c.cid == s.core.cid && s.core.lockm.getLsbD c.pos && c.lockm != 0)

/-- The largest window of the group. -/
def State.groupWindow (s : State) : Nat := (s.mates.map Core.windowSum).foldl max s.core.windowSum

/-- A frozen period: with `count` it is one of FRZCNT's. -/
def State.frozen (s : State) (count : Bool) : State :=
  let c := s.core
  let bell := c.front.bellowsFrz.isSome
  let s1 := { s with
    core := { c with
      ctl := if count then { c.ctl with frzcnt := c.ctl.frzcnt + 1 } else c.ctl,
      front := { c.front with
        gatherFrz := c.front.gatherFrz.map (fun n => n - 1),
        bellowsFrz := if c.front.gatherFrz.isSome then c.front.bellowsFrz else c.front.bellowsFrz.map (fun n => n + 1) } },
    regs := if bell && c.front.gatherFrz.isNone then
        { s.regs with telem := { s.regs.telem with bfrz := s.regs.telem.bfrz + 1 } } else s.regs }
  s1.tick 0

/-! ### Boundaries -/

/-- The core in focus is just before the issue of a bundle (03 R84). -/
def Core.atBoundary (c : Core) : Bool :=
  c.running && !c.front.ended && c.front.bubbles == 0 && c.front.gatherFrz.isNone && c.front.bellowsFrz.isNone &&
  (c.front.after == .issue || c.front.after == .resume)

/-- From a trap's entry to the issue of EPC's bundle (R88). -/
def Core.trapping (c : Core) : Bool := c.inHandler || (c.front.after == .resume && decide (0 < c.front.bubbles))

/-- Another member of the lockstep group runs a trap handler: this one is frozen (R88). -/
def State.mateTraps (s : State) : Bool := s.mates.any Core.trapping

/-- A program trap is to be taken now (R84, R87). Of two members of a lockstep group the second takes its trap when the first
has left its handler: until then it is frozen (R88; log 43). A freeze of any member freezes all (01 R17), so that the boundary comes after
it. -/
def State.trapDue (s : State) : Bool :=
  s.core.atBoundary && !s.core.inHandler && s.core.trapCause.isSome && !s.mateTraps &&
  s.mates.all (fun k => k.front.gatherFrz.isNone && k.front.bellowsFrz.isNone)

/-- A VOTE3 is to be raised now (08 R186). -/
def Core.voteDue (c : Core) : Bool :=
  c.running && (c.front.ended || c.atBoundary) && c.pipe.pwq.any (fun e => e.dist == 0 && e.isVote)

/-- VOTE3: the failed vote leaves the queue and the recovered fault is raised at the boundary. -/
def State.raiseVote (s : State) : State :=
  State.systemFault { s with core := { s.core with pipe := { s.core.pipe with
    pwq := s.core.pipe.pwq.filter (fun e => !(e.dist == 0 && e.isVote)) } } } 0 cVOTE3 0xFF 0

/-- Something lands in the issue cycle that begins. -/
def Core.landDue (c : Core) : Bool :=
  c.running && !c.front.held && c.front.gatherFrz.isNone && c.front.bellowsFrz.isNone && c.front.after != .resume &&
  (c.pipe.pwq.any (fun e => e.dist == 0 && !e.isVote) || c.pipe.bwq.any (fun e => e.dist == 0))

/-- RESULT_LANDING (R58, R61): the results whose issue cycle begins are written; a failed vote is raised (08 R186). -/
def execResultLanding (c : Nat) (s : State) : Host.Outcome State Fault Refusal :=
  enabledOr "RESULT_LANDING" (s.atCore? c (fun s =>
    if s.core.voteDue then some s.raiseVote
    else if s.core.landDue then some { s with core := s.core.land } else none))

/-- A held core issues, with LOCK and UNLOCK granted. -/
def Core.unhold (c : Core) (grant : Bool) : Core :=
  { c with front := { c.front with held := false, holds := [], granted := grant || c.front.granted } }

/-- LOCK and UNLOCK, whose holds clear for several cores at once. -/
def Hold.isLock : Hold → Bool
  | .lock _ | .unlock => true
  | _ => false

/-- Nothing but a LOCK or UNLOCK holds the core in focus any longer, and it neither traps nor stops here. -/
def State.readyButLock (s : State) : Bool :=
  s.core.running && s.core.front.held && s.core.front.holds.all (fun h => h.isLock || s.holdClear h) && !s.trapDue && !s.mateTraps

/-- The cores that are held in the same LOCK, or in UNLOCK of the same group. -/
def State.lockPartners (s : State) : List Core :=
  match s.core.front.holds.find? Hold.isLock with
  | none => []
  | some h => s.others.filter (fun k => k.cid == s.core.cid && k.front.held && k.front.holds.contains h &&
      (match h with
       | .lock m => m.getLsbD k.pos && s.peers.any (fun p => p.cnum == k.cnum)
       | _ => s.core.lockm.getLsbD k.pos))

/-- Every condition of the held bundle has cleared, and no trap takes its place; a LOCK or UNLOCK also waits until its partners' bundles
can issue in the same period (08 R206, R207). -/
def State.mayIssue (s : State) : Bool :=
  s.readyButLock && s.core.front.holds.all s.holdClear &&
  s.lockPartners.all (fun k => !k.drv.force && (s.focus k.cnum).any State.readyButLock)

/-- HELD_BUNDLE_ISSUE (R63): the held bundle issues. LOCKs of one mask, and UNLOCKs of one group, issue in one period (08
R206, R207): that period comes next. -/
def execHeldBundleIssue (c : Nat) (s : State) : Host.Outcome State Fault Refusal :=
  enabledOr "HELD_BUNDLE_ISSUE" (s.atCore? c (fun s =>
    if !s.mayIssue then none
    else
      let ks := s.lockPartners.map (fun k => k.cnum)
      if s.core.front.holds.any Hold.isLock then
        some { s with core := s.core.unhold true, others := s.others.map (fun k => if ks.contains k.cnum then k.unhold true else k),
                      turns := s.core.cnum :: s.turns }
      else some { s with core := s.core.unhold false }))

/-- GATHER_FREEZE_END (R64). -/
def execGatherFreezeEnd (c : Nat) (s : State) : Host.Outcome State Fault Refusal :=
  enabledOr "GATHER_FREEZE_END" (s.atCore? c (fun s =>
    if s.core.front.gatherFrz = some 0 then some { s with core := { s.core with front := { s.core.front with gatherFrz := none } } } else none))

/-- The Bellows freeze has brought the window down to 3B/4, or has lasted 16 periods (14 R294). -/
def State.bellowsOver (s : State) : Bool :=
  match s.core.front.bellowsFrz with
  | some k => decide (1 ≤ k) && (decide (16 ≤ k) || decide (4 * s.groupWindow ≤ 3 * s.budget))
  | none => false

/-- BELLOWS_FREEZE_END (R65; 14 R294): for the whole lockstep group. -/
def execBellowsFreezeEnd (c : Nat) (s : State) : Host.Outcome State Fault Refusal :=
  enabledOr "BELLOWS_FREEZE_END" (s.atCore? c (fun s =>
    if !s.bellowsOver then none
    else
      let ks := s.mates.map (fun k => k.cnum)
      some { s with
        core := { s.core with front := { s.core.front with bellowsFrz := none } },
        others := s.others.map (fun (k : Core) => if ks.contains k.cnum then { k with front := { k.front with bellowsFrz := none } } else k) }))

/-- PROGRAM_TRAP_ENTRY (R84, R85): at the first boundary after the request; entries set aside by an ERET not yet complete
rejoin first. -/
def execProgramTrapEntry (c : Nat) (s : State) : Host.Outcome State Fault Refusal :=
  enabledOr "PROGRAM_TRAP_ENTRY" (s.atCore? c (fun s =>
    if !s.trapDue then none
    else
      let s1 := if s.core.front.after = .resume then { s with core := s.core.rejoin } else s
      match s1.core.trapCause with
      | some (cause, code, addr) => some (s1.trapEntry cause code addr)
      | none => none))

/-- Every result of the handler has landed (R86); a vote that failed waits for the boundary after ERET (R84; 08 R186). -/
def Core.drained (c : Core) : Bool := c.running && c.front.after == .drain && c.pipe.pwq.all (fun e => e.dist == 0 && e.isVote)

/-- ERET_RESUME (R86). -/
def execEretResume (c : Nat) (s : State) : Host.Outcome State Fault Refusal :=
  enabledOr "ERET_RESUME" (s.atCore? c (fun s => if s.core.drained then some { s with core := s.core.eretResume } else none))

end Sys2Proof.Machine
end

