-- ==== Sys2Proof/Machine/Context.lean ====
section
/-! DEFINITION. The driver's requests of a core and the context area (16 R346 to R354): CCTL, translation verdicts, token
clears, the layout of a saved context, saving and restoring. -/
namespace Sys2Proof.Machine
open Sys2Proof

/-! ### Accesses of a system engine at the homes -/

/-- Writes bytes at their homes, with the fan-outs that this starts. -/
def State.sysWrite (s : State) (pa : Nat) (bs : List Byte) : State :=
  s.homePut pa bs

/-- A read of an extent by a system engine: the lines enter their home slices (05 R375). -/
def State.sysTouch (s : State) (pa n : Nat) : State := (s.homeFetch pa n).2

/-! ### The pending-write queue in the area (R350) -/

/-- Landing order: by distance, entries of one distance as they stand. -/
def insertDist (e : Pend) : List Pend → List Pend
  | [] => [e]
  | a :: l => if e.dist < a.dist then e :: a :: l else a :: insertDist e l

def landingOrder (l : List Pend) : List Pend := l.foldl (fun acc e => insertDist e acc) []

/-- KIND and destination. Several predicates at once stand as their mask in bits [31:16] (log 21). -/
def PVal.place : PVal → Nat × Nat
  | .x r _ => (1, r.toNat)
  | .f m _ => (2, match (List.range 16).find? (fun k => decide (m.toNat = 2 ^ k)) with
    | some k => k
    | none => m.toNat * 65536)
  | .p r _ _ => (3, r.toNat)
  | .v a _ => (4, a)
  | .ctl n _ => (5, n.toNat)
  | .vote3 => (0, 0)

/-- Word 0 of a descriptor. -/
def Pend.word0 (e : Pend) : Word :=
  BitVec.ofNat 64 (e.dist % 256 * 2 ^ 56 + e.val.place.1 * 2 ^ 52 + e.slot % 16 * 2 ^ 48 + e.val.place.2 % 2 ^ 32)

/-- Word 1: the value, or the entry's index. -/
def Pend.word1 (e : Pend) (i : Nat) : Word :=
  match e.val with
  | .x _ v => v
  | .f m v => if 65536 ≤ (PVal.f m v).place.2 then v.zeroExtend 64 else BitVec.ofNat 64 ((v &&& m) != 0).toNat
  | .ctl _ v => v
  | _ => BitVec.ofNat 64 i

/-- The 256 value bytes of an entry in member `g`. -/
def PVal.bytesAt (e : PVal) (g : Nat) : List Byte :=
  match e with
  | .p _ _ u => leBytes 32 (vget u g 0).toNat ++ List.replicate 224 0
  | .v _ bs => (List.range 256).map (fun i => (lookupN (256 * g + i) bs).getD 0)
  | _ => List.replicate 256 0

/-- The write mask of an entry in member `g`, one bit per byte (for a predicate, per predicate bit). -/
def PVal.maskAt (e : PVal) (g : Nat) : List Byte :=
  match e with
  | .p _ m _ => leBytes 32 (vget m g 0).toNat
  | .v _ bs => (List.range 32).map (fun k => BitVec.ofNat 8 (sumN ((List.range 8).map (fun j =>
      if (lookupN (256 * g + 8 * k + j) bs).isSome then 2 ^ j else 0))))
  | _ => List.replicate 32 0

/-- An entry read back: its words, and for each member its value and mask. -/
def pendOf (w0 w1 : Word) (gs : Nat) (val mask : Nat → List Byte) : Pend :=
  let dest := fld w0 0 32
  let v : PVal := match fld w0 52 4 with
    | 1 => .x (BitVec.ofNat 6 dest) w1
    | 2 => if 65536 ≤ dest then .f (BitVec.ofNat 16 (dest / 65536)) (w1.extractLsb' 0 16)
           else .f (fmask (BitVec.ofNat 4 dest)) (fval (BitVec.ofNat 4 dest) (w1.getLsbD 0))
    | 3 => .p (BitVec.ofNat 4 dest) (Vector.ofFn (fun (g : Fin 4) => if g.val < gs then BitVec.ofNat 256 (leNat (mask g.val)) else 0))
             (Vector.ofFn (fun (g : Fin 4) => if g.val < gs then BitVec.ofNat 256 (leNat ((val g.val).take 32)) else 0))
    | 4 => .v dest ((List.range gs).flatMap (fun g => (List.range 256).filterMap (fun i =>
             if (((mask g).getD (i / 8) 0).getLsbD (i % 8)) then some (256 * g + i, (val g).getD i 0) else none)))
    | _ => .ctl (BitVec.ofNat 12 dest) w1
  ⟨fld w0 56 8, fld w0 48 4, v⟩

/-! ### Restart records (R349, R353) -/

/-- Register operands that a command reads at issue. -/
def opCount : Instr → Nat
  | .cpy _ _ | .cpyr _ _ => 4
  | .ldg _ _ | .vldg _ _ | .vstg _ _ => 1
  | .stg _ _ | .amo _ _ => 2
  | .cas _ _ | .waitaddr _ _ => 3
  | _ => 0

/-- The token that a command names. -/
def cmdToken : Instr → KTok
  | .cpy _ o | .cpyr _ o => o.token
  | .ldg _ o | .stg _ o | .amo _ o | .cas _ o | .waitaddr _ o => o.token
  | .vldg _ o | .vstg _ o => o.token
  | _ => 0

/-- The 64 bytes of a record: slot word, operands, remaining ticks of a watch. -/
def Cmd.record (k : Cmd) (now : Word) : List Byte :=
  let left : Nat := k.limit.getD 0 - now.toNat
  padTo 64 (([slotWord k.ins] ++ k.ops.take (opCount k.ins) ++ (if isWatch k.ins then [BitVec.ofNat 64 left] else [])).flatMap
    (fun w => leBytes 8 w.toNat))

/-- A record read back over what the core kept of the command. A watch whose operand x[val] gives a limit has one, were no tick
left (11 R278). -/
def recordCmd (old : Option Cmd) (seq clock : Nat) (now : Word) (w : Nat → Word) : Option Cmd :=
  let unit := match old with
    | some k => k.unit
    | none => false
  let spec := match old with
    | some k => k.spec
    | none => false
  match decodeSlot (if unit then 5 else 4) spec (w 0) 0 with
  | none => none
  | some i =>
    let n := opCount i
    let words := (List.range n).map (fun j => w (j + 1))
    let base : Cmd := old.getD
      { seq := seq, unit := unit, ins := i, tok := cmdToken i, spec := spec, ops := words, addr := 0, data := [], ring := none, regions := [], fence := 0,
        err := 0, parked := none, retry := none, asked := none, window := false, performed := false, last := 0, limit := none, pins := [], born := clock,
        stage := 0, fans := [], asks := [], got := [], acks := [] }
    some { base with
      ins := i, tok := cmdToken i, ops := words ++ base.ops.drop n, parked := none, retry := none, asked := none, window := false, stage := 0, asks := [], got := [], acks := [],
      addr := if isCopy i then base.addr else (words.getD 0 0).toNat,
      limit := if isWatch i ∧ words.getD 1 0 ≠ 0 then some (now.toNat + (w (n + 1)).toNat) else none }

/-! ### The front-end area (R349 Table 16.6) -/

/-- CHDR. ARRV tells of arrivals of the held bundle, not of those of a bundle at EPC that a trap set aside. -/
def Core.chdr (c : Core) (mode pwqn : Nat) : Word :=
  BitVec.ofNat 64 (2 ^ 48 + c.g * 2 ^ 40 + mode * 2 ^ 32 + pwqn * 2 ^ 24 + c.lockm.toNat * 2 ^ 16 + c.phase.logOvf.toNat * 8 +
    c.phase.ckv.toNat * 4 + (c.front.held && c.front.arrv.any (fun k => decide (k < 1000))).toNat * 2 + c.front.held.toNat)

def taskWord (t : Task) : Word := BitVec.ofNat 64 (t.serial * 2 ^ 32 + t.node % 4096 * 2 ^ 16 + t.asid.toNat)

/-- Member bits in the layout of FRONT: member g at [16g+15:16g]. -/
def memberBits (v : Vector (BitVec 16) 4) : Word :=
  (List.range 4).foldl (fun w g => putFld w (16 * g) 16 (vget v g 0).toNat) 0

def tokenSave (t : Token) (restarts : Nat) : Word :=
  BitVec.ofNat 64 (t.cnt.toNat + t.err.toNat * 16 + t.spec.toNat * 128 + t.defErr.toNat * 256 + (t.defErr != 0).toNat * 2048 + restarts * 65536)

/-- Tile tags, one byte each. -/
def tileByte (t : Tile) : Byte := BitVec.ofNat 8 (t.factored.toNat * 128 + t.ty.code.toNat)

/-- The sixteen words at 0x250. -/
def Core.ctlWords (c : Core) : List Word :=
  [c.ctl.fmt, c.ctl.tol, c.ctl.vview, c.ctl.mview, c.ctl.qview, c.ctl.tvec, c.ctl.epc, c.ctl.tcause] ++
  [c.ctl.taddr, c.ctl.sticky, c.ctl.bstat, c.ctl.cyc, c.ctl.frzcnt, c.tokst, c.front.povt, c.front.povq.zeroExtend 64]

/-- The pieces of the front-end area; every other byte is zero. -/
def State.frontArea (s : State) (t : Task) (mode : Nat) : List (Nat × List Byte) :=
  let c := s.core
  let w8 (ws : List Word) : List Byte := ws.flatMap (fun w => leBytes 8 w.toNat)
  let pw := landingOrder (c.pipe.pwq.filter (fun e => !e.isVote))
  let recs := c.units.cmds.filter Cmd.restarts
  [(0x0000, w8 [c.chdr mode pw.length, c.front.pc.zeroExtend 64, taskWord t]),
   (0x0040, w8 ((List.range 64).map (fun k => c.x (BitVec.ofNat 6 k)))),
   (0x0240, w8 [c.fAll.zeroExtend 64, c.ctl.iter]),
   (0x0250, w8 c.ctlWords),
   (0x02D0, w8 [memberBits c.phase.front, memberBits c.phase.invalid]),
   (0x0300, w8 (c.units.rings.toList.map Ring.word)),
   (0x0340, c.units.rings.toList.flatMap (fun r => leBytes 2 r.resv.toNat)),
   (0x0360, w8 (c.units.tokens.toList.zipIdx.map (fun e =>
      tokenSave e.1 (recs.filter (fun k => k.tok.toNat == e.2)).length))),
   (0x03A0, w8 (c.units.bindings.flatMap (fun b => [b.base, b.len, b.obj]))),
   (0x0460, c.units.tiles.toList.map tileByte),
   (0x0800, w8 (pw.zipIdx.flatMap (fun e => [e.1.word0, e.1.word1 e.2]))),
   (0x1800, recs.flatMap (fun k => k.record s.regs.m.tbase))]

/-! ### The member areas (R349 Table 16.7) -/

/-- The end of a member's area, from 0x18_0000 up. -/
def State.memberTail (s : State) (g : Nat) : Memory :=
  let c := s.core
  let pw := (landingOrder (c.pipe.pwq.filter (fun e => !e.isVote))).zipIdx
  let m1 := pw.foldl (fun (m : Memory) e => (m.setN (256 * e.2) (e.1.val.bytesAt g)).setN (0xC000 + 32 * e.2) (e.1.val.maskAt g)) []
  let m2 := (List.range 16).foldl (fun (m : Memory) n => m.setN (0xD800 + 32 * n) (leBytes 32 (c.pslice (BitVec.ofNat 4 n) g).toNat)) m1
  m2.setN 0xDA00 (c.units.tiles.toList.map (fun t => vget t.rank g 0))

/-- Bank `n` of member `g` is saved: not of the cache role, and in light mode not a pair's back bank. -/
def State.savesBank (s : State) (light : Bool) (g n : Nat) : Bool :=
  s.role n != 0 &&
  !(light && s.paired (n / 2) && (n % 2 == 1) == !(vget s.core.phase.front g 0).getLsbD (n / 2))

/-- Where the area of the core in focus begins. -/
def Core.areaBase (c : Core) : Nat := fld c.drv.caddr 14 38 * 16384
def memberBase (c : Core) (g : Nat) : Nat := c.areaBase + 0x4000 + g * 0x18E000

/-- Writes the whole area (R349, R352). -/
def State.writeArea (s : State) (t : Task) (mode : Nat) : State :=
  let c := s.core
  let light := mode == 1
  let fa := (s.frontArea t mode).foldl (fun (m : Memory) e => m.setN e.1 e.2) []
  let s1 := s.sysWrite c.areaBase (fa.getN 0 0x4000)
  (List.range c.g).foldl (fun s g =>
    let b := memberBase c g
    let s2 := if light && t.pr then s.sysWrite (b + t.cbase * 256) (c.regs.rf.getN (g * 0x80000 + t.cbase * 256) (t.clen * 256))
      else s.sysWrite b (c.regs.rf.getN (g * 0x80000) 0x80000)
    let s3 := (List.range 32).foldl (fun s n =>
      if s.savesBank light g n then s.sysWrite (b + 0x80000 + n * 0x8000) (c.regs.bank.getN (g * 0x100000 + n * 0x8000) 0x8000) else s) s2
    s3.sysWrite (b + 0x180000) ((s.memberTail g).getN 0 0xE000)) s1

/-! ### Stopping for a save (R352, R353) -/

/-- CCTL with STATE, PEND and MODE replaced. -/
def cctlSet (w : Word) (st pend mode : Nat) : Word := putFld (putFld (putFld w 60 4 st) 59 1 pend) 4 4 mode

/-- PEND. -/
def Core.pend (c : Core) : Bool := c.drv.cctl.getLsbD 59

/-- The core stops at the boundary where it stands and is saved in a mode; the others of its lockstep group stop there too
(08 R208). -/
def State.stopForSave (s : State) (mode : Nat) : State :=
  let c := if s.core.front.after = .resume then s.core.rejoin else s.core
  State.stopGroup { s with core := { c with drv := { c.drv with
    cctl := cctlSet c.drv.cctl 4 (if mode = 1 then 0 else c.pend.toNat) mode, force := if mode = 2 then false else c.drv.force } } } 2

/-- Nothing but the bundle's own waits keeps the core from a boundary. -/
def Core.atRest (c : Core) : Bool :=
  c.front.bubbles == 0 && c.front.gatherFrz.isNone && c.front.bellowsFrz.isNone && (c.front.after == .issue || c.front.after == .resume) &&
  !c.front.ended

/-- A FORCE acts now: at a boundary of every member, or on a core that has stopped (Table 16.8). -/
def State.forceDue (s : State) : Bool :=
  s.core.drv.force && s.core.task.isSome && s.core.atRest && !s.core.front.departed &&
  ((s.core.running && !s.trapDue && s.mates.all (fun k => !k.running || k.atBoundary)) || s.core.cstate == 2 || s.core.cstate == 3)

/-- SAVING, RESTORING and RECOVERING ignore any request (Table 16.8). -/
def Core.ignoresReq (c : Core) : Bool := c.cstate == 4 || c.cstate == 6 || c.cstate == 7

/-- The core of a front end that was never bound is there with its registers at their reset values (log 28). -/
def State.withCore (s : State) (c : Nat) : State :=
  if s.cores.any (fun k => k.cnum == c) ∨ 896 ≤ c then s
  else { s with others := s.others ++ [{ Core.zero c with front := { Front.zero with clock := s.core.front.clock } }] }

/-- REQ = PHASE (R352): ignored in those states and in HELD (Table 16.8). -/
def execCctlPhase (c : Nat) (s : State) : Host.Outcome State Fault Refusal :=
  .next ((s.withCore c).atCore c (fun s =>
    if s.core.ignoresReq ∨ s.core.cstate = 3 then s
    else { s with core := { s.core with drv := { s.core.drv with cctl := putFld s.core.drv.cctl 59 1 1 } } }))

/-- REQ = FORCE (R346, R353): ignored while SAVING, RESTORING, RECOVERING, and without a task. -/
def execCctlForce (c : Nat) (s : State) : Host.Outcome State Fault Refusal :=
  .next (s.atCore c (fun s =>
    if s.core.task.isSome ∧ (s.core.cstate = 1 ∨ s.core.cstate = 2 ∨ s.core.cstate = 3) then
      let s1 := { s with core := { s.core with drv := { s.core.drv with force := true } } }
      if s1.forceDue then s1.stopForSave 2 else s1
    else s))

/-- REQ = CANCEL (R352). -/
def execCctlCancel (c : Nat) (s : State) : Host.Outcome State Fault Refusal :=
  .next (s.atCore c (fun s =>
    if s.core.ignoresReq then s
    else { s with core := { s.core with drv := { s.core.drv with cctl := putFld s.core.drv.cctl 59 1 0 } } }))

/-- REQ = RESUME (R346, R354): a held bundle is presented again; a parked context waits for its restore, also while another task
runs on the core. -/
def execCctlResume (c : Nat) (s : State) : Host.Outcome State Fault Refusal :=
  .next (s.atCore c (fun s =>
    if s.core.cstate = 3 then
      let s1 := { s with core := { s.core with front := { s.core.front with stat := .ready } } }
      if s1.core.task.any (fun t => t.started) then s1.resumeGroup.setCstate 1 else s1.setCstate 0
    else if !s.core.ignoresReq ∧ s.core.drv.saved.isSome then
      { s with core := { s.core with drv := { s.core.drv with cctl := putFld s.core.drv.cctl 58 1 1 } } }
    else s))

/-- REQ = END (R346): the fault is taken and the core departs. -/
def execCctlEnd (c : Nat) (s : State) : Host.Outcome State Fault Refusal :=
  .next (s.atCore c (fun s =>
    if s.core.cstate = 3 then
      s.departRun 1
    else s))

/-- TOKCLR (R346): acts in HELD only. Of a cleared token only later commands record an error (03 R82). -/
def execTokclr (c : Nat) (mask : Byte) (s : State) : Host.Outcome State Fault Refusal :=
  .next (s.atCore c (fun s =>
    if s.core.cstate = 3 then
      { s with core := { s.core with units := { s.core.units with tokens := Vector.ofFn (fun (n : Fin 8) =>
          let t := vget s.core.units.tokens n.val Token.zero
          if mask.getLsbD n.val then { t with err := 0, defErr := 0, since := s.core.units.nextSeq } else t) } } }
    else s))

/-! ### Verdicts on translation requests (R348) -/

/-- The oldest parked command of a unit. -/
def State.parkedOn (s : State) (unit : Bool) : Option Cmd := s.core.units.cmds.find? (fun k => k.parked.isSome && k.unit == unit)

/-- XLRESP with VERD = 0. -/
def execXlrespRetry (c : Nat) (unit : Bool) (s : State) : Host.Outcome State Fault Refusal :=
  .next (s.atCore c (fun s =>
    match s.parkedOn unit with
    | some k => s.setCmd { k with parked := none }
    | none => s))

/-- XLRESP with VERD = 1. -/
def execXlrespRefuse (c : Nat) (unit : Bool) (s : State) : Host.Outcome State Fault Refusal :=
  .next (s.atCore c (fun s =>
    match s.parkedOn unit with
    | some k => s.finish k 2
    | none => s))

/-! ### Saving (R349 to R353) -/

/-- The matrix unit has drained and every command has completed but those that become restart records. -/
def State.saveReady (s : State) : Bool :=
  s.core.cstate == 4 && s.core.units.anvil.isEmpty && s.core.units.cmds.all Cmd.restarts

/-- What the core keeps beside the area. -/
def Core.keep (c : Core) (t : Task) : Saved :=
  { task := t, ident := c.ident, bstat := c.ctl.bstat, bstat0 := c.ctl.bstat, aside := c.pipe.aside, votes := c.pipe.pwq.filter Pend.isVote, bwq := c.pipe.bwq,
    busErr := c.front.busErr, target := c.front.target, accReq := c.front.accReq, trapReq := c.front.trapReq, arrv := c.front.arrv, phase := c.phase,
    cmds := c.units.cmds.filter Cmd.restarts, rings := c.units.rings.toList, tokens := c.units.tokens.toList, fence := c.units.fence, left := 0 }

/-- The core is PARKED and free for another task. -/
def Core.parkedAs (c : Core) (v : Saved) : Core :=
  { c with task := none, pipe := ⟨[], [], []⟩,
           ovl := (c.ovl.filter (fun o => !(o.inUse && o.doomed))).map (fun o => { o with inUse := false }),
           units := { c.units with cmds := [] },
           front := { c.front with ended := true, held := false, holds := [], stat := .stopped },
           drv := { c.drv with saved := some v, cctl := putFld c.drv.cctl 60 4 5 } }

/-- The lockstep group of a saved context: its cluster, its cluster position, and the members that are still in it (R207). -/
def Saved.cid (v : Saved) : Nat := fld v.ident.cluster 7 7
def Saved.pos (v : Saved) : Nat := fld v.ident.gang 10 3
def Saved.lockm (v : Saved) (saved : BitVec 8) : BitVec 8 :=
  let m := saved &&& ~~~v.left
  if v.left ≠ 0 ∧ m = (1 : BitVec 8) <<< v.pos then 0 else m

/-- The core of a saved context leaves its lockstep group, whose members run on without it. -/
def State.leaveSaved (s : State) (v : Saved) : State :=
  let m : BitVec 8 := BitVec.ofNat 8 (fld v.ident.cluster 16 8)
  if m = 0 then s else (s.dropMember s.core.cnum v.cid v.pos true (some v.task)).resumeAt v.cid m

/-- A saved context of a task on the core in focus is discarded; its task's core counts as retired. -/
def State.discardSaved (s : State) (p : Task → Bool) : State :=
  match s.core.drv.saved with
  | some v =>
    if p v.task then
      let me := s.coreId s.core
      let s := s.leaveSaved v
      let s1 := { s with
        core := s.core.dropSaved p,
        groups := s.groups.map (fun (b : BGroup) =>
          if b.serves v.task ∧ b.arrived.any (fun m => m.1 == me) ∧ !b.departed.any (fun m => m.1 == me) then
            { b with departed := b.departed ++ [(me, (lookupN me b.arrived).getD 0)] } else b) }
      let ls := s1.coveredLines s1.core.cid s1.core.cnum (fun _ => true)
      (s1.releaseLines s1.core.cid ls).2.settleGroups.taskDone v.task
    else s
  | none => s

/-- A parked context on a core going out of service, whether or not another task runs there: its task is re-dispatched or ends with
FAULT (R359). -/
def State.releaseParked (s : State) : State :=
  match s.core.drv.saved with
  | none => s
  | some v =>
    if s.redispatchable v.task then s.redispatch v.task
    else
      let s1 := { s with hearth := { s.hearth with launches := s.hearth.launches.map (fun (l : Launch) =>
        if l.serial = v.task.serial then l.stop 1 v.task.node else l) } }
      s1.discardSaved (fun _ => true)

/-- CONTEXT_SAVE_DONE (R352, R353); on a core out of service the context is discarded at once (R359). -/
def execContextSaveDone (c : Nat) (s : State) : Host.Outcome State Fault Refusal :=
  enabledOr "CONTEXT_SAVE_DONE" (s.atCore? c (fun s =>
    match s.core.task with
    | none => none
    | some t =>
      if !s.saveReady then none
      else
        let mode := fld s.core.drv.cctl 4 4
        let s1 := s.writeArea t mode
        let tl := s1.regs.telem
        let s2 := { s1 with
          core := s1.core.parkedAs (s1.core.keep t),
          regs := if mode = 2 then { s1.regs with telem := { tl with forced := tl.forced + 1 } } else s1.regs }
        let s3 := (s2.post ⟨7, s.core.cnum, 0, s.core.front.pc.zeroExtend 64, t.serial⟩).ovlSettle
        some ((if (s3.cbindOf s3.core).getLsbD 63 then s3.releaseParked else s3).regate.hearthRun)))

/-! ### Restoring (R351, R354) -/

/-- CONTEXT_RESTORE: the task on the core has retired, the restore starts. -/
def execContextRestore (c : Nat) (s : State) : Host.Outcome State Fault Refusal :=
  enabledOr "CONTEXT_RESTORE" (s.atCore? c (fun s =>
    if s.core.cstate = 5 ∧ s.core.drv.cctl.getLsbD 58 ∧ s.core.task.isNone ∧ s.core.drv.saved.isSome then
      some (State.regate { s with core := { s.core with drv := { s.core.drv with cctl := putFld (putFld s.core.drv.cctl 58 1 0) 60 4 6 } } })
    else none))

/-- Registers and storage of the members, as the area holds them. -/
def State.areaRegs (s : State) : Regs :=
  let c := s.core
  let b := c.areaBase
  let w (a : Nat) : Word := BitVec.ofNat 64 (s.homeNum (b + a) 8)
  { x := Vector.ofFn (fun (i : Fin 64) => if i.val = 0 then (0 : Word) else w (0x40 + 8 * i.val)),
    f := (w 0x240).extractLsb' 0 16 ||| 1,
    p := Vector.ofFn (fun (i : Fin 64) =>
      if i.val < 4 then BitVec.allOnes 256
      else if i.val % 4 < c.g then BitVec.ofNat 256 (s.homeNum (memberBase c (i.val % 4) + 0x18D800 + 32 * (i.val / 4)) 32) else 0),
    rf := (List.range c.g).foldl (fun m g => m.setN (g * 0x80000) (s.homeRead (memberBase c g) 0x80000)) c.regs.rf,
    bank := (List.range c.g).foldl (fun m g => (List.range 32).foldl (fun m n =>
      if s.role n = 0 then m else m.setN (g * 0x100000 + n * 0x8000) (s.homeRead (memberBase c g + 0x80000 + n * 0x8000) 0x8000)) m) c.regs.bank }

/-- Control registers of the area. BSTAT is the barrier engines' (02 R49) unless the driver edited it: a generation may have completed
since it was saved. -/
def State.areaCtl (s : State) (v : Saved) : Ctl :=
  let w (a : Nat) : Word := BitVec.ofNat 64 (s.homeNum (s.core.areaBase + a) 8)
  { fmt := w 0x250 &&& cregMask 0, tol := w 0x258, vview := w 0x260 &&& cregMask 2, mview := w 0x268 &&& cregMask 3,
    qview := w 0x270 &&& cregMask 4, tvec := w 0x278 &&& cregMask 8, epc := w 0x280 &&& cregMask 9, tcause := w 0x288 &&& cregMask 0x00A, taddr := w 0x290,
    sticky := w 0x298 &&& 0x303, iter := w 0x248, cyc := w 0x2A8, frzcnt := w 0x2B0, bstat := if w 0x2A0 = v.bstat0 then v.bstat else w 0x2A0 &&& cregMask 0x019 }

/-- The pending-write queue of the area. -/
def State.areaPwq (s : State) : List Pend :=
  let c := s.core
  let b := c.areaBase
  let w (a : Nat) : Word := BitVec.ofNat 64 (s.homeNum (b + a) 8)
  (List.range (min 192 (fld (w 0) 24 8))).map (fun i =>
    pendOf (w (0x800 + 16 * i)) (w (0x808 + 16 * i)) c.g
      (fun g => s.homeRead (memberBase c g + 0x180000 + 256 * fld (w (0x808 + 16 * i)) 0 8) 256)
      (fun g => s.homeRead (memberBase c g + 0x18C000 + 32 * fld (w (0x808 + 16 * i)) 0 8) 32))

/-- Rings, tokens, tile tags, binding table and restarted commands of the area. -/
def State.areaUnits (s : State) (v : Saved) : Units :=
  let c := s.core
  let b := c.areaBase
  let w (a : Nat) : Word := BitVec.ofNat 64 (s.homeNum (b + a) 8)
  let rings := Vector.ofFn (fun (i : Fin 8) =>
    let old := v.rings.getD i.val Ring.zero
    let k := w (0x300 + 8 * i.val)
    { ringOfWord k old.on with cons := k.extractLsb' 0 12, claims := old.claims, pops := old.pops,
                               resv := BitVec.ofNat 12 (s.homeNum (b + 0x340 + 2 * i.val) 2) })
  let tokens := Vector.ofFn (fun (i : Fin 8) =>
    let k := w (0x360 + 8 * i.val)
    let old := v.tokens.getD i.val Token.zero
    ({ cnt := k.extractLsb' 0 4, err := k.extractLsb' 4 3, errAt := old.errAt, spec := k.getLsbD 7,
       defErr := if k.getLsbD 11 then k.extractLsb' 8 3 else 0, defAt := old.defAt, since := old.since } : Token))
  let tiles := Vector.ofFn (fun (i : Fin 64) =>
    let k := s.homeNum (b + 0x460 + i.val) 1
    ({ factored := decide (128 ≤ k), ty := fmtType (k % 16),
       rank := Vector.ofFn (fun (g : Fin 4) => if g.val < c.g then BitVec.ofNat 8 (s.homeNum (memberBase c g.val + 0x18DA00 + i.val) 1) else 0) } : Tile))
  let n := sumN ((List.range 8).map (fun i => fld (w (0x360 + 8 * i)) 16 8))
  let cmds := (List.range (min 128 n)).filterMap (fun i =>
    recordCmd v.cmds[i]? (c.units.nextSeq + i) c.front.clock s.regs.m.tbase (fun j => w (0x1800 + 64 * i + 8 * j)))
  let bs := (List.range 8).filterMap (fun i =>
    let a := 0x3A0 + 24 * i
    if w (a + 8) = 0 then none else some (⟨w a, w (a + 8), w (a + 16)⟩ : Binding))
  { rings := rings, tokens := tokens, tiles := tiles, anvil := [], nextNum := c.units.nextNum, cmds := cmds, nextSeq := c.units.nextSeq + n,
    bindings := bs, fence := v.fence, lamport := c.units.lamport }

/-- The task as TASK of the area names it. -/
def State.areaTask (s : State) (v : Saved) : Task :=
  let w : Word := BitVec.ofNat 64 (s.homeNum (s.core.areaBase + 0x10) 8)
  { v.task with serial := fld w 32 32, node := fld w 16 12, asid := w.extractLsb' 0 12 }

/-- The lines of the area that a restore reads. -/
def State.areaTouch (s : State) : State :=
  let c := s.core
  (List.range c.g).foldl (fun s g =>
    let b := memberBase c g
    let s1 := (List.range 32).foldl (fun s n => if s.role n = 0 then s else s.sysTouch (b + 0x80000 + n * 0x8000) 0x8000) (s.sysTouch b 0x80000)
    s1.sysTouch (b + 0x180000) 0xE000) (s.sysTouch c.areaBase 0x4000)

/-- No line of the area fans out: its homes can be read (05 R133). -/
def State.areaFree (s : State) : Bool := s.homeFree s.core.areaBase (0x4000 + s.core.g * 0x18E000)

/-- The core in focus with the context of the area, at its RPC bundle. -/
def State.restoreArea (s : State) (v : Saved) : State :=
  let c := s.core
  let b := c.areaBase
  let w (a : Nat) : Word := BitVec.ofNat 64 (s.homeNum (b + a) 8)
  let h := w 0
  let member (a : Nat) : Vector (BitVec 16) 4 := Vector.ofFn (fun (g : Fin 4) => (w a).extractLsb' (16 * g.val) 16)
  let pc : BitVec 56 := (w 8).extractLsb' 0 56
  let arrv := if h.getLsbD 1 then
      (if v.arrv.any (fun k => decide (k < 1000)) then v.arrv else (List.range 16).map (fun k => 32 + k) ++ v.arrv)
    else v.arrv.filter (fun k => decide (1000 ≤ k))
  { s with core := { c with
      regs := s.areaRegs,
      ident := { v.ident with cluster := putFld v.ident.cluster 16 8 (v.lockm (h.extractLsb' 16 8)).toNat },
      ctl := s.areaCtl v,
      front := { Front.zero with
        pc := pc, nextPc := pc, arrv := arrv, target := v.target, busErr := v.busErr, accReq := v.accReq, trapReq := v.trapReq, povt := w 0x2C0, povq := (w 0x2C8).extractLsb' 0 16,
        upset := c.front.upset, window := c.front.window, clock := c.front.clock },
      pipe := ⟨s.areaPwq ++ v.votes, v.aside, v.bwq⟩,
      units := s.areaUnits v,
      phase := { v.phase with front := member 0x2D0, invalid := member 0x2D8, ckv := h.getLsbD 2, logOvf := h.getLsbD 3 },
      task := some { s.areaTask v with started := true },
      drv := { c.drv with saved := none, cctl := putFld c.drv.cctl 60 4 1 } } }

/-- The checks of R306 on a restored context, with any WOFF. -/
def State.contextOk (s : State) : Bool :=
  let c := s.core
  entryStateOk c.ctl.fmt c.ctl.tol c.ctl.vview c.ctl.mview c.ctl.qview && c.units.rings.toList.all (fun r => !r.on || s.okRing r.word)

/-- The overlays of the task are resident again (02 R55). -/
def State.refill (s : State) (t : Task) : Fill :=
  match s.launch t.serial with
  | none => .ok s
  | some l =>
    match (l.nodes[t.node]?).map GNode.kind with
    | some (.task _ _ tt _ _ _) =>
      let r := s.readHeader l tt
      match r.1 with
      | none => .wait r.2
      | some (.error e) => .error e.2.1
      | some (.ok e) => State.fillPages t.asid e e.ovls r.2
    | _ => .ok s

/-- CONTEXT_RESTORE_DONE (R351): the core runs from RPC; a context that fails its checks takes ILLOP there. -/
def execContextRestoreDone (c : Nat) (s : State) : Host.Outcome State Fault Refusal :=
  enabledOr "CONTEXT_RESTORE_DONE" (s.atCore? c (fun s =>
    match s.core.drv.saved with
    | none => none
    | some v =>
      let who := Reader.entry s.core.cnum
      if s.core.cstate ≠ 6 ∨ s.readWaits who ∨ !s.areaFree then none
      else
        let t := s.areaTask v
        let slabs := (List.range s.core.g).map s.core.slabOf
        let fin (s : State) : State :=
          let s1 := (s.endRead who).areaTouch.restoreArea v
          let st := s1.stack s1.core.stk
          let s2 := s1.setStack s1.core.stk { st with slabAsid := slabs.foldl (fun u k => vset u k t.asid) st.slabAsid }
          s2.resumeGroup.post ⟨8, s2.core.cnum, 0, s2.core.front.pc.zeroExtend 64, t.serial⟩
        match s.refill t with
        | .error a => some ((fin s).pageFault a)
        | .wait s1 => s1.waited who
        | .ok s1 =>
          let s2 := fin s1
          some (if s2.contextOk then s2 else s2.systemFault 15 cILLOP 0xFF 0)))

end Sys2Proof.Machine
end

