-- ==== Sys2Proof/Machine/Driver.lean ====
section
/-! DEFINITION. Errors found by the device and their banks (16 R344, R360), the event ring's head (R347), kills (R355), frames
leaving service (R358), and the removal of stacks and modules (05 R134; 06 R162). -/
namespace Sys2Proof.Machine
open Sys2Proof

/-! ### Errors (16 R344, R360) -/

/-- The core holds a task that a recovered fault can meet: it runs, stops, is held or is being saved. -/
def Core.hasTask (c : Core) : Bool :=
  decide (1 ≤ c.cstate) && decide (c.cstate ≤ 4) && c.task.any (fun t => t.entered) && !c.front.departed

/-- UE_DETECTED in register space, a bank or front-end state: its bank records it, and a core with a task takes a recovered
fault at its bundle. -/
def execUeDetected (c bank : Nat) (unit kind : Byte) (addr : Word) (s : State) : Host.Outcome State Fault Refusal :=
  enabledOr "UE_DETECTED" (
    if 65 ≤ bank then none
    else
      let s1 := s.logUe bank (BitVec.ofNat 16 c) unit kind addr
      match s1.focus c with
      | none => none
      | some _ => some (s1.atCore c (fun s => if s.core.hasTask then s.systemFaultAs 3 15 cUE 0xFF addr else s)))

/-- CE_DETECTED: corrected; its bank records it. -/
def execCeDetected (bank : Nat) (synd : BitVec 16) (unit kind : Byte) (addr : Word) (s : State) : Host.Outcome State Fault Refusal :=
  enabledOr "CE_DETECTED" (if 65 ≤ bank then none else some (s.logCe bank synd unit kind addr))

/-- ERROR_BANK_CLEAR: W1C of CEV and UEV with their records. -/
def execErrorBankClear (bank : Nat) (cev uev : Bool) (s : State) : Host.Outcome State Fault Refusal :=
  enabledOr "ERROR_BANK_CLEAR" (
    if 65 ≤ bank then none
    else
      let b := s.bank bank
      let b1 : ErrBank := if cev then { b with ece := 0, ecea := 0 } else b
      let b2 : ErrBank := if uev then { b1 with eue := 0, euea := 0 } else b1
      some { s with board := { s.board with banks := vset s.board.banks bank b2 } })

/-! ### The event ring (R347) -/

/-- EVHEAD_WRITE: space frees, and events that waited are posted in order. -/
def execEvheadWrite (v : Word) (s : State) : Host.Outcome State Fault Refusal :=
  let w := s.regs.waiting
  .next (w.foldl State.post { s with regs := { s.regs with waiting := [], ev := { s.regs.ev with evhead := v } } })

/-! ### Kill (R355) -/

/-- Requests that have not left this module are discarded; of those that have, the answers are still to come (steps 1 and 4). -/
def State.fence (s : State) (tags : List (BitVec 32)) : State :=
  let mine (m : Msg) : Bool := m.src == s.mid && (m.cls == 0 || m.cls == 4) && tags.contains m.tag
  let unsent := s.links.toList.flatMap (fun l => (l.waiting.filter (fun e => mine e.2)).map (fun e => e.2.tag))
  { s with links := s.links.map (fun (l : Link) => { l with waiting := l.waiting.filter (fun e => !mine e.2) }),
           domain := { s.domain with killTags := s.domain.killTags ++ tags.filter (fun t => !unsent.contains t) } }

/-- The answers that a command awaits by tag. -/
def Cmd.awaited (k : Cmd) : List (BitVec 32) :=
  k.asks.map (fun a => a.1) ++ (match k.ins with
    | .lsend _ _ => []
    | _ => k.acks)

/-- The channel entry of an LSEND whose message has been handed to the links. -/
def Cmd.sent (k : Cmd) : List Nat :=
  match k.ins with
  | .lsend _ _ => if k.acks.isEmpty then [] else [k.last.toNat]
  | _ => []

/-- Messages on channels that have not left this module are discarded; of those that have, the flits are still to be acknowledged. -/
def State.dropSends (s : State) (chans : List Nat) : State :=
  if chans.isEmpty then s
  else
    let mine (m : Msg) : Bool := m.src == s.mid && m.cls == 2 && chans.contains m.chan
    let last := (List.range 16).filterMap (fun n => (s.link n).buffer.getLast?.map (fun e => (n, e.1)))
    { s with links := s.links.map (fun (l : Link) => { l with waiting := l.waiting.filter (fun e => !mine e.2) }),
             domain := { s.domain with killFlits := s.domain.killFlits ++ last } }

/-- A core's commands are dropped: pins go, ring slots count as complete. -/
def State.dropCommands (s : State) : State :=
  let s1 := s.core.units.cmds.foldl (fun (s : State) k => (s.fence k.awaited).kAbandon k) (s.dropSends (s.core.units.cmds.flatMap Cmd.sent))
  let rings := s1.core.units.rings.map (fun (r : Ring) => { r with claims := r.claims.map (fun k => { k with done := true }) })
  let toks := s1.core.units.tokens.map (fun (t : Token) => { t with cnt := 0 })
  { s1 with core := { s1.core with units := { s1.core.units with cmds := [], rings := rings, tokens := toks } } }

/-- The task of the core in focus ends early: nothing of it is outstanding, and the core departs and will retire. -/
def State.cutOff (s : State) (status : Nat) : State :=
  let s1 := s.dropCommands
  State.departRun { s1 with core := { s1.core with
    units := { s1.core.units with tokens := s1.core.units.tokens.map (fun (t : Token) => { t with err := 0, defErr := 0 }) } } } status

/-- A launch that is killed ends with KILLED. -/
def Launch.killed (l : Launch) : Launch := { l with stopping := true, status := 2 }

/-- For an ASID Hearth reads: its queues, its launches' condition words, its tasks' entries. -/
def State.readsFor (s : State) (a : BitVec 12) (r : HRead) : Bool :=
  match r.who with
  | .words q | .record q => (s.queue q).asid == a
  | .cond n => (s.launch n).any (fun l => l.asid == a)
  | .entry c => s.cores.any (fun k => k.cnum == c && (k.task.any (fun t => t.asid == a) || k.drv.saved.any (fun v => v.task.asid == a)))

/-- Hearth's reads for an ASID go. -/
def State.dropReads (s : State) (a : BitVec 12) : State :=
  let gone := s.hearth.reads.filter (s.readsFor a)
  State.fence { s with hearth := { s.hearth with reads := s.hearth.reads.filter (fun r => !s.readsFor a r) } }
    (gone.flatMap (fun r => r.asks.map (fun e => e.1)))

/-- Host lines written under an ASID are written back (step 4). -/
def State.hostClean (s : State) (a : BitVec 12) : State :=
  let s1 := s.hostWriteBack (fun l => l.asid == a)
  { s1 with memory := { s1.memory with host := s1.memory.host.map (fun (l : HLine) => if l.asid = a then { l with owned := false } else l) } }

/-- KILL: the ASID's queues, cores, contexts and launches stop (steps 1 to 5). -/
def State.killAsid (s : State) (a : BitVec 12) : State :=
  let s := s.dropReads a
  let s1 := { s with
    regs := { s.regs with ev := { s.regs.ev with kill := BitVec.ofNat 64 (2 ^ 62 + a.toNat) } },
    hearth := { s.hearth with
      queues := s.hearth.queues.map (fun (e : Nat × LQueue) => if e.2.asid = a then (e.1, { e.2 with lq3 := putFld e.2.lq3 63 1 0 }) else e),
      launches := s.hearth.launches.map (fun (l : Launch) => if l.asid = a then l.killed else l) } }
  let s2 := (s1.cores.map (fun c => c.cnum)).foldl (fun s c => s.atCore c (fun s =>
    let s3 := if s.core.task.any (fun t => t.asid == a) then s.cutOff 0 else s
    s3.discardSaved (fun t => t.asid == a))) s1
  (s2.hostClean a).regate.hearthRun

/-- A write of KILL with GO = 1; a second one while BUSY, or of ASID 0, is ignored. -/
def execKill (asid : BitVec 12) (s : State) : Host.Outcome State Fault Refusal :=
  .next (if s.regs.ev.kill.getLsbD 62 ∨ asid = 0 then s else s.killAsid asid)

/-- KILL_DONE: no core runs the ASID, its launches have ended, other modules have answered and the messages sent have arrived; the
host lines that the completion records wrote are written back, BUSY clears and the event is posted. -/
def execKillDone (s : State) : Host.Outcome State Fault Refusal :=
  enabledOr "KILL_DONE" (
    let a : BitVec 12 := s.regs.ev.kill.extractLsb' 0 12
    if !s.regs.ev.kill.getLsbD 62 || s.cores.any (fun c => c.task.any (fun t => t.asid == a)) ||
       s.hearth.launches.any (fun l => l.asid == a) || !s.domain.killTags.isEmpty || s.hearth.writes.any (fun e => e.2 == a) ||
       s.domain.killFlits.any (fun e => (s.link e.1).state == 2) then none
    else
      let s := s.hostClean a
      let s1 := { s with regs := { s.regs with ev := { s.regs.ev with kill := putFld s.regs.ev.kill 62 1 0 } } }
      some (s1.post ⟨12, 0xFFFF, 0, 0, 0⟩))

/-! ### Frames (R358) -/

/-- FRETN with BUSY, STAT and NEW. -/
def fretnWord (busy stat new : Nat) : Word := BitVec.ofNat 64 (busy * 2 ^ 61 + stat * 2 ^ 58 + new * 2 ^ 16)

/-- The frame lies in a tier of the Crucible. -/
def State.tierFrame (s : State) (f : Nat) : Bool :=
  let a := f * 65536
  let hb := fld s.regs.m.crhbm 30 22 * 2 ^ 30
  let cb := fld s.regs.m.crcxl 30 22 * 2 ^ 30
  (decide (hb ≤ a) && decide (a < hb + fld s.regs.m.crhbm 52 12 * 2 ^ 30)) ||
  (decide (cb ≤ a) && decide (a < cb + fld s.regs.m.crcxl 52 12 * 2 ^ 33))

def State.setFret (s : State) (old : BitVec 36) (n : Word) : State :=
  { s with regs := { s.regs with ev := { s.regs.ev with freto := old.zeroExtend 64 <<< 16, fretn := n } } }

/-- Granules of a frame that the Crucible uses. -/
def State.frameGranules (s : State) (f : Nat) : List Nat := s.usedGranules.filter (fun g => g / 65536 == f)

/-- The new frame may not stand in for the old: it is bad, retired or the old one, or a frame of the Crucible's that does not take
another of its own (log 29). -/
def State.badTarget (s : State) (old new : Nat) : Bool :=
  s.memory.badFrames.contains new || old == new || (lookupN new s.memory.remaps).isSome ||
  (s.tierFrame new && (!s.tierFrame old || !(s.frameGranules new).isEmpty))

/-- FRAME_MIGRATE: FRETO and FRETN with CMD = 1. -/
def execFrameMigrate (old new : BitVec 36) (s : State) : Host.Outcome State Fault Refusal :=
  .next (
    if s.regs.ev.fretn.getLsbD 61 then s
    else if 64 ≤ s.memory.remaps.length then s.setFret old (fretnWord 0 1 new.toNat)
    else if s.badTarget old.toNat new.toNat then
      s.setFret old (fretnWord 0 2 new.toNat)
    else
      let s1 := s.setFret old (fretnWord 1 0 new.toNat)
      { s1 with memory := { s1.memory with busyFrame := some (old.toNat, new.toNat) } })

/-- The Crucible moves its blocks from a frame to another (06 R141): each granule keeps its place in the frame, and a block whose check
fails makes its node BAD and does not move. -/
def State.moveGranules (s : State) (old new : Nat) : State :=
  let there (g : Nat) : Nat := if g / 65536 = old then new * 65536 + g % 65536 else g
  let hit (b : Block) : Bool := b.granules.any (fun g => g / 65536 == old)
  let nodes := s.crucible.nodes.map (fun (n : KNode) =>
    let fails (b : Block) : Bool := hit b && n.st.readable && !s.blockGood n b
    { n with bad := n.bad || n.blocks.any fails, old := n.old.map there,
             blocks := n.blocks.map (fun (b : Block) => if fails b then b else { b with granules := b.granules.map there, next := b.next.map there }) })
  { s with crucible := { s.crucible with nodes := nodes } }

/-- FRAME_MIGRATE_DONE: the bytes are at the new frame, poison with them, and accesses are performed there; the Crucible's blocks
have moved. -/
def execFrameMigrateDone (s : State) : Host.Outcome State Fault Refusal :=
  enabledOr "FRAME_MIGRATE_DONE" (match s.memory.busyFrame with
    | none => none
    | some (old, new) =>
      let src := (lookupN old s.memory.remaps).getD old
      let bad := (s.memory.poison.filter (fun a => a / 65536 == src)).map (fun a => new * 65536 + a % 65536)
      let s1 := { s with
        memory := { s.memory with
          mem := s.memory.mem.setN (new * 65536) (s.memory.mem.getN (src * 65536) 65536),
          poison := s.memory.poison.filter (fun a => a / 65536 != new) ++ bad,
          remaps := insertN old new (s.memory.remaps.map (fun (e : Nat × Nat) => if e.2 = old then (e.1, new) else e)), busyFrame := none },
        regs := { s.regs with ev := { s.regs.ev with fretn := fretnWord 0 (if bad.isEmpty then 0 else 3) new } } }
      let s2 := if s.tierFrame old then (s1.moveGranules old new).reclaimTest else s1
      some ((s2.post ⟨14, 0xFFFF, 0, BitVec.ofNat 64 (old * 65536), 0⟩).serveHeld))

/-- FRAME_RELEASE_REMAP: FRETN with CMD = 2. -/
def execFrameReleaseRemap (s : State) : Host.Outcome State Fault Refusal :=
  let old := fld s.regs.ev.freto 16 36
  let new := fld s.regs.ev.fretn 16 36
  let stat (s : State) (k : Nat) : State := { s with regs := { s.regs with ev := { s.regs.ev with fretn := fretnWord 0 k new } } }
  .next (
    if s.regs.ev.fretn.getLsbD 61 then s
    else match lookupN old s.memory.remaps with
      | none => stat s 4
      | some _ => stat { s with memory := { s.memory with
          remaps := eraseN old s.memory.remaps,
          badFrames := if s.memory.badFrames.length < 510 then s.memory.badFrames ++ [old] else s.memory.badFrames } } 0)

/-! ### Removal (05 R134) -/

/-- Agents that leave a fan-out count as having answered. -/
def State.countGone (s : State) (gone : Nat → Bool) : State :=
  let s1 := { s with memory := { s.memory with dir := s.memory.dir.map (fun (d : DirEntry) =>
    { d with
      out := d.out.filter (fun a => !gone a),
      fan := d.fan.map (fun (f : FanOut) =>
        { f with await := f.await.filter (fun a => !gone a), inval := f.inval.filter (fun a => !gone a),
                 acking := f.acking.filter (fun a => !gone a), keep := f.keep.filter (fun a => !gone a) }) }) } }
  (s1.memory.dir.map (fun d => d.line)).foldl State.settleFan s1

/-- STACK_REMOVAL: its agents' copies are lost, what was awaited of them counts as given, its incarnation advances and its
tasks end. -/
def execStackRemoval (stk : Nat) (s : State) : Host.Outcome State Fault Refusal :=
  enabledOr "STACK_REMOVAL" (
    if 8 ≤ stk ∨ (s.stack stk).removed then none
    else
      let gone (a : Nat) : Bool := a / 11 == stk
      let st := s.stack stk
      let s1 := s.setStack stk { st with removed := true, inc := st.inc + 1 }
      let s2 := { s1 with memory := { s1.memory with lines := s1.memory.lines.filter (fun l => !gone l.agent) } }
      let s3 := s2.countGone gone
      let s4 := (s3.cores.filter (fun c => c.stk == stk)).foldl (fun s c => s.atCore c.cnum (fun s =>
        let s5 := if s.core.task.isSome then s.cutOff 1 else s
        let s6 := match s5.core.drv.saved with
          | some v => { s5 with hearth := { s5.hearth with launches := s5.hearth.launches.map (fun (l : Launch) =>
              if l.serial = v.task.serial then l.stop 1 v.task.node else l) } }
          | none => s5
        s6.discardSaved (fun _ => true))) s3
      some ((s4.logUe (4 * stk + 3) 0xFFFF 0 0 0).hearthRun))

/-- What is awaited from a removed module: reads find the link down, acknowledgements count as given. -/
def Cmd.withoutModule (m : Nat) (k : Cmd) : Cmd :=
  let lost := k.asks.any (fun a => tagMod a.1 == m)
  let sent := k.acks.any (fun a => tagMod a == m)
  let lsend := match k.ins with
    | .lsend _ _ => true
    | _ => false
  { k with asks := if lost then [] else k.asks, acks := k.acks.filter (fun a => tagMod a != m),
           err := if lost || (sent && lsend) then 7 else k.err }

/-- The incarnation of a module that this module knows, 0 where it never met one. -/
def State.incOf (s : State) (m : Nat) : BitVec 16 := (lookupN m s.domain.incs).getD 0

/-- Channels to and from a module. -/
def State.markPaths (s : State) (m : Nat) (down : Bool) : State :=
  { s with channels := s.channels.map (fun (c : Channel) =>
      if c.src == some m || (match s.chEntry c.entry with
        | some e => e.dstm == m
        | none => false) then { c with down := down } else c) }

/-- The Crucible forgets a removed module (06 R162): its references and pins on nodes here, what launches here held there, and its
entries of the directory. -/
def State.crucibleWithout (s : State) (m : Nat) : State :=
  let mine (p : Nat) : Bool := p / 2 ^ 64 == m + 1
  let s1 := { s with crucible := { s.crucible with
    nodes := s.crucible.nodes.map (fun (n : KNode) =>
      let left := n.evictPins.filter (fun p => !mine p)
      { n with remoteRefs := n.remoteRefs.filter (fun e => e.1 / 2 ^ 64 != m), pins := n.pins.filter (fun p => !mine p), evictPins := left,
               old := if left.isEmpty then [] else n.old }),
    held := s.crucible.held.filter (fun e => e.1 / 2 ^ 64 != m),
    dir := s.crucible.dir.map (fun (d : KDir) =>
      { d with replicas := eraseN m d.replicas, refs := eraseN m d.refs, pins := eraseN m d.pins }) } }
  let s2 := (s1.crucible.nodes.map (fun n => n.slot)).foldl State.settleEvict s1
  let homed := s2.crucible.dir.filter (fun d => d.home == m)
  (homed.foldl State.dirMoveHome s2).reclaimTest

/-- A read of Hearth's that awaited a removed module fails. -/
def HRead.withoutModule (m : Nat) (r : HRead) : HRead :=
  if r.asks.any (fun a => tagMod a.1 == m) then { r with asks := r.asks.filter (fun a => tagMod a.1 != m), lost := true } else r

/-- A link without the traffic of a removed module. -/
def Link.withoutModule (m : Nat) (l : Link) : Link :=
  { l with waiting := l.waiting.filter (fun e => e.2.dst != m), rx := l.rx.filter (fun k => k.src != m),
           serving := l.serving.filter (fun e => e.1.src != m) }

/-- The error bank of the link toward a module, that of the fabric where there is none. -/
def State.bankToward (s : State) (m : Nat) : Nat :=
  match lookupN m s.domain.routes with
  | some w => 47 + fld w 0 4
  | none => 44

/-- The master of the time base is gone: the lowest-numbered surviving module takes over (15 R342). -/
def State.nextMaster (s : State) (m : Nat) : State :=
  if s.domain.master = some m then
    { s with domain := { s.domain with master :=
        (List.range (s.nmod + 1)).find? (fun k => k != m && !s.isRemoved k) } }
  else s

/-- A module is removed: its incarnation advances, its members depart at level 4, what was awaited of it is settled, and the driver
learns of it by the error bank toward it, with the MID and the incarnation that it rejoins under (log 27). -/
def State.removeModule (s : State) (mid : Nat) : State :=
  let inc := s.incOf mid + 1
  let s1 := { s with
    domain := { s.domain with removed := insertN mid inc s.domain.removed, incs := insertN mid inc s.domain.incs,
                              oldIncs := s.domain.oldIncs ++ [(mid, s.incOf mid)], sincs := s.domain.sincs.filter (fun e => e.1 / 8 != mid),
                              killTags := s.domain.killTags.filter (fun t => tagMod t != mid) },
    hearth := { s.hearth with reads := s.hearth.reads.map (HRead.withoutModule mid),
                              writes := s.hearth.writes.filter (fun e => tagMod e.1 != mid) },
    groups := s.groups.map (fun (b : BGroup) =>
      { b with remote := b.remote.map (fun (e : Nat × Nat) => if e.1 / 1024 = mid ∧ e.2 < 2 ^ 64 then (e.1, e.2 + 2 ^ 64) else e) }),
    links := s.links.map (Link.withoutModule mid) }
  let s2 := s1.mapCores (fun c => { c with units := { c.units with cmds := c.units.cmds.map (Cmd.withoutModule mid) } })
  (((((s2.markPaths mid true).crucibleWithout mid).nextMaster mid).settleGroups).logUe (s.bankToward mid) 0xFFFF 0 4
    (BitVec.ofNat 64 (mid * 65536 + inc.toNat))).hearthRun

/-- MODULE_REMOVAL. -/
def execModuleRemoval (mid : Nat) (s : State) : Host.Outcome State Fault Refusal :=
  enabledOr "MODULE_REMOVAL" (
    if mid = s.mid ∨ s.nmod < mid ∨ s.isRemoved mid then none else some (s.removeModule mid))

end Sys2Proof.Machine
end

