-- ==== Sys2Proof/Machine/Bringup.lean ====
section
/-! DEFINITION. Bring-up and the driver's configuration (15 R307 to R325, R330 to R336, R343; 17 R364, R366): the states of the
module, binding, bank roles, the weight-store load, launch-queue descriptors, namespaces, marks, and plain register writes. -/
namespace Sys2Proof.Machine
open Sys2Proof

def State.setM (s : State) (m : Regs0) : State := { s with regs := { s.regs with m := m } }

/-- MSTATE.STATE. -/
def State.mstate (s : State) : Nat := fld s.regs.m.mstate 0 4

/-! ### Limits derived from the caps (17 R364) -/

/-- B and ACL at an effective cap. -/
def limitsAt (cap : Nat) : Nat × Nat :=
  if 1680 ≤ cap then (1024 * (cap - 760) / 1840, 88) else (512, 88 * (cap - 760) / 920)

/-- PWR's BUDGET, ACL and CAPEFF follow the limiter's cap and the thermal cap. -/
def State.relimit (s : State) : State :=
  let cap := min (fld s.regs.lim.pwr 0 12) s.board.thermalCap
  let l := limitsAt cap
  let w := putFld (putFld (putFld s.regs.telem.pwr 41 11 l.1) 34 7 l.2) 12 12 cap
  { s with regs := { s.regs with telem := { s.regs.telem with pwr := w } } }

/-! ### Reset (R309; 16 R360, R361) -/

/-- A core after a reset: only its Lamport clock stays (05 R127). -/
def Core.cleared (c : Core) : Core := { Core.zero c.cnum with units := { Units.zero with lamport := c.units.lamport } }

/-- What a module reset keeps: memory with its poison and its bad frames, host memory, the board, stack incarnations, the clocks and
stamps of sc operations (05 R127), those of directory entries in the floors, and the generations of node slots (06 R162). -/
def State.resetModule (s : State) : State :=
  let s0 := s.memory.dir.foldl State.dropEntry s.hostFlush
  let r := State.reset
  let stackv := Vector.ofFn (fun (k : Fin 8) => { StackS.zero with inc := (s.stack k.val).inc, floor := (s0.stack k.val).floor })
  let s1 := { r with
    core := s.core.cleared, others := s.others.map Core.cleared,
    stackv := stackv,
    memory := { r.memory with mem := s0.memory.mem, poison := s.memory.poison, badFrames := s.memory.badFrames, heldReqs := s.memory.heldReqs,
                              hostStamp := s0.memory.hostStamp },
    crucible := { r.crucible with gens := s.crucible.gens },
    board := { s.board with booted := none, agreed := false, selfTest := false, thermalCap := 2600 },
    outward := s.outward, agenda := s.agenda, free := s.free }
  s1.relimit

/-- MODULE_RESET: from any state. -/
def execModuleReset (s : State) : Host.Outcome State Fault Refusal := .next s.resetModule

/-- MSTATE with STATE and FWERR. -/
def mstateWord (st fwerr : Nat) : Word := BitVec.ofNat 64 (st + fwerr * 16)

/-- The slot that boots (17 R366): verified, not below the floor, of the higher version. -/
def bootSlot (floor : Nat) (ok0 ok1 : Bool) (ver0 ver1 sec0 sec1 : Nat) : Option Nat :=
  let a := ok0 && decide (floor ≤ sec0)
  let b := ok1 && decide (floor ≤ sec1)
  if a && (!b || decide (ver1 ≤ ver0)) then some 0 else if b then some 1 else none

/-- A firmware slot as the boot ROM finds it: an image that an update wrote has the versions that came with it (17 R366), another those
that the event tells of. -/
def FwSlot.found (f : FwSlot) (ok : Bool) (ver sec : Nat) : FwSlot :=
  if f.present || !ok then f else { f with present := true, ver := ver, sec := sec }

/-- FWAUTH_DONE: RESET has passed into FWAUTH, the boot ROM has verified both slots (17 R366). -/
def execFwauthDone (ok0 ok1 : Bool) (ver0 ver1 sec0 sec1 : Nat) (s : State) : Host.Outcome State Fault Refusal :=
  enabledOr "FWAUTH_DONE" (
    if 2 ≤ s.mstate then none
    else
      let f0 := (vget s.board.fw 0 ⟨false, 0, 0, []⟩).found ok0 ver0 sec0
      let f1 := (vget s.board.fw 1 ⟨false, 0, 0, []⟩).found ok1 ver1 sec1
      let fw := vset (vset s.board.fw 0 f0) 1 f1
      let b := bootSlot s.board.floor (ok0 && f0.present) (ok1 && f1.present) f0.ver f1.ver f0.sec f1.sec
      let s1 := { s with board := { s.board with fw := fw, booted := b } }
      some (s1.setM { s.regs.m with mstate := if b.isSome then mstateWord 2 0 else mstateWord 15 1 }))

/-- MEMINIT_DONE: HBM is trained, the halves are tested, both ports are up. -/
def execMeminitDone (hbmOk selfOk : Bool) (halves : List (BitVec 192)) (s : State) : Host.Outcome State Fault Refusal :=
  enabledOr "MEMINIT_DONE" (
    if s.mstate ≠ 2 then none
    else if !hbmOk then some (s.setM { s.regs.m with mstate := mstateWord 15 2 })
    else if !selfOk then some (s.setM { s.regs.m with mstate := mstateWord 15 3 })
    else
      let stackv := Vector.ofFn (fun (k : Fin 8) => { s.stack k.val with half := halves.getD k.val 0 })
      let s1 := { s with stackv := stackv, board := { s.board with portUp := Vector.replicate 2 true, selfTest := true } }
      some ((s1.setM { s.regs.m with mstate := mstateWord 3 0 }).serveHeld))

/-- Two ranges of bytes share one. -/
def rangesMeet (a b : Nat × Nat) : Bool :=
  decide (0 < a.2) && decide (0 < b.2) && decide (a.1 < b.1 + b.2) && decide (b.1 < a.1 + a.2)

/-- The index region and the tiers. -/
def State.storeRanges (s : State) : List (Nat × Nat) :=
  [(fld s.regs.m.cridx 32 20 * 2 ^ 32, 2 ^ 32), (fld s.regs.m.crhbm 30 22 * 2 ^ 30, fld s.regs.m.crhbm 52 12 * 2 ^ 30),
   (fld s.regs.m.crcxl 30 22 * 2 ^ 30, fld s.regs.m.crcxl 52 12 * 2 ^ 33)]

/-- The code of R310's first failure, 0 for none; no tier may name a bad frame (16 R358). -/
def State.goCheck (s : State) : Nat :=
  let m := s.regs.m
  let rs := s.storeRanges
  if !s.stackv.toList.all (fun k => k.slab.toList.all (fun e => e.getLsbD 15)) then 1
  else if fld m.asidtb 15 37 = 0 then 2
  else if !m.cridx.getLsbD 0 || fld m.crhbm 52 12 == 0 || fld m.nstb 16 36 == 0 ||
      rs.zipIdx.any (fun a => rs.zipIdx.any (fun b => decide (a.2 < b.2) && rangesMeet a.1 b.1)) ||
      s.memory.badFrames.any s.tierFrame then 3
  else if s.nmod < s.mid ∨ s.links.toList.any (fun l => l.en && l.state != 2) then 4
  else 0

/-- A write of GO = 1 (R310), acting in CONFIG only. -/
def State.go (s : State) : State :=
  if s.mstate ≠ 3 then s
  else
    let e := s.goCheck
    if e = 0 then (s.setM { s.regs.m with mstate := mstateWord 4 0 }).hearthRun
    else s.setM { s.regs.m with mstate := BitVec.ofNat 64 (e * 256 + 3) }

/-- MSTATE_GO. -/
def execMstateGo (s : State) : Host.Outcome State Fault Refusal := .next s.go

/-! ### Module registers with checks -/

/-- HCFG (R308, R323): an AGE outside 10 to 10,000 is refused; AGE governs from the next boundary. -/
def State.writeHcfg (s : State) (v : Word) : State :=
  let age := fld v 16 14
  if age < 10 ∨ 10000 < age then s
  else (s.setM { s.regs.m with hcfg := v &&& 0x800000003FFF0000 }).hearthRun

def execHcfgWrite (v : Word) (s : State) : Host.Outcome State Fault Refusal := .next (s.writeHcfg v)

/-- A cached translation that a shootdown names. -/
def shotDown (a v : Word) (t : Tlb) : Bool :=
  let va := fld a 16 40 * 65536
  let asid : BitVec 12 := a.extractLsb' 0 12
  v.getLsbD 62 || (t.asid == asid && (v.getLsbD 61 || rangesMeet (t.va, 2 ^ t.log) (va, fld v 0 32 * 65536)))

def State.dropTlb (s : State) (p : Tlb → Bool) : State :=
  { s with memory := { s.memory with tlb := s.memory.tlb.filter (fun t => !p t) } }

/-- A write of SHOOTB (R330); ignored while BUSY. -/
def State.shoot (s : State) (v : Word) : State :=
  if s.regs.m.shootb.getLsbD 63 then s
  else (s.setM { s.regs.m with shootb := (v &&& 0x60000000FFFFFFFF) ||| 0x8000000000000000 }).dropTlb (shotDown s.regs.m.shoota v)

def execShootdown (v : Word) (s : State) : Host.Outcome State Fault Refusal := .next (s.shoot v)

/-- The ASIDs under which a core writes: of its task and of the context that it keeps. -/
def Core.asids (c : Core) : List (BitVec 12) := (c.task.toList ++ (c.drv.saved.toList.map (fun v => v.task))).map (fun t => t.asid)

/-- A write, by its core and its virtual line, used a translation that the shootdown names. -/
def State.shotWrite (s : State) (v : Word) (w : Nat × Nat) : Bool :=
  s.cores.any (fun c => c.cnum == w.1 && c.asids.any (fun a => shotDown s.regs.m.shoota v ⟨a, w.2 * 128, 7, 0⟩))

/-- The lines checked out that such writes reached, by agent: not performed at .pk yet. -/
def State.shotLines (s : State) (v : Word) : List (Nat × Nat) :=
  (s.memory.lines.filter (fun l => l.out && l.wrote.any (s.shotWrite v))).map (fun l => (l.agent, l.line))

/-- A fan-out runs that performs such a write. -/
def State.shotFans (s : State) (v : Word) : Bool :=
  s.memory.dir.any (fun d => d.fan.any (fun f => f.wrote.any (s.shotWrite v)))

/-- Other modules have answered every access: of commands, and of Hearth. -/
def State.remoteQuiet (s : State) : Bool :=
  s.hearth.writes.isEmpty && s.hearth.reads.all (fun r => r.asks.isEmpty) &&
  s.cores.all (fun c => c.units.cmds.all (fun k => k.awaited.isEmpty && !s.fansRun k.fans))

/-- SHOOTDOWN_DONE: accesses under old translations are performed at .pk or acknowledged: lines that they wrote are checked in first,
and their fan-outs end. -/
def execShootdownDone (s : State) : Host.Outcome State Fault Refusal :=
  enabledOr "SHOOTDOWN_DONE" (
    let v := s.regs.m.shootb
    let ls := s.shotLines v
    if !v.getLsbD 63 then none
    else if !ls.isEmpty then
      (if ls.any (fun l => s.frameBusy (l.2 * 128)) then none else some (ls.foldl (fun s l => s.checkIn l.1 l.2 false) s))
    else if s.shotFans v || !s.remoteQuiet then none
    else some ((s.setM { s.regs.m with shootb := 0 }).dropTlb (shotDown s.regs.m.shoota v)))

/-- A write of OVLINV (R324): matching pages go, those in use when their task retires. -/
def State.ovlInvalidate (s : State) (p : Overlay → Bool) : State :=
  let s1 := s.mapCores (fun c => { c with ovl := (c.ovl.filter (fun o => !(p o && !o.inUse))).map (fun o => if p o then { o with doomed := true } else o) })
  (s1.setM { s1.regs.m with ovlinv := 0x8000000000000000 }).ovlSettle

def execOvlinvByIdent (s : State) : Host.Outcome State Fault Refusal := .next (s.ovlInvalidate (fun o => o.ident == s.regs.m.ovlid))
def execOvlinvByAsid (asid : BitVec 12) (s : State) : Host.Outcome State Fault Refusal := .next (s.ovlInvalidate (fun o => o.asid == asid))
def execOvlinvAll (s : State) : Host.Outcome State Fault Refusal := .next (s.ovlInvalidate (fun _ => true))

/-- CRMARK (R332). -/
def State.writeCrmark (s : State) (v : Word) : State :=
  if markLow v < markHigh v ∧ markHigh v ≤ markBreak v ∧ markBreak v ≤ 1024 ∧ markCxl v ≤ 1024 then
    (s.setM { s.regs.m with crmark := v &&& 0xFFFFFFFFFFF }).reclaimTest
  else s

def execCrmarkWrite (v : Word) (s : State) : Host.Outcome State Fault Refusal := .next (s.writeCrmark v)

/-- HLCCFG (R336): clearing EN writes every line back and drops it. -/
def State.writeHlccfg (s : State) (v : Word) : State :=
  let s1 := if v.getLsbD 0 then s else s.hostFlush
  s1.setM { s1.regs.m with hlccfg := v &&& 1 }

def execHlccfgWrite (v : Word) (s : State) : Host.Outcome State Fault Refusal := .next (s.writeHlccfg v)

/-- ZADMIT (R343): the module is admitted at the incarnation. -/
def State.readmit (s : State) (v : Word) : State :=
  if !v.getLsbD 63 then s
  else
    let m := fld v 0 8
    let s1 := { s with domain := { s.domain with
      removed := eraseN m s.domain.removed, incs := insertN m (v.extractLsb' 8 16) s.domain.incs } }
    s1.markPaths m false

def execZadmit (v : Word) (s : State) : Host.Outcome State Fault Refusal := .next (s.readmit v)

/-! ### Namespaces (R333) -/

/-- The rights table at a physical address. -/
def State.readRights (s : State) (pa : Nat) : List (BitVec 4) :=
  (s.homeRead pa 2048).flatMap (fun b => [b.extractLsb' 0 4, b.extractLsb' 4 4])

/-- A descriptor as read from its slot. -/
def State.readNs (s : State) (slot : Nat) : List Byte := s.homeRead (fld s.regs.m.nstb 16 36 * 65536 + 64 * slot) 64

/-- The namespace that a descriptor asks for. -/
def State.nsOf (s : State) (slot : Nat) (d : List Byte) : NSpace :=
  { slot := slot, ns := BitVec.ofNat 64 (numAt d 0 8), bt := numAt d 8 1, ef := numAt d 9 1, nlayer := numAt d 10 2, kvh := numAt d 12 1,
    hd := numAt d 13 1, temper := decide (numAt d 14 1 % 2 = 1), krmax := numAt d 15 1, kabs := BitVec.ofNat 32 (numAt d 16 4),
    krel := BitVec.ofNat 32 (numAt d 20 4), hreg := BitVec.ofNat 64 (numAt d 24 8), hlen := BitVec.ofNat 64 (numAt d 32 8),
    rights := s.readRights (numAt d 40 8) }

/-- Tables 6.1 and 15.13. -/
def nsParamOk (p : NSpace) (d : List Byte) : Bool :=
  (p.bt == 16 || p.bt == 32 || p.bt == 64) && (p.ef == 8 || p.ef == 10 || p.ef == 11 || p.ef == 0) &&
  decide (1 ≤ p.nlayer) && decide (p.nlayer ≤ 512) && decide (1 ≤ p.kvh) && decide (p.kvh ≤ 64) && (p.hd == 64 || p.hd == 128) &&
  decide (numAt d 14 1 < 2) && decide (1 ≤ p.krmax) && decide (p.krmax ≤ 32) && okTol (p.krel ++ p.kabs) && decide (p.payload ≤ 65536) &&
  zeroAt d 48 16

/-- The header region is large enough and lies in no tier. -/
def State.nsRegionOk (s : State) (p : NSpace) : Bool :=
  decide (p.hreg.toNat % 65536 = 0) && decide (p.hlen.toNat % 65536 = 0) && decide (512 * p.nlayer * 1024 ≤ p.hlen.toNat) &&
  (s.storeRanges.drop 1).all (fun r => !rangesMeet r (p.hreg.toNat, p.hlen.toNat))

/-- The home of the descriptor and of the rights table that it names can be read now. -/
def State.nsFree (s : State) (slot : Nat) : Bool :=
  s.homeFree (fld s.regs.m.nstb 16 36 * 65536 + 64 * slot) 64 && s.homeFree (numAt (s.readNs slot) 40 8) 2048

/-- The lines that a command reads enter their home slices (05 R375). -/
def State.nsTouch (s : State) (slot : Nat) : State :=
  ((s.homeFetch (fld s.regs.m.nstb 16 36 * 65536 + 64 * slot) 64).2.homeFetch (numAt (s.readNs slot) 40 8) 2048).2

/-- NSCMD with STATUS. -/
def State.nsStatus (s : State) (k : Nat) : State := s.setM { s.regs.m with nscmd := BitVec.ofNat 64 (k * 2 ^ 56) }

def State.nsAt (s : State) (slot : Nat) : Option NSpace := s.crucible.spaces.find? (fun p => p.slot == slot)

/-- OP = 1. -/
def State.nsMake (s0 : State) (slot : Nat) : State :=
  let s := s0.nsTouch slot
  let d := s.readNs slot
  let p := s.nsOf slot d
  if !nsParamOk p d then s.nsStatus 1
  else if p.ns = 0 ∨ (s.space p.ns).isSome then s.nsStatus 2
  else if !s.nsRegionOk p then s.nsStatus 1
  else if (s.nsAt slot).isSome then s.nsStatus 4
  else State.nsStatus { s with crucible := { s.crucible with spaces := s.crucible.spaces ++ [p] } } 0

/-- OP = 2. -/
def State.nsDrop (s : State) (slot : Nat) : State :=
  match s.nsAt slot with
  | none => s.nsStatus 5
  | some p =>
    let ns := s.crucible.nodes.filter (fun n => n.ns == p.ns)
    if ns.any (fun n => n.st == .opened || n.st == .sealing || n.refCount != 0 || !n.pins.isEmpty || !n.evictPins.isEmpty) then s.nsStatus 3
    else
      let s1 := ns.foldl (fun (s : State) n => s.evict n) s
      (State.nsStatus { s1 with crucible := { s1.crucible with spaces := s1.crucible.spaces.filter (fun q => q.slot != slot) } } 0).reclaimTest

/-- OP = 3. -/
def State.nsGrant (s : State) (slot : Nat) : State :=
  match s.nsAt slot with
  | none => s.nsStatus 5
  | some p =>
    let r := s.readRights (numAt (s.readNs slot) 40 8)
    let s := s.nsTouch slot
    State.nsStatus { s with crucible := { s.crucible with spaces := s.crucible.spaces.map (fun q => if q.slot = p.slot then { q with rights := r } else q) } } 0

/-- The command under way: OP and SLOT stand in NSCMD while BUSY. -/
def State.nsOp (s : State) : Nat := fld s.regs.m.nscmd 60 3
def State.nsSlot (s : State) : Nat := fld s.regs.m.nscmd 0 10

/-- The command under way can be carried out: it reads nothing, or no line that it reads fans out (05 R133). -/
def State.nsDue (s : State) : Bool := s.regs.m.nscmd.getLsbD 63 && (s.nsOp == 2 || s.nsFree s.nsSlot)

/-- Carries the command under way out: BUSY clears with its STATUS. -/
def State.nsRun (s : State) : State :=
  if s.nsOp = 1 then s.nsMake s.nsSlot
  else if s.nsOp = 2 then s.nsDrop s.nsSlot
  else s.nsGrant s.nsSlot

/-- A write of NSCMD starts a command, unless one runs (log 28); it ends at once where its lines can be read. -/
def State.nsStart (s : State) (op slot : Nat) : State :=
  if s.regs.m.nscmd.getLsbD 63 then s
  else
    let s1 := s.setM { s.regs.m with nscmd := BitVec.ofNat 64 (2 ^ 63 + op * 2 ^ 60 + slot % 1024) }
    if s1.nsDue then s1.nsRun else s1

def execNsCreate (slot : Nat) (s : State) : Host.Outcome State Fault Refusal := .next (s.nsStart 1 slot)
def execNsDestroy (slot : Nat) (s : State) : Host.Outcome State Fault Refusal := .next (s.nsStart 2 slot)
def execNsRights (slot : Nat) (s : State) : Host.Outcome State Fault Refusal := .next (s.nsStart 3 slot)

/-! ### Launch-queue descriptors (R318) -/

/-- Writable fields of LQ3: EN, DEVP, OSTK, ASID. -/
abbrev lq3Mask : Word := 0xC7FFF00000000000

/-- A write of LQ3. The other fields change only while EN = 0; ASID 0 may not be named (R326). -/
def State.writeLq3 (s : State) (q : Nat) (v : Word) : State :=
  let k := s.queue q
  let clear (w : Word) : Word := if v.getLsbD 61 then putFld w 32 4 0 else w
  if k.on then
    if v.getLsbD 63 then s
    else ((s.endRead (.words q)).endRead (.record q)).setQueue q { k with lq3 := clear (putFld k.lq3 63 1 0), sync := false }
  else if fld v 44 12 = 0 ∧ v.getLsbD 63 then s
  else
    let k1 := { k with lq3 := clear (merge k.lq3 v lq3Mask) }
    let s1 := s.setQueue q k1
    if v.getLsbD 63 then s1.syncQueue q else s1

/-- RST = 1 on a stopped queue: STOPC clears, the words are read again. -/
def State.restartQueue (s : State) (q : Nat) : State :=
  let k := s.queue q
  if k.stopc = 0 then s
  else
    let k1 := { k with lq3 := putFld k.lq3 32 4 0 }
    (s.setQueue q k1).syncQueue q

def execLqEnable (q : Nat) (v : Word) (s : State) : Host.Outcome State Fault Refusal :=
  .next (s.writeLq3 q (v ||| 0x8000000000000000))
def execLqDisable (q : Nat) (v : Word) (s : State) : Host.Outcome State Fault Refusal :=
  .next (s.writeLq3 q (v &&& 0x7FFFFFFFFFFFFFFF))
def execLqRestart (q : Nat) (s : State) : Host.Outcome State Fault Refusal := .next (s.restartQueue q)

/-- LQ0 to LQ2, while EN = 0; a LOGN outside 4 to 16 is refused. -/
def State.writeLq (s : State) (q k : Nat) (v : Word) : State :=
  let d := s.queue q
  if k = 3 then (if v.getLsbD 61 && d.on && v.getLsbD 63 then s.restartQueue q else s.writeLq3 q v)
  else if d.on then s
  else match k with
    | 0 => if fld v 0 5 < 4 ∨ 16 < fld v 0 5 then s else s.setQueue q { d with lq0 := v &&& 0x00FFFFFFFFFFF01F }
    | 1 => s.setQueue q { d with lq1 := v &&& 0x00FFFFFFFFFFFFF8 }
    | _ => s.setQueue q { d with lq2 := v &&& 0x00FFFFFFFFFFFFF8 }

/-! ### Slabs and binding (R311 to R313; 16 R359) -/

/-- Half-B site of a slab entry; none outside 0 to 95 or for BDIR = 0b11. -/
def siteB (v : Word) : Option Nat :=
  let s := fld v 0 7
  match fld v 13 2 with
  | 0 => if s < 96 then some s else none
  | 1 => if s + 1 < 96 then some (s + 1) else none
  | 2 => if 0 < s ∧ s < 97 then some (s - 1) else none
  | _ => none

/-- SSTAT.ERR. -/
def State.sstat (s : State) (stk code : Nat) : State := s.setStack stk { s.stack stk with sstat := BitVec.ofNat 64 code }

/-- CBINDs of a stack that bind a front end. -/
def StackS.bound (st : StackS) : List Word := st.cbind.toList.filter (fun w => fld w 30 2 != 0)
/-- The slab is a member of some binding. -/
def StackS.inUse (st : StackS) (i : Nat) : Bool := st.bound.any (fun w => (List.range (gwOf w)).any (fun g => memberOf w g == i))

/-- The code of R312's first failure, 0 for none. -/
def slabCheck (st : StackS) (i : Nat) (v : Word) : Nat :=
  let a := fld v 0 7
  match siteB v with
  | none => 1
  | some b =>
    if 96 ≤ a then 1
    else if !st.half.getLsbD (2 * a) || !st.half.getLsbD (2 * b + 1) then 2
    else if st.slab.toList.zipIdx.any (fun e => e.2 != i && e.1.getLsbD 15 && (fld e.1 0 7 == a || siteB e.1 == some b)) then 3
    else
      let c := i / 8
      let lo := 8 * c
      let hi := min (8 * c + 15) 95
      if a < lo ∨ hi < a ∨ b < lo ∨ hi < b then 4
      else if st.inUse i then 3
      else 0

/-- A write of a slab entry. -/
def State.writeSlab (s : State) (stk i : Nat) (v : Word) : State :=
  let st := s.stack stk
  let e := slabCheck st i v
  if e ≠ 0 then s.sstat stk e
  else s.setStack stk { st with slab := vset st.slab i (BitVec.ofNat 64 (fld v 0 7 + i % 8 * 1024 + fld v 13 3 * 8192)), sstat := 0 }

def execSlabEntryWrite (stk i : Nat) (v : Word) (s : State) : Host.Outcome State Fault Refusal := .next (s.writeSlab stk i v)

/-- The core of a front end, if it was ever bound. -/
def State.coreOf (s : State) (stk f : Nat) : Option Core := s.cores.find? (fun c => c.cnum == stk * 112 + f)

/-- CBIND.BUSY: a task is dispatched or retiring, or a context is parked (16 R354). -/
def Core.bindBusy (c : Core) : Bool := c.task.isSome || c.drv.saved.isSome || c.cstate != 0

/-- The code of R313's first failure for a binding, 0 for none; in the stack FRONT of the members of the old binding is as that left it
(15 Table 15.4). -/
def bindCheck (st : StackS) (f : Nat) (v : Word) : Nat :=
  let gs := gwOf v
  let ms := (List.range gs).map (memberOf v)
  let b := 92 * f / 111
  let ent (m : Nat) : Word := vget st.slab m 0
  let near (s : Nat) : Bool := decide (b ≤ s) && decide (s ≤ b + 3)
  if gs = 0 then 0
  else if ms.any (fun m => decide (88 ≤ m) || !(ent m).getLsbD 15) || ms.zipIdx.any (fun a => ms.zipIdx.any (fun c => a.2 != c.2 && a.1 == c.1)) then 1
  else if st.cbind.toList.zipIdx.any (fun e => e.2 != f && fld e.1 30 2 != 0 && ms.any (fun m => (List.range (gwOf e.1)).any (fun g => memberOf e.1 g == m))) then 3
  else if ms.any (fun m => m / 8 != memberOf v 0 / 8) then 7
  else if ms.any (fun m => !near (fld (ent m) 0 7) || !(siteB (ent m)).any near) then 6
  else if ms.any (fun m => vget st.srole m 0 != vget st.srole (memberOf v 0) 0 || vget st.spair m 0 != vget st.spair (memberOf v 0) 0) then 8
  else if (List.range 4).any (fun g => decide (gs ≤ g) && memberOf v g != 0) then 1
  else 0

/-- FRONT of the members returns to their SPAIR registers when a binding ends. -/
def frontBack (c : Core) (st : StackS) (w : Word) : StackS :=
  (List.range (gwOf w)).foldl (fun (st : StackS) g =>
    { st with spair := vset st.spair (memberOf w g) (putFld (vget st.spair (memberOf w g) 0) 16 16 (vget c.phase.front g 0).toNat) }) st

/-- The core that a binding forms; its clock is not behind that of its stack and of the core in focus. -/
def bindCore (now : Nat) (c : Core) (st : StackS) (w : Word) : Core :=
  { c with g := gwOf w, regs := { c.regs with rf := [], bank := [] },
           phase := { c.phase with front := Vector.ofFn (fun (g : Fin 4) =>
             if g.val < gwOf w then (vget st.spair (memberOf w g.val) 0).extractLsb' 16 16 else 0) },
           front := { c.front with clock := max now (max c.front.clock st.clock) } }

/-- A write of CBIND f (R313). -/
def State.writeCbind (s : State) (stk f : Nat) (v : Word) : State :=
  let st := s.stack stk
  let old := vget st.cbind f 0
  let new := v &&& 0x80000000CFFFFFFF
  let id := stk * 112 + f
  let put (s : State) : State := s.setStack stk { s.stack stk with cbind := vset (s.stack stk).cbind f new, sstat := 0 }
  if (old &&& 0xCFFFFFFF) = (new &&& 0xCFFFFFFF) then
    let s1 := put s
    (if new.getLsbD 63 then s1.atCore id State.releaseParked else s1).hearthRun
  else if !old.getLsbD 63 || (s.coreOf stk f).any Core.bindBusy then s.sstat stk 5
  else
    let e := bindCheck (frontBack ((s.coreOf stk f).getD (Core.zero id)) st old) f new
    if e ≠ 0 then s.sstat stk e
    else
      let c := (s.coreOf stk f).getD (Core.zero id)
      let s1 := put s
      let s2 := s1.setStack stk (frontBack c (s1.stack stk) old)
      let c' := bindCore s2.core.front.clock c (s2.stack stk) new
      let s3 := if s.cores.any (fun k => k.cnum == id) then s2.mapCores (fun k => if k.cnum = id then c' else k)
        else { s2 with others := s2.others ++ [c'] }
      s3.hearthRun

def execCbindWrite (stk f : Nat) (v : Word) (s : State) : Host.Outcome State Fault Refusal := .next (s.writeCbind stk f v)

/-! ### Bank roles (R314, R315) -/

def roleAt (w : Word) (n : Nat) : Nat := fld w (2 * n) 2

/-- Roles that leave a slab fewer than two cache-role banks (R314). -/
def fewCache (roles : Word) : Bool := decide (((List.range 32).filter (fun n => roleAt roles n == 0)).length < 2)

/-- R314 refuses a role word beside the pairs of the slab. -/
def badRoles (old new : Word) (pairs : Word) : Bool :=
  fewCache new ||
  (List.range 32).any (fun n => pairs.getLsbD (n / 2) && roleAt old n != roleAt new n)

/-- R314 refuses pairs of banks that lack the scratchpad role, and any pairs of a slab left with fewer than two cache-role banks. -/
def badPairs (roles pairs : Word) : Bool :=
  fewCache roles ||
  (List.range 16).any (fun j => pairs.getLsbD j && (roleAt roles (2 * j) != 1 || roleAt roles (2 * j + 1) != 1))

/-- A write of SROLE i or SPAIR i. -/
def State.writeRoles (s : State) (stk i : Nat) (pairs : Bool) (v : Word) : State :=
  let st := s.stack stk
  let role := vget st.srole i 0
  let pair := vget st.spair i 0
  if pair.getLsbD 32 then s
  else if st.inUse i then s.sstat stk 3
  else if pairs then
    if badPairs role v then s.sstat stk 8
    else
      let set := fld v 0 16
      let newly : Word := BitVec.ofNat 64 set &&& ~~~pair
      let front := (pair.extractLsb' 16 16) &&& ~~~(newly.extractLsb' 0 16)
      s.setStack stk { st with spair := vset st.spair i (BitVec.ofNat 64 (front.toNat * 65536 + set)), sstat := 0 }
  else if badRoles role v pair then s.sstat stk 8
  else if (List.range 32).any (fun n => roleAt role n == 0 && roleAt v n != 0) then
    s.setStack stk { st with spair := vset st.spair i (putFld pair 32 1 1), drains := st.drains ++ [(i, v)], sstat := 0 }
  else s.setStack stk { st with srole := vset st.srole i v, sstat := 0 }

def execBankRoleWrite (stk i : Nat) (pairs : Bool) (v : Word) (s : State) : Host.Outcome State Fault Refusal := .next (s.writeRoles stk i pairs v)

/-- ROLE_DRAIN_DONE: the cluster's agent gives its lines up, then the roles change. -/
def execRoleDrainDone (stk i : Nat) (s : State) : Host.Outcome State Fault Refusal :=
  enabledOr "ROLE_DRAIN_DONE" (match lookupN i (s.stack stk).drains with
    | none => none
    | some v =>
      let ag := 11 * stk + i / 8
      let ls := s.memory.lines.filter (fun l => l.agent == ag)
      if ls.any (fun l => s.frameBusy (l.line * 128)) then none
      else
        let s1 := ls.foldl (fun (s : State) l => if l.out then s.checkIn ag l.line false else s.dropLine ag l.line) s
        let st := s1.stack stk
        some (s1.setStack stk { st with srole := vset st.srole i v, spair := vset st.spair i (putFld (vget st.spair i 0) 32 1 0),
                                        drains := st.drains.filter (fun e => e.1 != i) }))

/-! ### The weight store (R317) -/

/-- WSGATE.IDLE: no core of the stack has a task, no weight-store access is in flight. -/
def State.wsIdle (s : State) (stk : Nat) : Bool :=
  s.cores.all (fun c => c.stk != stk || (c.task.isNone && c.units.cmds.isEmpty && c.units.anvil.isEmpty)) && !(s.stack stk).wslen.getLsbD 63

/-- WSLEN with BUSY, STAT and LEN. -/
def wslenWord (busy stat len : Nat) : Word := BitVec.ofNat 64 (busy * 2 ^ 63 + stat * 2 ^ 60 + len)

/-- A write of WSLEN: the copy runs between the addresses that the registers hold now. -/
def State.loadWs (s : State) (stk : Nat) (v : Word) : State :=
  let st := s.stack stk
  let len := fld v 6 26 * 64
  let dst := fld st.wsdst 6 26 * 64
  if st.wslen.getLsbD 63 then s
  else if !s.wsIdle stk then s.setStack stk { st with wslen := wslenWord 0 1 0 }
  else if len = 0 ∨ 0xC0000000 < dst + len then s.setStack stk { st with wslen := wslenWord 0 2 0 }
  else s.setStack stk { st with wslen := wslenWord 1 0 0, wsjob := some (fld st.wssrc 6 46 * 64, dst, len) }

def execWsLoad (stk : Nat) (v : Word) (s : State) : Host.Outcome State Fault Refusal := .next (s.loadWs stk v)

/-- What a system copy engine reads at a physical address (16 R362): device memory, or the host's through the DMA windows; none
elsewhere (log 44). -/
def State.engineRead (s : State) (src len : Nat) : Option (List Byte × State) :=
  if s.paOk src && s.paOk (src + len - 1) then some (s.homeFetch src len)
  else if (lineParts src len).all (fun l => s.dmaOk (l.1 * 128)) then
    some ((lineParts src len).flatMap (fun l => s.hostBytes l.1 l.2.1 l.2.2), s)
  else none

/-- WS_LOAD_DONE: the bytes are copied; after an uncorrectable error in the source every byte of the range is a free value, and a
copy that the limiter aborts writes nothing and ends with RANGE (log 12). -/
def execWsLoadDone (stk : Nat) (ue : Bool) (s : State) : Host.Outcome State Fault Refusal :=
  enabledOr "WS_LOAD_DONE" (
    let st := s.stack stk
    match st.wsjob with
    | none => none
    | some (src, dst, len) =>
      match s.engineRead src len with
      | none => some (s.setStack stk { st with wslen := wslenWord 0 2 0, wsjob := none })
      | some (bytes, s1) =>
        if s.paOk src && !s.homeFree src len then none
        else if ue || s.poisoned src len then
          let bs := (List.range len).map (Config.freeByte s.free)
          some { s1.setStack stk { st with ws := st.ws.setN dst bs, wslen := wslenWord 0 3 0, wsjob := none } with free := s.free + 1 }
        else some (s1.setStack stk { st with ws := st.ws.setN dst bytes, wslen := wslenWord 0 0 0, wsjob := none }))

/-! ### Registers without a row of their own (R307, R308) -/

/-- The driver re-forms the domain: with every core idle, the clocks and stamps of sc operations are zero again (05 R127). -/
def State.reformed (s : State) : State :=
  if s.cores.any (fun c => c.task.isSome || c.drv.saved.isSome) then s
  else
    let s1 := s.mapCores (fun c => { c with units := { c.units with lamport := 0 } })
    { s1 with
      stackv := s1.stackv.map (fun (st : StackS) => { st with floor := (0, 0) }),
      memory := { s1.memory with
        hostStamp := (0, 0), host := s1.memory.host.map (fun (l : HLine) => { l with stamp := (0, 0) }),
        dir := s1.memory.dir.map (fun (d : DirEntry) => { d with stamp := (0, 0) }) } }

/-- A write of DOMAIN in CONFIG: MID, NMOD, INC, and whether this module masters the time base (R342). -/
def State.writeDomain (s : State) (v : Word) : State :=
  let w := v &&& 0x8000FFFF00FF00FF
  let own := s.domain.master == some (fld s.regs.m.domain 0 8) || s.domain.master == some (fld w 0 8)
  let master := if w.getLsbD 63 then some (fld w 0 8) else if own then none else s.domain.master
  State.reformed { s.setM { s.regs.m with domain := w } with domain := { s.domain with master := master } }

/-- Module registers (Table 15.2, Table 16.4); those of the domain change only in CONFIG. -/
def State.writeModule (s : State) (off : Nat) (v : Word) : State :=
  let m := s.regs.m
  let ev := s.regs.ev
  let cfg (m : Regs0) : State := if s.mstate = 3 then s.setM m else s
  let setEv (e : EvRegs) : State := { s with regs := { s.regs with ev := e } }
  match off with
  | 0x010 => cfg { m with asidtb := v &&& 0x000FFFFFFFFF8000 }
  | 0x018 => s.setM { m with shoota := v &&& 0x00FFFFFFFFFF0FFF }
  | 0x028 => s.setM { m with ovlid := v }
  | 0x038 => cfg { m with chtb := v &&& 0x000FFFFFFFFF0000 }
  | 0x040 => cfg { m with cridx := v &&& 0x000FFFFF00000001 }
  | 0x048 => if fld v 52 12 = 0 ∨ 576 < fld v 52 12 then s else cfg { m with crhbm := v &&& 0xFFFFFFFFC0000000 }
  | 0x050 => if 2048 < fld v 52 12 then s else cfg { m with crcxl := v &&& 0xFFFFFFFFC0000000 }
  | 0x060 => cfg { m with nstb := v &&& 0x000FFFFFFFFF0000 }
  | 0x070 => if s.mstate = 3 then s.writeDomain v else s
  | 0x0C0 => setEv { ev with evbase := v &&& 0x000FFFFFFFFFF000 }
  | 0x0C8 =>
    let c := if v.getLsbD 63 then putFld ev.evctl 63 1 0 else ev.evctl
    let log := fld v 0 4
    setEv { ev with evctl := if ev.evtail = ev.evhead ∧ 6 ≤ log then putFld c 0 4 log else c }
  | 0x0E0 => if ev.kill.getLsbD 62 then s else setEv { ev with kill := v &&& 0xFFF }
  | 0x0E8 => setEv { ev with freto := v &&& 0x000FFFFFFFFF0000 }
  | 0x0F0 => if ev.fretn.getLsbD 61 then s else setEv { ev with fretn := merge ev.fretn v 0x000FFFFFFFFF0000 }
  | 0x0F8 => setEv { ev with badfl := v &&& 0x1FF }
  | _ => s

/-- Stack registers without a row of their own: WSGATE.CLOSED, WSSRC, WSDST. -/
def State.writeStack (s : State) (stk off : Nat) (v : Word) : State :=
  let st := s.stack stk
  match off with
  | 0x2000 => (s.setStack stk { st with wsgate := putFld st.wsgate 0 1 (fld v 0 1) }).hearthRun
  | 0x2010 => s.setStack stk { st with wssrc := v &&& 0x000FFFFFFFFFFFC0 }
  | 0x2018 => s.setStack stk { st with wsdst := v &&& 0x00000000FFFFFFC0 }
  | _ => s

/-- Core registers: those of Table 7.10 while the core has no task, and CADDR. -/
def State.writeCore (s : State) (n : Nat) (v : Word) : State :=
  let c := s.core
  if n = 0x802 then { s with core := { c with drv := { c.drv with caddr := v &&& 0x000FFFFFFFFFC000 } } }
  else if c.task.isSome ∨ !cregWritable n ∨ !s.cregOk n (v &&& cregMask n) then s
  else if n < 2 then { s with core := c.setLate (BitVec.ofNat 12 n) (v &&& cregMask n) }
  else if 0x010 ≤ n ∧ n ≤ 0x017 then { s with core := c.setRing (BitVec.ofNat 3 (n - 0x010)) (ringOfWord v true) }
  else { s with core := c.writeCtl n v }

/-- A plain register write by BAR 0 offset; an unaligned or unassigned one is ignored. EN of link n is bit 0 of its first
register (log 22). -/
def State.writeReg (s : State) (off : Nat) (v : Word) : State :=
  if off % 8 ≠ 0 then s
  else if off < 0x1000 then s.writeModule off v
  else if 0x10000 ≤ off ∧ off < 0x12000 then s.writeLq ((off - 0x10000) / 32) (off / 8 % 4) v
  else if 0x100000 ≤ off ∧ off < 0x180000 then s.writeStack ((off - 0x100000) / 0x10000) (off % 0x10000) v
  else if 0x200000 ≤ off ∧ off < 0x200400 then
    if off % 64 = 0 ∧ !v.getLsbD 0 then s.setLink ((off - 0x200000) / 64) { s.link ((off - 0x200000) / 64) with en := false, state := 0 } else s
  else if 0x1000000 ≤ off ∧ off < 0x1000000 + 0x8000 * 896 then
    let c := (off - 0x1000000) / 0x8000
    (s.withCore c).atCore c (fun s => s.writeCore (off / 8 % 0x1000) v)
  else s

/-- REGISTER_WRITE (R307). -/
def execRegisterWrite (off : Nat) (v : Word) (s : State) : Host.Outcome State Fault Refusal := .next (s.writeReg off v)

end Sys2Proof.Machine
end

