-- ==== Sys2Proof/Machine/Links.lean ====
section
/-! DEFINITION. Zilash links (15 R337 to R343): training, routes, flits received, control flits, and the messages of each class
as they are handled (05 R134, R135; 02 R44, R50; 06 R160). -/
namespace Sys2Proof.Machine
open Sys2Proof

/-! ### Training and routes (R340, R341) -/

/-- LINK_ENABLE: training starts on a link that the limiter allows (16 R362). -/
def execLinkEnable (n : Nat) (s : State) : Host.Outcome State Fault Refusal :=
  let l := s.link n
  .next (if l.en then s else s.setLink n { l with en := true, state := if s.regs.lim.lnk.getLsbD n then 1 else 0 })

/-- A module's incarnation is one under which it was removed. -/
def State.staleInc (s : State) (m : Nat) (inc : BitVec 16) : Bool := s.domain.oldIncs.contains (m, inc)

/-- The incarnation under which a module is met. -/
def State.learn (s : State) (m : Nat) (inc : BitVec 16) : State := { s with domain := { s.domain with incs := insertN m inc s.domain.incs } }

/-- A stack's incarnation in a message is older than one it has shown: that one was removed (05 R134). -/
def State.staleStack (s : State) (m : Msg) : Bool :=
  (lookupN (8 * m.src + m.stk) s.domain.sincs).any (fun a => m.sinc != a && decide ((a - m.sinc).toNat < 32768))

/-- The stack's incarnation that a message shows. -/
def State.learnStack (s : State) (m : Msg) : State :=
  { s with domain := { s.domain with sincs := insertN (8 * m.src + m.stk) m.sinc s.domain.sincs } }

/-- A link fails: from now on its peer is unreachable over it. -/
def State.failLink (s : State) (n : Nat) (l : Link) : State := s.setLink n { l with state := 3, failedAt := some s.regs.m.tbase.toNat }

/-- Sends everything that waits on a link and may go. -/
def State.drain (s : State) (n : Nat) : State := State.drainLink n ((s.link n).waiting.length) s

/-- LINK_TRAINED: ACTIVE with a round trip of at most 0.5 µs, the same NMOD and an incarnation not removed, where the limiter still
allows the link (16 R362); else FAILED. -/
def execLinkTrained (n : Nat) (ok : Bool) (rtt peerMid peerLink peerNmod peerInc : Nat) (s : State) : Host.Outcome State Fault Refusal :=
  enabledOr "LINK_TRAINED" (
    let l := s.link n
    if l.state ≠ 1 then none
    else if ok && decide (rtt ≤ 500) && s.regs.lim.lnk.getLsbD n && peerNmod == s.nmod && !s.staleInc peerMid (BitVec.ofNat 16 peerInc) then
      some (((s.setLink n { l with state := 2, rtt := rtt, peerMid := peerMid, peerLink := peerLink, failedAt := none }).learn peerMid
        (BitVec.ofNat 16 peerInc)).drain n)
    else some (s.failLink n { l with rtt := rtt, peerMid := peerMid, peerLink := peerLink }))

/-- The route entry of a module takes effect: messages that waited leave on the new link; without a route what they asked for
finds the link down. -/
def State.switchRoute (s : State) (d : Nat) (w : Word) : State :=
  let held := s.links.toList.flatMap (fun l => l.waiting.filter (fun e => e.2.dst == d))
  let s1 := { s with
    domain := { s.domain with routes := insertN d w s.domain.routes, pending := eraseN d s.domain.pending },
    links := s.links.map (fun (l : Link) => { l with waiting := l.waiting.filter (fun e => e.2.dst != d) }) }
  if w.getLsbD 63 then
    let n := fld w 0 4
    let l := s1.link n
    ((s1.setLink n { l with waiting := l.waiting ++ held }).drain n).markPaths d false
  else if held.isEmpty then s1
  else s1.mapCores (fun c => { c with units := { c.units with cmds := c.units.cmds.map (Cmd.withoutModule d) } })

/-- Every flit sent on the old link of a module has been acknowledged. -/
def State.oldLinkClear (s : State) (d : Nat) : Bool :=
  match lookupN d s.domain.routes with
  | some w => !w.getLsbD 63 || (s.link (fld w 0 4)).buffer.isEmpty
  | none => true

/-- ROUTE_WRITE (R341): traffic to the module is held until the old link is clear. -/
def execRouteWrite (d : Nat) (v : Word) (s : State) : Host.Outcome State Fault Refusal :=
  let w := v &&& 0x800000000000000F
  .next (if s.oldLinkClear d then s.switchRoute d w else { s with domain := { s.domain with pending := insertN d w s.domain.pending } })

/-- ROUTE_SWITCH (R341). -/
def execRouteSwitch (d : Nat) (s : State) : Host.Outcome State Fault Refusal :=
  enabledOr "ROUTE_SWITCH" (match lookupN d s.domain.pending with
    | none => none
    | some w => if s.oldLinkClear d then some (s.switchRoute d w) else none)

/-! ### Acknowledgement and replay (R337) -/

/-- A cumulative ACK: flits up to it leave the replay buffer. -/
def State.takeAck (s : State) (n : Nat) (ack : BitVec 12) : State :=
  let l := s.link n
  match l.buffer.findIdx? (fun e => e.1 == ack) with
  | none => s
  | some i =>
    let left := l.buffer.drop (i + 1)
    let s1 := s.setLink n { l with buffer := left, replayed := 0, acked := ack }
    State.drain { s1 with domain := { s1.domain with
      killFlits := s1.domain.killFlits.filter (fun e => e.1 != n || left.any (fun b => b.1 == e.2)) } } n

/-- A NAK: go back to the named flit and resend; with its eighth replay in a row the link fails. -/
def State.takeNak (s : State) (n : Nat) (seq : BitVec 12) : State :=
  let s1 := s.takeAck n (seq - 1)
  let l := s1.link n
  if l.buffer.isEmpty then s1
  else
    let s2 := { s1.setLink n { l with replayed := l.replayed + 1 } with outward := s1.outward ++ l.buffer.map (fun e => .flit n e.2) }
    if 8 ≤ l.replayed + 1 then s2.failLink n { l with replayed := 8 } else s2

/-! ### Flow control (R339) -/

/-- PAUSE and RESUME of a lane. -/
def State.takePause (s : State) (n vl : Nat) (on : Bool) : State :=
  let s1 := s.setLink n { s.link n with paused := vset (s.link n).paused vl on }
  if on then s1 else s1.drain n

/-- CPAUSE and CRESUME of a channel. -/
def State.takeCpause (s : State) (n : Nat) (ch : BitVec 12) (on : Bool) : State :=
  let l := s.link n
  if on then s.setLink n { l with chPaused := if l.chPaused.contains ch then l.chPaused else l.chPaused ++ [ch] }
  else (s.setLink n { l with chPaused := l.chPaused.filter (fun c => c != ch) }).drain n

/-- The codes of Table 15.16; a control flit with another is discarded. -/
def isControl (code : Nat) : Bool := decide (1 ≤ code) && decide (code ≤ 6)

/-- What a control flit of Table 15.16 asks for. -/
def State.takeControl (s : State) (n code arg : Nat) : State :=
  match code with
  | 1 => s.takeNak n (BitVec.ofNat 12 arg)
  | 2 => s.takePause n (arg % 4) true
  | 3 => s.takePause n (arg % 4) false
  | 4 => s.takeCpause n (BitVec.ofNat 12 arg) true
  | 5 => s.takeCpause n (BitVec.ofNat 12 arg) false
  | _ => s

/-- An event of a link that is ACTIVE. -/
def State.onLink (s : State) (n : Nat) (t : State) : Option State := if (s.link n).state = 2 then some t else none

/-- LINK_NAK. -/
def execLinkNak (n : Nat) (seq : BitVec 12) (s : State) : Host.Outcome State Fault Refusal :=
  enabledOr "LINK_NAK" (s.onLink n (s.takeNak n seq))

/-- LINK_IDLE: carries ACK. -/
def execLinkIdle (n : Nat) (ack : BitVec 12) (s : State) : Host.Outcome State Fault Refusal :=
  enabledOr "LINK_IDLE" (s.onLink n (s.takeAck n ack))

def execLinkPause (n : Nat) (vl : BitVec 2) (s : State) : Host.Outcome State Fault Refusal :=
  enabledOr "LINK_PAUSE" (s.onLink n (s.takePause n vl.toNat true))

def execLinkResume (n : Nat) (vl : BitVec 2) (s : State) : Host.Outcome State Fault Refusal :=
  enabledOr "LINK_RESUME" (s.onLink n (s.takePause n vl.toNat false))

def execLinkCpause (n : Nat) (ch : BitVec 12) (s : State) : Host.Outcome State Fault Refusal :=
  enabledOr "LINK_CPAUSE" (s.onLink n (s.takeCpause n ch true))

def execLinkCresume (n : Nat) (ch : BitVec 12) (s : State) : Host.Outcome State Fault Refusal :=
  enabledOr "LINK_CRESUME" (s.onLink n (s.takeCpause n ch false))

/-- NAK_REPEAT (R338): until the expected flit arrives. -/
def execNakRepeat (n : Nat) (s : State) : Host.Outcome State Fault Refusal :=
  enabledOr "NAK_REPEAT" (if (s.link n).nak then some (s.sendControl n 1 (s.link n).expect.toNat) else none)

/-- PAUSE_REPEAT (R338): PAUSE of every lane and CPAUSE of every channel that stand. -/
def execPauseRepeat (n : Nat) (s : State) : Host.Outcome State Fault Refusal :=
  enabledOr "PAUSE_REPEAT" (
    let l := s.link n
    let lanes := (List.range 4).filter (fun v => vget l.sentPause v false)
    if lanes.isEmpty && l.sentCpause.isEmpty then none
    else some (l.sentCpause.foldl (fun (s : State) c => s.sendControl n 4 c.toNat) (lanes.foldl (fun (s : State) v => s.sendControl n 2 v) s)))

/-- RESUME_REPEAT (R338): the second sending. -/
def execResumeRepeat (n : Nat) (s : State) : Host.Outcome State Fault Refusal :=
  enabledOr "RESUME_REPEAT" (
    let l := s.link n
    if l.sentResume.isEmpty then none
    else some (l.sentResume.foldl (fun (s : State) e => s.sendControl n (if e.1 = 0 then 3 else 5) e.2) (s.setLink n { l with sentResume := [] })))

/-- Flits enter or leave a lane's receive buffer: PAUSE at 800, RESUME at 400. -/
def State.occupy (s : State) (n vl add sub : Nat) : State :=
  let l := s.link n
  let o := vget l.occ vl 0 + add - sub
  let s1 := s.setLink n { l with occ := vset l.occ vl o }
  if 800 ≤ o ∧ !vget l.sentPause vl false then
    (s1.setLink n { s1.link n with sentPause := vset l.sentPause vl true }).sendControl n 2 vl
  else if o ≤ 400 ∧ vget l.sentPause vl false then
    (s1.setLink n { s1.link n with sentPause := vset l.sentPause vl false, sentResume := l.sentResume ++ [(0, vl)] }).sendControl n 3 vl
  else s1

def Msg.flits (m : Msg) : Nat := (16 + m.body.length + 111) / 112

/-! ### Flits received (R337, R338) -/

/-- A discarded flit is answered by one NAK, which NAK_REPEAT repeats. -/
def State.nakFor (s : State) (n : Nat) : State :=
  let l := s.link n
  if l.nak then s else (s.setLink n { l with nak := true }).sendControl n 1 l.expect.toNat

/-- A message's sender is removed, or its MINC or SINC names an incarnation that was; of a message that comes back to this module, any
but the module's and the stack's own (R134). -/
def State.stale (s : State) (m : Msg) : Bool :=
  if m.src = s.mid then m.minc != BitVec.ofNat 16 (fld s.regs.m.domain 32 16) || m.sinc != (s.stack m.stk).inc || (s.stack m.stk).removed
  else s.isRemoved m.src || s.staleInc m.src m.minc || s.staleStack m

/-- A whole message: dropped when stale or of a reserved class, forwarded, or kept for its handling. -/
def State.arriveMsg (s : State) (n : Nat) (m : Msg) : State :=
  if s.stale m ∨ 6 < m.cls then
    (s.occupy n (laneOf m.cls) 0 m.flits).logCe (47 + n) 0 0 4 0
  else
    let s1 := if m.src = s.mid then s else (s.learn m.src m.minc).learnStack m
    if m.dst ≠ s.mid then (s1.occupy n (laneOf m.cls) 0 m.flits).sendMsg m
    else s1.setLink n { s1.link n with rx := (s1.link n).rx ++ [m] }

/-- A flit's payload joins the message of its lane. -/
def State.takePayload (s : State) (n vl : Nat) (p : List Byte) : State :=
  let l := s.link n
  let cur := lookupN vl (l.partials.map (fun e => (e.1, e.2.1, e.2.2)))
  let bs := match cur with
    | some e => e.1 ++ p
    | none => p
  let left := match cur with
    | some e => e.2 - 1
    | none => leNat ((p.drop 7).take 1) - 1
  let rest := l.partials.filter (fun e => e.1 != vl)
  if left = 0 then (s.setLink n { l with partials := rest }).arriveMsg n (Msg.read bs)
  else s.setLink n { l with partials := rest ++ [(vl, bs, left)] }

/-- DATA_FLIT: accepted in sequence, or discarded with a NAK; a CRC failure counts in the link's bank. A control flit has no place in the
sequence: it acts, or with a CRC failure is discarded (R338). -/
def execDataFlit (n : Nat) (bytes : List Byte) (s : State) : Host.Outcome State Fault Refusal :=
  enabledOr "DATA_FLIT" (
    let l := s.link n
    let at_ (k m : Nat) : Nat := leNat ((bytes.drop k).take m)
    let good := at_ 120 8 == (crc64 (bytes.take 120)).toNat
    if l.state ≠ 2 || bytes.length ≠ 128 then none
    else if at_ 0 2 / 16384 ≠ 0 then
      some (if good && at_ 0 2 / 16384 == 1 && isControl (at_ 8 1) then (s.takeAck n (BitVec.ofNat 12 (at_ 2 2))).takeControl n (at_ 8 1) (at_ 9 2)
            else if good then s else s.logCe (47 + n) 0 0 4 0)
    else if !good then some ((s.logCe (47 + n) 0 0 4 0).nakFor n)
    else
      let s1 := s.takeAck n (BitVec.ofNat 12 (at_ 2 2))
      let seq := BitVec.ofNat 12 (at_ 0 2)
      if seq ≠ l.expect then some (s1.nakFor n)
      else
        let vl := at_ 0 2 / 4096 % 4
        let s2 := s1.setLink n { s1.link n with expect := l.expect + 1, nak := false }
        some ((s2.occupy n vl 1 0).takePayload n vl ((bytes.drop 8).take 112)))

/-! ### Messages (R338) -/

/-- The message leaves the receive buffer. -/
def State.consume (s : State) (n : Nat) (m : Msg) : State :=
  (s.setLink n { s.link n with rx := (s.link n).rx.erase m }).occupy n (laneOf m.cls) 0 m.flits

/-- The oldest message of a class on a link. -/
def Link.first (l : Link) (cls : Nat) : Option Msg := l.rx.find? (fun m => m.cls == cls)

/-- Sends the response to a request. -/
def State.respond (s : State) (m : Msg) (r : MemResp) : State := s.sendMsg (s.message m.src 1 0 m.tag r.bytes)

/-- A memory request is performed at this home (05 R135): the response, and the fan-outs that it awaits. `none` while a line
fans out or its frame migrates; XLATE where no memory is or a write would meet a sealed frame (06 R155). -/
def State.serveMem (s : State) (r : MemReq) : Option (MemResp × List Nat × State) :=
  let n := if r.kind = 1 then r.data.length else r.size
  let ls := r.lines
  if ls.any s.fanBusy || s.frameBusy r.pa || s.frameBusy (r.pa + n - 1) then none
  else if !s.paOk r.pa ∨ !s.paOk (r.pa + n - 1) ∨ (r.kind ≠ 0 ∧ s.sealedFrame (s.frame r.pa)) then some (⟨2, 0, []⟩, [], s)
  else if r.kind ≠ 1 ∧ s.poisoned r.pa n then some (⟨3, 0, []⟩, [], s.logUe (4 * homeStack r.pa + 3) 0xFFFF 0 9 (BitVec.ofNat 64 r.pa))
  else
    let old := s.homeRead r.pa n
    let y := leNat (r.data.take n)
    let cmp := leNat ((r.data.drop n).take n)
    let s1 := match r.kind with
      | 0 => ls.foldl (fun (s : State) l => s.touchL2 l false) s
      | 1 => s.homePut r.pa r.data
      | k => match homeOp k r.op n (leNat old) y cmp with
        | some v => s.homeWrite r.pa (leBytes n v) false
        | none => s.touchL2 (r.pa / 128) false
    let st := if r.sc then s1.stampHome r.pa r.clk r.core else (0, s1)
    some (⟨0, st.1, if r.kind = 1 then [] else old⟩, ls.flatMap s1.fanOf, st.2)

/-- No older request waits at a line of the request (05 R130). -/
def State.oldestAt (s : State) (r : MemReq) : Bool :=
  !s.arrived.any (fun q => decide (q.born < r.born) && q.lines.any r.lines.contains) &&
  !(s.refusedAt r.lines.contains).any (fun e => decide (e.1.bornAt e.2 < r.born))

/-- MEMORY_REQUEST_MSG (05 R135): a request is served; one that wrote is acknowledged after its fan-outs. -/
def execMemoryRequestMsg (n : Nat) (s : State) : Host.Outcome State Fault Refusal :=
  enabledOr "MEMORY_REQUEST_MSG" (
    let l := s.link n
    match l.serving.find? (fun e => !s.fansRun e.2.2) with
    | some e => some ((s.setLink n { l with serving := l.serving.erase e }).respond e.1 (MemResp.read e.2.1))
    | none => match l.rx.find? (fun m => m.cls == 0 && s.oldestAt (MemReq.read m.body)) with
      | none => none
      | some m => match s.serveMem (MemReq.read m.body) with
        | none => none
        | some (r, fans, s1) =>
          let s2 := s1.consume n m
          if s2.fansRun fans then some (s2.setLink n { s2.link n with serving := (s2.link n).serving ++ [(m, r.bytes, fans)] })
          else some (s2.respond m r))

/-- A command takes a response that names one of its tags (log 9). -/
def Cmd.response (tag : BitVec 32) (r : MemResp) (k : Cmd) : Cmd :=
  match k.asks.find? (fun a => a.1 == tag) with
  | some a =>
    if r.code ≠ 0 then { k with asks := [], err := BitVec.ofNat 3 r.code }
    else
      let cells (base : Nat) : List Host.Cell := r.data.zipIdx.map (fun e => (base + e.2, e.1))
      if isCrucible k.ins then
        let total := r.time / 2 ^ 32
        let off := r.time % 2 ^ 32
        { k with got := k.got ++ cells (a.2.1 + off), asks := if total ≤ off + r.data.length then k.asks.erase a else k.asks }
      else { k with got := k.got ++ cells (remoteBase + a.2.1), asks := k.asks.erase a, performed := k.performed || orderOf k.ins == .sc }
  | none =>
    if k.acks.contains tag then { k with acks := k.acks.erase tag, err := if r.code ≠ 0 ∧ k.err = 0 then BitVec.ofNat 3 r.code else k.err }
    else k

/-- An sc operation's response returns its stamp (05 R127). -/
def Core.response (tag : BitVec 32) (r : MemResp) (c : Core) : Core :=
  let sc := c.units.cmds.any (fun k => orderOf k.ins == .sc && !isCrucible k.ins && r.code == 0 && k.asks.any (fun a => a.1 == tag))
  { c with units := { c.units with cmds := c.units.cmds.map (Cmd.response tag r),
                                   lamport := if sc then BitVec.ofNat 64 r.time else c.units.lamport } }

/-- A read of Hearth's takes a response that names one of its tags. -/
def HRead.response (tag : BitVec 32) (r : MemResp) (h : HRead) : HRead :=
  match h.asks.find? (fun a => a.1 == tag) with
  | none => h
  | some a =>
    if r.code ≠ 0 then { h with asks := h.asks.erase a, lost := true }
    else { h with asks := h.asks.erase a, got := h.got ++ r.data.zipIdx.map (fun e => (remoteBase + a.2.1 + e.2, e.1)) }

/-- A response reaches what its tag names: a command, a read of Hearth's, or a killed task's access (16 R355). -/
def State.takeResponse (s : State) (tag : BitVec 32) (r : MemResp) : State :=
  let s1 := s.mapCores (Core.response tag r)
  { s1 with hearth := { s1.hearth with reads := s1.hearth.reads.map (HRead.response tag r), writes := s1.hearth.writes.filter (fun e => e.1 != tag) },
            domain := { s1.domain with killTags := s1.domain.killTags.erase tag } }

/-- RESPONSE_MSG: completes its tagged request. -/
def execResponseMsg (n : Nat) (s : State) : Host.Outcome State Fault Refusal :=
  enabledOr "RESPONSE_MSG" (match (s.link n).first 1 with
    | none => none
    | some m => some (((s.consume n m).takeResponse m.tag (MemResp.read m.body)).hearthRun))

/-- The message that a link message's body holds. -/
def qmsgOf (bs : List Byte) : QMsg :=
  if bs.length = 1 then .failed (BitVec.ofNat 3 (leNat bs)) else .msg (padTo 256 bs)

/-- LINK_MESSAGE_MSG (02 R50; R339): placed in its channel's queue, and the sender told (log 9); for a full queue CPAUSE is
sent and the message stays. -/
def execLinkMessageMsg (n : Nat) (s : State) : Host.Outcome State Fault Refusal :=
  enabledOr "LINK_MESSAGE_MSG" (
    let l := s.link n
    let room (m : Msg) : Bool := decide ((s.channel m.chan).queue.length < 64)
    match l.rx.find? (fun m => m.cls == 2 && room m) with
    | some m =>
      let c := s.channel m.chan
      let s1 := (s.consume n m).setChannel { c with queue := c.queue ++ [qmsgOf m.body], src := some m.src }
      some (s1.sendMsg (s1.message m.src 6 0 0 (leBytes 1 1 ++ leBytes 2 m.chan)))
    | none => match l.rx.find? (fun m => m.cls == 2 && !l.sentCpause.contains (BitVec.ofNat 12 m.chan)) with
      | some m =>
        let s1 := s.setChannel { s.channel m.chan with paused := true }
        some ((s1.setLink n { l with sentCpause := l.sentCpause ++ [BitVec.ofNat 12 m.chan] }).sendControl n 4 m.chan)
      | none => none)

/-- A message of this module's LSEND on a channel has reached its queue. -/
def State.placed (s : State) (entry : Nat) : State :=
  let mine (k : Cmd) : Bool := (match k.ins with
    | .lsend _ _ => true
    | _ => false) && k.stage == 2 && !k.acks.isEmpty && k.last.toNat == entry
  s.mapCores (fun c =>
    match c.units.cmds.find? mine with
    | some k => { c with units := { c.units with cmds := c.units.cmds.map (fun j => if j.seq = k.seq then { j with acks := [] } else j) } }
    | none => c)

/-- MANAGEMENT_MSG: handled whole; the model gives one body a meaning (log 9). -/
def execManagementMsg (n : Nat) (s : State) : Host.Outcome State Fault Refusal :=
  enabledOr "MANAGEMENT_MSG" (match (s.link n).first 6 with
    | none => none
    | some m =>
      let s1 := s.consume n m
      some (if leNat (m.body.take 1) = 1 then s1.placed (leNat ((m.body.drop 1).take 2)) else s1))

/-- NODE_DIRECTORY_MSG (06 R160). -/
def execNodeDirectoryMsg (n : Nat) (s : State) : Host.Outcome State Fault Refusal :=
  enabledOr "NODE_DIRECTORY_MSG" (match (s.link n).first 4 with
    | none => none
    | some m => some ((s.consume n m).serveK m.src m.tag (KReq.read m.body)))

/-- TIME_BASE_MSG (R342): the master's store ticks; the module's copy never falls back. -/
def execTimeBaseMsg (n : Nat) (s : State) : Host.Outcome State Fault Refusal :=
  enabledOr "TIME_BASE_MSG" (match (s.link n).first 5 with
    | none => none
    | some m =>
      let s1 := s.consume n m
      let now := max s1.regs.m.tbase.toNat (leNat (m.body.take 8))
      let passed (n : KNode) : Bool := n.expiry != 0 && decide (s1.regs.m.tbase.toNat < n.expiry.toNat) && decide (n.expiry.toNat ≤ now)
      let s2 := { s1.setM { s1.regs.m with tbase := BitVec.ofNat 64 now } with domain := { s1.domain with master := some m.src } }
      some (if s2.crucible.nodes.any passed then s2.reclaimTest else s2))

/-! ### The store tick (06 R148; R338, R342) -/

/-- IDLE carries ACK where no data flit did (R338). -/
def State.idleFlit (s : State) (n : Nat) : State :=
  let l := s.link n
  if l.state = 2 ∧ l.ackSent ≠ l.ackOut then (s.setLink n { l with ackSent := l.ackOut }).sendControl n 6 0 else s

/-- Modules reached over a link that failed 100 µs ago are removed (05 R134). -/
def State.lostOver (s : State) (n : Nat) : State :=
  let l := s.link n
  if l.state = 3 ∧ l.failedAt.any (fun t => decide (t + 100 ≤ s.regs.m.tbase.toNat)) then
    ((List.range (s.nmod + 1)).filter (fun m => m != s.mid && s.route m == some n)).foldl State.removeModule (s.setLink n { l with failedAt := none })
  else s

/-- STORE_TICK (06 R148; R342): the domain time base advances one tick of 1 µs; the master distributes it. A module in RESET passes
into FWAUTH (R309; log 28). -/
def execStoreTick (s : State) : Host.Outcome State Fault Refusal :=
  let now := s.regs.m.tbase + 1
  let st := if fld s.regs.m.mstate 0 4 = 0 then putFld s.regs.m.mstate 0 4 1 else s.regs.m.mstate
  let s1 := { s with ticks := s.ticks + 1, regs := { s.regs with m := { s.regs.m with tbase := now, mstate := st } } }
  let s2 := if s1.isMaster then (List.range (s1.nmod + 1)).foldl (fun s m =>
    if m = s.mid then s else s.sendMsg (s.message m 5 0 0 (leBytes 8 now.toNat))) s1 else s1
  .next ((List.range 16).foldl State.lostOver ((List.range 16).foldl State.idleFlit s2))

/-! ### Barriers across modules (02 R44; log 9) -/

/-- What a barrier message says: members of a domain group on the sender's module with their arrivals (from 2^64 up:
departed); `join` where they are told for the first time. -/
structure BMsg where
  join : Bool
  key : Nat
  node : Nat
  serial : Nat
  drank : Nat
  members : List (Nat × Nat)
  deriving DecidableEq, Repr

def BMsg.bytes (b : BMsg) : List Byte :=
  leBytes 1 b.join.toNat ++ leBytes 8 b.key ++ leBytes 2 b.node ++ leBytes 8 b.serial ++ leBytes 2 b.drank ++ leBytes 2 b.members.length ++
  b.members.flatMap (fun m => leBytes 4 m.1 ++ leBytes 1 (m.2 / 2 ^ 64) ++ leBytes 8 (m.2 % 2 ^ 64))

def BMsg.read (bs : List Byte) : BMsg :=
  let at_ (k n : Nat) : Nat := leNat ((bs.drop k).take n)
  { join := at_ 0 1 == 1, key := at_ 1 8, node := at_ 9 2, serial := at_ 11 8, drank := at_ 19 2,
    members := (List.range (at_ 21 2)).map (fun i => (at_ (23 + 13 * i) 4, at_ (27 + 13 * i) 1 * 2 ^ 64 + at_ (28 + 13 * i) 8)) }

/-- The module's own domain group of a message. -/
def BGroup.named (b : BGroup) (m : BMsg) : Bool := b.lvl == 4 && decide (b.arrived.length < b.nmem) && b.key == m.key && b.node == m.node

/-- The sender has joined the group under this serial, or under another. -/
def BGroup.joinedAs (b : BGroup) (m : BMsg) : Bool := b.joined.contains (m.drank + (m.serial + 1) * 65536)
def BGroup.joinedOther (b : BGroup) (m : BMsg) : Bool :=
  b.joined.any (fun k => k % 65536 == m.drank && k != m.drank + (m.serial + 1) * 65536)

/-- The group learns what a message says. -/
def BGroup.take (b : BGroup) (m : BMsg) : BGroup :=
  let r := m.members.foldl (fun l e => insertN e.1 e.2 l) b.remote
  { b with remote := r, joined := insertSet (m.drank + (m.serial + 1) * 65536) b.joined, formed := decide (b.arrived.length + r.length = b.nmem) }

/-- Whether a barrier message can be handled now: `some true` applied, `some false` dropped as stale. -/
def State.barrierReady (s : State) (b : BMsg) : Option Bool :=
  match s.groups.find? (fun g => g.named b) with
  | some g => if b.join then (if g.joinedOther b then none else some true) else some (g.joinedAs b)
  | none => if b.join then none else some false

/-- BARRIER_MSG: the oldest that can be handled; an update waits behind its sender's join. -/
def execBarrierMsg (n : Nat) (s : State) : Host.Outcome State Fault Refusal :=
  enabledOr "BARRIER_MSG" (
    let ms := (s.link n).rx.filter (fun m => m.cls == 3)
    let pick := ms.zipIdx.find? (fun e =>
      let b := BMsg.read e.1.body
      !(ms.take e.2).any (fun m => m.src == e.1.src && (BMsg.read m.body).key == b.key) && (s.barrierReady b).isSome)
    match pick with
    | none => none
    | some (m, _) =>
      let b := BMsg.read m.body
      let s1 := s.consume n m
      if s.barrierReady b = some true then
        some (State.settleGroups { s1 with groups := s1.groups.map (fun (g : BGroup) => if g.named b then g.take b else g) })
      else some s1)

/-- A group's members as other modules are told of them. -/
def BGroup.tell (b : BGroup) : List (Nat × Nat) :=
  b.arrived.map (fun m => (m.1, if b.departed.any (fun d => d.1 == m.1) then m.2 + 2 ^ 64 else m.2))

/-- Members in pieces that fit a message. -/
def memberPieces : Nat → List (Nat × Nat) → List (List (Nat × Nat))
  | 0, _ => []
  | k + 1, l => if l.isEmpty then [] else l.take 200 :: memberPieces k (l.drop 200)

/-- Tells the other modules of one domain group what is new in it. -/
def State.publishGroup (s : State) (b : BGroup) : State :=
  let now := b.tell
  let news := now.filter (fun m => !b.told.contains m)
  if b.lvl ≠ 4 ∨ b.nmem ≤ b.arrived.length ∨ news.isEmpty then s
  else
    let msgs := (memberPieces 8 news).map (fun l =>
      (⟨b.told.isEmpty, b.key, b.node, b.launch, b.joined.headD 0 % 65536, l⟩ : BMsg))
    let s1 := { s with groups := s.groups.map (fun (g : BGroup) => if g = b then { g with told := now } else g) }
    (List.range (s.nmod + 1)).foldl (fun s m =>
      if m = s.mid ∨ s.isRemoved m then s else msgs.foldl (fun (s : State) b => s.sendMsg (s.message m 3 0 0 b.bytes)) s) s1

/-- Tells of every domain group, after each event and instruction (log 9). -/
def State.publish (s : State) : State := s.groups.foldl State.publishGroup s

end Sys2Proof.Machine
end

