-- ==== Sys2Proof/Machine/Board.lean ====
section
/-! DEFINITION. The limiter (16 R362), the thermal cap (17 R365), firmware and attestation (17 R366, R367), power (15 R309;
16 R360) and the CXL ports' links (16 R361). -/
namespace Sys2Proof.Machine
open Sys2Proof

/-! ### The limiter (R362) -/

/-- A window's base word is at most as wide as before: BASE up, V only from 1 to 0. -/
def baseNarrows (old new : Word) : Bool := decide (fld old 16 36 ≤ fld new 16 36) && decide (fld new 0 1 ≤ fld old 0 1)
/-- A window's limit word is at most as wide as before. -/
def limitNarrows (old new : Word) : Bool := decide (fld new 16 36 ≤ fld old 16 36)

/-- Half `k` of a window as written, none where the write would widen it. -/
def narrowWindow (w : Word × Word) (k : Nat) (v : Word) : Option (Word × Word) :=
  if k = 0 then (if baseNarrows w.1 v then some (v &&& 0x000FFFFFFFFF0001, w.2) else none)
  else if limitNarrows w.2 v then some (w.1, v &&& 0x000FFFFFFFFF0000) else none

/-- The limiter registers after a write at an offset, none where it would widen a field. An unassigned offset changes nothing. -/
def Limits.narrow (l : Limits) (off : Nat) (v : Word) : Option Limits :=
  let k := off / 8 % 2
  if off = 0x100 then (if fld v 0 12 ≤ fld l.pwr 0 12 then some { l with pwr := v &&& 0xFFF } else none)
  else if off = 0x108 then (if v &&& 0x3FFFF &&& ~~~l.lnk = 0 then some { l with lnk := v &&& 0x3FFFF } else none)
  else if off % 8 ≠ 0 ∨ off < 0x110 ∨ 0x1E0 ≤ off then some l
  else if off < 0x190 then
    let n := (off - 0x110) / 16
    (narrowWindow (vget l.dma n (0, 0)) k v).map (fun w => { l with dma := vset l.dma n w })
  else if off < 0x1D0 then
    let n := (off - 0x190) / 16
    (narrowWindow (vget l.hdm n (0, 0)) k v).map (fun w => { l with hdm := vset l.hdm n w })
  else (narrowWindow l.cxlw k v).map (fun w => { l with cxlw := w })

/-- LIMITER_WRITE: a write that would widen is refused whole and posts event 15 with the value (log 14). -/
def execLimiterWrite (off : Nat) (v : Word) (s : State) : Host.Outcome State Fault Refusal :=
  .next (match s.regs.lim.narrow off v with
    | some l => (State.relimit { s with regs := { s.regs with lim := l } }).regate.hearthRun
    | none => s.post ⟨15, 0xFFFF, 0, v, 0⟩)

/-! ### Heat (R365) -/

/-- The thermal cap after 10 ms at a die temperature in 1/16 °C. -/
def nextCap (cap die : Nat) : Nat :=
  if 1600 ≤ die then max 760 (cap - 50) else if die ≤ 1520 then min 2600 (cap + 50) else cap

/-- TEMP and PWR.PNOW as measured (Table 17.1; log 33). -/
def State.measured (s : State) (m : Sensors) : State :=
  let t := s.regs.telem
  { s with regs := { s.regs with telem := { t with
    temp := BitVec.ofNat 64 (m.die.toNat + m.inlet.toNat * 65536 + m.outlet.toNat * 2 ^ 32), pwr := putFld t.pwr 0 12 m.watts.toNat } } }

/-- THERMAL_CAP_TICK: every 10 ms, with what the board controller measures. -/
def execThermalCapTick (m : Sensors) (s : State) : Host.Outcome State Fault Refusal :=
  let s1 := s.measured m
  .next (State.relimit { s1 with board := { s1.board with thermalCap := nextCap s.board.thermalCap m.die.toNat } }).regate.hearthRun

/-! ### Power (R309; 16 R360) -/

/-- Without power: the board controller keeps its non-volatile store (firmware slots, the floor, the bad-frame list; the generations of
node slots, by which no handle comes again: 06 R162, log 28), the host its memory; everything else is lost. -/
def State.unpower (s : State) : State :=
  let r := State.reset
  { r with
    memory := { r.memory with mem := s.memory.mem.filter (fun e => decide (2 ^ 60 ≤ e.1)), badFrames := s.memory.badFrames },
    crucible := { r.crucible with gens := s.crucible.gens },
    board := { r.board with power := false, fw := s.board.fw, floor := s.board.floor },
    outward := s.outward, agenda := s.agenda, free := s.free }

/-- POWER_REMOVAL. -/
def execPowerRemoval (s : State) : Host.Outcome State Fault Refusal := .next s.unpower

/-- POWER_UP: the module starts in RESET. -/
def execPowerUp (s : State) : Host.Outcome State Fault Refusal :=
  enabledOr "POWER_UP" (
    if s.board.power then none else some (State.relimit { s with board := { s.board with power := true } }))

/-- THERMAL_SHUTDOWN at 110 °C: power is removed, and bank 44 records it. -/
def execThermalShutdown (die : BitVec 16) (s : State) : Host.Outcome State Fault Refusal :=
  enabledOr "THERMAL_SHUTDOWN" (
    if die.toNat < 1760 then none
    else
      let u := s.unpower
      some { u with board := { u.board with banks := (s.unpower.logUe 44 0xFFFF 0 0 0).board.banks } })

/-- CXL_LINK_DOWN: the port answers no more (16 R361). -/
def execCxlLinkDown (port : Bool) (s : State) : Host.Outcome State Fault Refusal :=
  .next { s with board := { s.board with portUp := vset s.board.portUp (if port then 1 else 0) false } }

/-! ### Firmware (R366) -/

/-- The slot that an update writes: the one that did not boot. -/
def Board.inactive (b : Board) : Nat := if b.booted = some 0 then 1 else 0

/-- PLDM_FIRMWARE_UPDATE: the inactive slot; nothing changes before the next module reset. -/
def execPldmFirmwareUpdate (ver sec : Nat) (bytes : List Byte) (s : State) : Host.Outcome State Fault Refusal :=
  .next { s with board := { s.board with fw := vset s.board.fw s.board.inactive ⟨true, ver, sec, bytes⟩ } }

/-- SECURITY_FLOOR_ADVANCE: to the booted image's security version; refused before a successful boot. -/
def execSecurityFloorAdvance (s : State) : Host.Outcome State Fault Refusal :=
  .next (match s.board.booted with
    | some i => { s with board := { s.board with floor := max s.board.floor (vget s.board.fw i ⟨false, 0, 0, []⟩).sec } }
    | none => { s with outward := s.outward ++ [.mctpRefused 0] })

/-! ### SHA-512 (R367; FIPS 180-4, PRESUMED, log 13) -/

def shaK : List Word :=
  [0x428A2F98D728AE22, 0x7137449123EF65CD, 0xB5C0FBCFEC4D3B2F, 0xE9B5DBA58189DBBC] ++
  [0x3956C25BF348B538, 0x59F111F1B605D019, 0x923F82A4AF194F9B, 0xAB1C5ED5DA6D8118] ++
  [0xD807AA98A3030242, 0x12835B0145706FBE, 0x243185BE4EE4B28C, 0x550C7DC3D5FFB4E2] ++
  [0x72BE5D74F27B896F, 0x80DEB1FE3B1696B1, 0x9BDC06A725C71235, 0xC19BF174CF692694] ++
  [0xE49B69C19EF14AD2, 0xEFBE4786384F25E3, 0x0FC19DC68B8CD5B5, 0x240CA1CC77AC9C65] ++
  [0x2DE92C6F592B0275, 0x4A7484AA6EA6E483, 0x5CB0A9DCBD41FBD4, 0x76F988DA831153B5] ++
  [0x983E5152EE66DFAB, 0xA831C66D2DB43210, 0xB00327C898FB213F, 0xBF597FC7BEEF0EE4] ++
  [0xC6E00BF33DA88FC2, 0xD5A79147930AA725, 0x06CA6351E003826F, 0x142929670A0E6E70] ++
  [0x27B70A8546D22FFC, 0x2E1B21385C26C926, 0x4D2C6DFC5AC42AED, 0x53380D139D95B3DF] ++
  [0x650A73548BAF63DE, 0x766A0ABB3C77B2A8, 0x81C2C92E47EDAEE6, 0x92722C851482353B] ++
  [0xA2BFE8A14CF10364, 0xA81A664BBC423001, 0xC24B8B70D0F89791, 0xC76C51A30654BE30] ++
  [0xD192E819D6EF5218, 0xD69906245565A910, 0xF40E35855771202A, 0x106AA07032BBD1B8] ++
  [0x19A4C116B8D2D0C8, 0x1E376C085141AB53, 0x2748774CDF8EEB99, 0x34B0BCB5E19B48A8] ++
  [0x391C0CB3C5C95A63, 0x4ED8AA4AE3418ACB, 0x5B9CCA4F7763E373, 0x682E6FF3D6B2B8A3] ++
  [0x748F82EE5DEFB2FC, 0x78A5636F43172F60, 0x84C87814A1F0AB72, 0x8CC702081A6439EC] ++
  [0x90BEFFFA23631E28, 0xA4506CEBDE82BDE9, 0xBEF9A3F7B2C67915, 0xC67178F2E372532B] ++
  [0xCA273ECEEA26619C, 0xD186B8C721C0C207, 0xEADA7DD6CDE0EB1E, 0xF57D4F7FEE6ED178] ++
  [0x06F067AA72176FBA, 0x0A637DC5A2C898A6, 0x113F9804BEF90DAE, 0x1B710B35131C471B] ++
  [0x28DB77F523047D84, 0x32CAAB7B40C72493, 0x3C9EBE0A15C9BEBC, 0x431D67C49C100D4C] ++
  [0x4CC5D4BECB3E42B6, 0x597F299CFC657E2A, 0x5FCB6FAB3AD6FAEC, 0x6C44198C4A475817]

def shaH : List Word :=
  [0x6A09E667F3BCC908, 0xBB67AE8584CAA73B, 0x3C6EF372FE94F82B, 0xA54FF53A5F1D36F1,
   0x510E527FADE682D1, 0x9B05688C2B3E6C1F, 0x1F83D9ABFB41BD6B, 0x5BE0CD19137E2179]

def rotr (w : Word) (n : Nat) : Word := w.rotateRight n

/-- The message schedule: the last sixteen words, newest first, give the next. -/
def shaNext (ws : List Word) : Word :=
  let a := ws.getD 1 0
  let b := ws.getD 14 0
  ((rotr a 19 ^^^ rotr a 61 ^^^ (a >>> 6)) + ws.getD 6 0 + (rotr b 1 ^^^ rotr b 8 ^^^ (b >>> 7)) + ws.getD 15 0)

/-- Eighty words from sixteen, newest first. -/
def shaSchedule : Nat → List Word → List Word
  | 0, ws => ws
  | k + 1, ws => shaSchedule k (shaNext ws :: ws)

/-- One round over the eight working variables. -/
def shaRound (v : List Word) (kw : Word) : List Word :=
  match v with
  | [a, b, c, d, e, f, g, h] =>
    let t1 := h + (rotr e 14 ^^^ rotr e 18 ^^^ rotr e 41) + ((e &&& f) ^^^ (~~~e &&& g)) + kw
    let t2 := (rotr a 28 ^^^ rotr a 34 ^^^ rotr a 39) + ((a &&& b) ^^^ (a &&& c) ^^^ (b &&& c))
    [t1 + t2, a, b, c, d + t1, e, f, g]
  | v => v

/-- One block of 128 bytes. -/
def shaBlock (h : List Word) (block : List Byte) : List Word :=
  let ws := (List.range 16).map (fun i => (BitVec.ofNat 64 (leNat ((block.drop (8 * i)).take 8).reverse) : Word))
  let sched := (shaSchedule 64 ws.reverse).reverse
  let v := (List.zip shaK sched).foldl (fun v (p : Word × Word) => shaRound v (p.1 + p.2)) h
  (List.zip h v).map (fun (p : Word × Word) => p.1 + p.2)

/-- Blocks of a padded message. -/
def shaBlocks : Nat → List Word → List Byte → List Word
  | 0, h, _ => h
  | k + 1, h, bs => shaBlocks k (shaBlock h (bs.take 128)) (bs.drop 128)

/-- SHA-512 of a byte string. -/
def sha512 (bs : List Byte) : List Byte :=
  let n := bs.length
  let pad := (239 - n % 128) % 128
  let msg := bs ++ [0x80] ++ List.replicate pad 0 ++ (leBytes 16 (8 * n)).reverse
  (shaBlocks (msg.length / 128) shaH msg).flatMap (fun w => (leBytes 8 w.toNat).reverse)

/-! ### Attestation (R367) -/

/-- Bytes that the spec names and gives no value (log 13). -/
def freeBytes (at_ from_ n : Nat) : List Byte := (List.range n).map (fun i => Config.freeByte at_ (from_ + i))

/-- Words as the registers' bytes in address order. -/
def wordsBytes (ws : List Word) : List Byte := ws.flatMap (fun w => leBytes 8 w.toNat)

/-- The limiter registers of Table 16.11 in address order. -/
def Limits.words (l : Limits) : List Word :=
  [l.pwr, l.lnk] ++ l.dma.toList.flatMap (fun w => [w.1, w.2]) ++ l.hdm.toList.flatMap (fun w => [w.1, w.2]) ++ [l.cxlw.1, l.cxlw.2]

/-- The digest of the booted image; of one whose bytes the model does not know it is open, and always the same. -/
def State.bootDigest (s : State) : List Byte :=
  match s.board.booted with
  | some i =>
    let slot := vget s.board.fw i ⟨false, 0, 0, []⟩
    if slot.bytes.isEmpty then (List.range 64).map (Config.imageDigest i slot.ver slot.sec) else sha512 slot.bytes
  | none => (List.range 64).map (Config.imageDigest 2 0 0)

/-- Route entry d as it was last written, in force or not yet (15 R341). -/
def State.routeEntry (s : State) (d : Nat) : Word := (lookupN d s.domain.pending).getD ((lookupN d s.domain.routes).getD 0)

/-- The digest of Table 17.2; that of the boot ROM is open. -/
def State.measurement (s : State) (idx : Nat) : Option (List Byte) :=
  match idx with
  | 1 => some ((List.range 64).map Config.romDigest)
  | 2 => some s.bootDigest
  | 3 => some (sha512 (wordsBytes Limits.fused.words))
  | 4 => some (sha512 (wordsBytes s.regs.lim.words))
  | 5 => some (sha512 (wordsBytes (s.memory.badFrames.map (BitVec.ofNat 64))))
  | 6 => some (sha512 (wordsBytes (s.regs.m.domain :: (List.range 256).map s.routeEntry)))
  | _ => none

/-- An SPDM answer, or a refusal before the algorithms are negotiated (log 13). -/
def State.spdmAnswer (s : State) (kind : Nat) (bs : List Byte) : State :=
  if s.board.agreed then { s with outward := s.outward ++ [.spdm kind bs], free := s.free + 1 }
  else { s with outward := s.outward ++ [.mctpRefused kind] }

/-- SPDM_NEGOTIATE_ALGORITHMS: ECDSA on P-521 with SHA-512 alone. -/
def execSpdmNegotiateAlgorithms (s : State) : Host.Outcome State Fault Refusal :=
  .next { s with board := { s.board with agreed := true }, outward := s.outward ++ [.spdm 0 (leBytes 4 0x100 ++ leBytes 4 4)] }

/-- The chain from the Corpel root to the alias key of the booted firmware: its bytes and length are open. -/
def State.certChain (s : State) : List Byte := (List.range (Config.chainLength s.bootDigest).toNat).map (Config.chainByte s.bootDigest)

/-- SPDM_GET_CERTIFICATE: the chain, the same while the same firmware runs. -/
def execSpdmGetCertificate (s : State) : Host.Outcome State Fault Refusal := .next (s.spdmAnswer 1 s.certChain)

/-- SPDM_CHALLENGE: the nonce, and a signature by the alias key (132 bytes on P-521), which is a free value. -/
def execSpdmChallenge (nonce : BitVec 256) (s : State) : Host.Outcome State Fault Refusal :=
  .next (s.spdmAnswer 2 (leBytes 32 nonce.toNat ++ freeBytes s.free 0 132))

/-- SPDM_GET_MEASUREMENTS: the digest, signed; there is none for an index outside Table 17.2. -/
def execSpdmGetMeasurements (idx : Nat) (s : State) : Host.Outcome State Fault Refusal :=
  .next (match s.measurement idx with
    | some d => s.spdmAnswer 3 (d ++ freeBytes s.free 64 132)
    | none => { s with outward := s.outward ++ [.mctpRefused 3] })

/-! ### Reads of BAR 0 (15 R307, R308; 00 R8) -/

/-- A module register as it reads: write-only and reserved bits are zero. -/
def State.readModule (s : State) (off : Nat) : Word :=
  let m := s.regs.m
  let ev := s.regs.ev
  match off with
  | 0x000 => m.mstate
  | 0x008 => m.hcfg
  | 0x010 => m.asidtb
  | 0x018 => m.shoota
  | 0x020 => m.shootb &&& 0x8000000000000000
  | 0x028 => m.ovlid
  | 0x030 => m.ovlinv &&& 0x8000000000000000
  | 0x038 => m.chtb
  | 0x040 => m.cridx
  | 0x048 => m.crhbm
  | 0x050 => m.crcxl
  | 0x058 => m.crmark
  | 0x060 => m.nstb
  | 0x068 => m.nscmd &&& 0x8F00000000000000
  | 0x070 => m.domain
  | 0x078 => m.tbase
  | 0x080 => m.hlccfg
  | 0x0C0 => ev.evbase
  | 0x0C8 => ev.evctl
  | 0x0D0 => ev.evtail
  | 0x0D8 => ev.evhead
  | 0x0E0 => ev.kill &&& 0x4000000000000FFF
  | 0x0E8 => ev.freto
  | 0x0F0 => ev.fretn &&& 0x3C0FFFFFFFFF0000
  | 0x0F8 => BitVec.ofNat 64 (s.memory.badFrames.getD (fld ev.badfl 0 9) 0 * 65536 + fld ev.badfl 0 9)
  | off => if 0x100 ≤ off ∧ off < 0x1E0 then s.regs.lim.words.getD ((off - 0x100) / 8) 0 else 0

/-- FRONT of a slab: the binding core's while it is bound (15 Table 15.4; 08 R210). -/
def State.slabFront (s : State) (stk i : Nat) : Nat :=
  let st := s.stack stk
  let own := (List.range 112).findSome? (fun f =>
    let w := vget st.cbind f 0
    match (List.range (gwOf w)).find? (fun g => memberOf w g == i), s.coreOf stk f with
    | some g, some c => some (vget c.phase.front g 0).toNat
    | _, _ => none)
  own.getD (fld (vget st.spair i 0) 16 16)

/-- A stack's register as it reads. -/
def State.readStack (s : State) (stk off : Nat) : Word :=
  let st := s.stack stk
  if off < 0x18 then st.half.extractLsb' (8 * off) 64
  else if 0x100 ≤ off ∧ off < 0x3C0 then vget st.slab ((off - 0x100) / 8) 0
  else if 0x400 ≤ off ∧ off < 0x6C0 then vget st.srole ((off - 0x400) / 8) 0
  else if 0x700 ≤ off ∧ off < 0x9C0 then
    putFld (vget st.spair ((off - 0x700) / 8) 0) 16 16 (s.slabFront stk ((off - 0x700) / 8))
  else if 0x1000 ≤ off ∧ off < 0x1380 then
    let f := (off - 0x1000) / 8
    putFld (vget st.cbind f 0) 62 1 ((s.coreOf stk f).any Core.bindBusy).toNat
  else match off with
    | 0x2000 => putFld st.wsgate 1 1 (s.wsIdle stk).toNat
    | 0x2008 => st.sstat
    | 0x2010 => st.wssrc
    | 0x2018 => st.wsdst
    | 0x2020 => st.wslen &&& 0xF000000000000000
    | _ => 0

/-- A link's register as it reads: EN, then STATE, the round trip, the peer's MID and link number (log 22). -/
def Link.read (l : Link) (k : Nat) : Word :=
  BitVec.ofNat 64 (match k with
    | 0 => l.en.toNat
    | 1 => l.state
    | 2 => l.rtt
    | 3 => l.peerMid
    | 4 => l.peerLink
    | _ => 0)

/-- A telemetry register (17 R363). -/
def Telem.read (t : Telem) (k : Nat) : Word :=
  [t.klookn, t.klhit, t.klmiss, t.collcnt, t.brkcnt, t.evict0, t.demote, t.sfull, t.pwr, t.temp, t.bfrz, t.forced, t.replay, t.redisp].getD k 0

/-- An error bank's register (16 R360). -/
def ErrBank.read (b : ErrBank) (k : Nat) : Word := [b.ece, b.ecea, b.eue, b.euea].getD k 0

/-- A control register of the core in focus as the driver reads it (R307; 16 Table 16.2). -/
def State.readCore (s : State) (n : Nat) : Word :=
  let d := s.core.drv
  match n with
  | 0x800 => match s.core.task with
    | some t => t.asid.zeroExtend 64
    | none => 0
  | 0x801 => d.cctl
  | 0x802 => d.caddr
  | 0x803 => d.frec
  | 0x804 => d.fpc
  | 0x805 => d.finfo
  | n => if n < 0x800 then (s.creg n).getD 0 else 0

/-- A read of `n` bytes at a BAR 0 offset: zero where no table assigns a register, where the access is not of an aligned eight bytes, and
while the module is FAILED (R309). -/
def State.readReg (s : State) (off n : Nat) : Word :=
  if n ≠ 8 ∨ off % 8 ≠ 0 ∨ s.mstate = 15 then 0
  else if off < 0x1000 then s.readModule off
  else if 0x10000 ≤ off ∧ off < 0x12000 then
    let k := s.queue ((off - 0x10000) / 32)
    [k.lq0, k.lq1, k.lq2, k.lq3].getD (off / 8 % 4) 0
  else if 0x100000 ≤ off ∧ off < 0x180000 then s.readStack ((off - 0x100000) / 0x10000) (off % 0x10000)
  else if 0x200000 ≤ off ∧ off < 0x200400 then (s.link ((off - 0x200000) / 64)).read (off / 8 % 8)
  else if 0x300000 ≤ off ∧ off < 0x300800 then
    let d := (off - 0x300000) / 8
    s.routeEntry d
  else if 0x400000 ≤ off ∧ off < 0x400000 + 64 * 65 then (s.bank ((off - 0x400000) / 64)).read (off / 8 % 8)
  else if 0x500000 ≤ off ∧ off < 0x500070 then s.regs.telem.read ((off - 0x500000) / 8)
  else if 0x1000000 ≤ off ∧ off < 0x1000000 + 0x8000 * 896 then
    match (s.withCore ((off - 0x1000000) / 0x8000)).focus ((off - 0x1000000) / 0x8000) with
    | some t => t.readCore (off / 8 % 0x1000)
    | none => 0
  else 0

end Sys2Proof.Machine
end

