-- ==== Sys2Proof/Machine/Scalar.lean ====
section
/-! DEFINITION. The scalar slot (08 Table 8.1). -/
namespace Sys2Proof.Machine
open Sys2Proof

/-- NOP (R216): no effect. -/
def execNop (h : Head) (s : State) : Host.Outcome State Fault Refusal :=
  issue h 0 s (.ok s)

/-- ADD (R188). -/
def execAdd (h : Head) (o : SR) (s : State) : Host.Outcome State Fault Refusal :=
  issue h 0 s (xResult h 1 s o.d (s.core.x o.a + s.core.x o.b))

/-- ADDI (R188). -/
def execAddi (h : Head) (o : SI) (s : State) : Host.Outcome State Fault Refusal :=
  issue h 0 s (xResult h 1 s o.d (s.core.x o.a + immS o.imm))

/-- SUB (R188). -/
def execSub (h : Head) (o : SR) (s : State) : Host.Outcome State Fault Refusal :=
  issue h 0 s (xResult h 1 s o.d (s.core.x o.a - s.core.x o.b))

/-- MUL (R188): low half of the product. -/
def execMul (h : Head) (o : SR) (s : State) : Host.Outcome State Fault Refusal :=
  issue h 0 s (xResult h 3 s o.d (s.core.x o.a * s.core.x o.b))

/-- MULH (R188): high half of the signed product. -/
def execMulh (h : Head) (o : SR) (s : State) : Host.Outcome State Fault Refusal :=
  issue h 0 s (xResult h 3 s o.d (opMulh (s.core.x o.a) (s.core.x o.b)))

/-- MULHZ (R188): high half of the unsigned product. -/
def execMulhz (h : Head) (o : SR) (s : State) : Host.Outcome State Fault Refusal :=
  issue h 0 s (xResult h 3 s o.d (opMulhz (s.core.x o.a) (s.core.x o.b)))

/-- DIV (R189). -/
def execDiv (h : Head) (o : SR) (s : State) : Host.Outcome State Fault Refusal :=
  issue h 0 s (xResult h 18 s o.d ((divide (s.core.x o.a) (s.core.x o.b) true).1))

/-- DIVZ (R189). -/
def execDivz (h : Head) (o : SR) (s : State) : Host.Outcome State Fault Refusal :=
  issue h 0 s (xResult h 18 s o.d ((divide (s.core.x o.a) (s.core.x o.b) false).1))

/-- REM (R189). -/
def execRem (h : Head) (o : SR) (s : State) : Host.Outcome State Fault Refusal :=
  issue h 0 s (xResult h 18 s o.d ((divide (s.core.x o.a) (s.core.x o.b) true).2))

/-- REMZ (R189). -/
def execRemz (h : Head) (o : SR) (s : State) : Host.Outcome State Fault Refusal :=
  issue h 0 s (xResult h 18 s o.d ((divide (s.core.x o.a) (s.core.x o.b) false).2))

/-- AND (R188). -/
def execAnd (h : Head) (o : SR) (s : State) : Host.Outcome State Fault Refusal :=
  issue h 0 s (xResult h 1 s o.d (s.core.x o.a &&& s.core.x o.b))

/-- OR (R188). -/
def execOr (h : Head) (o : SR) (s : State) : Host.Outcome State Fault Refusal :=
  issue h 0 s (xResult h 1 s o.d (s.core.x o.a ||| s.core.x o.b))

/-- XOR (R188). -/
def execXor (h : Head) (o : SR) (s : State) : Host.Outcome State Fault Refusal :=
  issue h 0 s (xResult h 1 s o.d (s.core.x o.a ^^^ s.core.x o.b))

/-- ANDN (R188). -/
def execAndn (h : Head) (o : SR) (s : State) : Host.Outcome State Fault Refusal :=
  issue h 0 s (xResult h 1 s o.d (s.core.x o.a &&& ~~~(s.core.x o.b)))

/-- ANDI (R188, R191): imm23 zero-extended. -/
def execAndi (h : Head) (o : SI) (s : State) : Host.Outcome State Fault Refusal :=
  issue h 0 s (xResult h 1 s o.d (s.core.x o.a &&& immZ o.imm))

/-- ORI (R188). -/
def execOri (h : Head) (o : SI) (s : State) : Host.Outcome State Fault Refusal :=
  issue h 0 s (xResult h 1 s o.d (s.core.x o.a ||| immZ o.imm))

/-- XORI (R188). -/
def execXori (h : Head) (o : SI) (s : State) : Host.Outcome State Fault Refusal :=
  issue h 0 s (xResult h 1 s o.d (s.core.x o.a ^^^ immZ o.imm))

/-- SHL (R188). -/
def execShl (h : Head) (o : SR) (s : State) : Host.Outcome State Fault Refusal :=
  issue h 0 s (xResult h 1 s o.d (opShl (s.core.x o.a) (s.core.x o.b).toNat))

/-- SHR (R188). -/
def execShr (h : Head) (o : SR) (s : State) : Host.Outcome State Fault Refusal :=
  issue h 0 s (xResult h 1 s o.d (opShr (s.core.x o.a) (s.core.x o.b).toNat))

/-- SHRA (R188). -/
def execShra (h : Head) (o : SR) (s : State) : Host.Outcome State Fault Refusal :=
  issue h 0 s (xResult h 1 s o.d (opShra (s.core.x o.a) (s.core.x o.b).toNat))

/-- SHLI (R188). -/
def execShli (h : Head) (o : SI) (s : State) : Host.Outcome State Fault Refusal :=
  issue h 0 s (xResult h 1 s o.d (opShl (s.core.x o.a) (immN o.imm).toNat))

/-- SHRI (R188). -/
def execShri (h : Head) (o : SI) (s : State) : Host.Outcome State Fault Refusal :=
  issue h 0 s (xResult h 1 s o.d (opShr (s.core.x o.a) (immN o.imm).toNat))

/-- SHRAI (R188). -/
def execShrai (h : Head) (o : SI) (s : State) : Host.Outcome State Fault Refusal :=
  issue h 0 s (xResult h 1 s o.d (opShra (s.core.x o.a) (immN o.imm).toNat))

/-- ROT (R188): rotated right. -/
def execRot (h : Head) (o : SR) (s : State) : Host.Outcome State Fault Refusal :=
  issue h 0 s (xResult h 1 s o.d (opRot (s.core.x o.a) (s.core.x o.b).toNat))

/-- CLZ (R188). -/
def execClz (h : Head) (o : SR) (s : State) : Host.Outcome State Fault Refusal :=
  issue h 0 s (xResult h 1 s o.d (opClz (s.core.x o.a)))

/-- POPC (R188). -/
def execPopc (h : Head) (o : SR) (s : State) : Host.Outcome State Fault Refusal :=
  issue h 0 s (xResult h 1 s o.d (opPopc (s.core.x o.a)))

/-- MIN (R188), signed. -/
def execMin (h : Head) (o : SR) (s : State) : Host.Outcome State Fault Refusal :=
  issue h 0 s (xResult h 1 s o.d (if (s.core.x o.a).toInt ≤ (s.core.x o.b).toInt then s.core.x o.a else s.core.x o.b))

/-- MAX (R188), signed. -/
def execMax (h : Head) (o : SR) (s : State) : Host.Outcome State Fault Refusal :=
  issue h 0 s (xResult h 1 s o.d (if (s.core.x o.a).toInt ≤ (s.core.x o.b).toInt then s.core.x o.b else s.core.x o.a))

/-- MINZ (R188), unsigned. -/
def execMinz (h : Head) (o : SR) (s : State) : Host.Outcome State Fault Refusal :=
  issue h 0 s (xResult h 1 s o.d (if (s.core.x o.a).toNat ≤ (s.core.x o.b).toNat then s.core.x o.a else s.core.x o.b))

/-- MAXZ (R188), unsigned. -/
def execMaxz (h : Head) (o : SR) (s : State) : Host.Outcome State Fault Refusal :=
  issue h 0 s (xResult h 1 s o.d (if (s.core.x o.a).toNat ≤ (s.core.x o.b).toNat then s.core.x o.b else s.core.x o.a))

/-- MOV (R188). -/
def execMov (h : Head) (o : SR) (s : State) : Host.Outcome State Fault Refusal :=
  issue h 0 s (xResult h 1 s o.d (s.core.x o.a))

/-- MOVI (R188): reads no register. -/
def execMovi (h : Head) (o : SI) (s : State) : Host.Outcome State Fault Refusal :=
  issue h 0 s (xResult h 1 s o.d (immS o.imm))

/-- EXT (R190). -/
def execExt (h : Head) (o : SR) (s : State) : Host.Outcome State Fault Refusal :=
  issue h 0 s (xResult h 1 s o.d (opExt (s.core.x o.a) (s.core.x o.b)))

/-- INS (R190): reads x[d] too. -/
def execIns (h : Head) (o : SR) (s : State) : Host.Outcome State Fault Refusal :=
  issue h 0 s (xResult h 1 s o.d (opIns (s.core.x o.d) (s.core.x o.a) (s.core.x o.b)))

/-- LEA (R190). -/
def execLea (h : Head) (o : SR) (s : State) : Host.Outcome State Fault Refusal :=
  issue h 0 s (xResult h 1 s o.d (opLea (s.core.x o.a) (s.core.x o.b) o.c.toNat))

/-- SEXT (R190). -/
def execSext (h : Head) (o : SR) (s : State) : Host.Outcome State Fault Refusal :=
  issue h 0 s (xResult h 1 s o.d (opSext (s.core.x o.a) o.c.toNat))

/-- Address and width of LDSP and STSP (R192): A = (x[a] + SignExtend(off21)) mod 2^64, b = 2^(sz mod 4). -/
def spAddr (c : Core) (o : SP) : Nat := (c.x o.a + o.off.signExtend 64).toNat
def spBytes (o : SP) : Nat := 2 ^ (o.sz.toNat % 4)

/-- The faults of R192, ALIGN before XLATE (07 R175); none where the access is good. -/
def State.spFault (s : State) (o : SP) : Option Nat :=
  if spAddr s.core o % spBytes o ≠ 0 then some cALIGN
  else if s.okBank (spAddr s.core o) then none else some cXLATE

/-- LDSP (R192): reads member 0 at issue, front bank of a pair; lands at c + 6. -/
def execLdsp (h : Head) (o : SP) (s : State) : Host.Outcome State Fault Refusal :=
  issue h 0 s (
    match s.spFault o with
    | some code => .fault code 0xFF (BitVec.ofNat 64 (spAddr s.core o))
    | none =>
      let v := leNat (s.bankRead 0 (spAddr s.core o) (spBytes o))
      let w : Word := if o.sz.toNat < 4 then BitVec.ofInt 64 (toS (8 * spBytes o) v) else BitVec.ofNat 64 v
      .ok { s with core := s.core.push 0 6 (.x o.d w) })

/-- STSP (R192): writes x[d], read at issue, in every member at c + 2, front bank of a pair. -/
def execStsp (h : Head) (o : SP) (s : State) : Host.Outcome State Fault Refusal :=
  issue h 0 s (
    match s.spFault o with
    | some code => .fault code 0xFF (BitVec.ofNat 64 (spAddr s.core o))
    | none =>
      .ok { s with core := s.core.pushBank 2 (s.bankCellsAll false (spAddr s.core o) (leBytes (spBytes o) (s.core.x o.d).toNat)) })

/-- CMP (R193). -/
def execCmp (h : Head) (o : SC) (s : State) : Host.Outcome State Fault Refusal :=
  issue h 0 s (cmpResult (.cmp h o) h s o.ft o.ff (cmpTruth o.cc o.z (s.core.x o.a) (cmpOperand s.core o)))

/-- CMPI (R193): the literal is the second operand. -/
def execCmpi (h : Head) (o : SC) (lit : Word) (s : State) : Host.Outcome State Fault Refusal :=
  issue h 0 s (cmpResult (.cmpi h o lit) h s o.ft o.ff (cmpTruth o.cc o.z (s.core.x o.a) lit))

/-- TBIT (R193). -/
def execTbit (h : Head) (o : SC) (s : State) : Host.Outcome State Fault Refusal :=
  issue h 0 s (cmpResult (.tbit h o) h s o.ft o.ff (tbitTruth o.cc (s.core.x o.a) (tbitIndex s.core o)))

/-- PSET (R194). -/
def execPset (h : Head) (o : SR) (s : State) : Host.Outcome State Fault Refusal :=
  issue h 0 s (scalarResult h 1 s (BitVec.ofNat 64 (decide (s.core.x o.a ≠ 0)).toNat)
    (fun r => [.f (fmask (o.d.extractLsb' 0 4)) (fval (o.d.extractLsb' 0 4) (r == 1))]))

/-- PGET (R194). -/
def execPget (h : Head) (o : SR) (s : State) : Host.Outcome State Fault Refusal :=
  issue h 0 s (xResult h 1 s o.d (s.core.fAll.zeroExtend 64))

/-- PPUT (R194). -/
def execPput (h : Head) (o : SR) (s : State) : Host.Outcome State Fault Refusal :=
  issue h 0 s (scalarResult h 1 s (((s.core.x o.a).extractLsb' 0 16).zeroExtend 64)
    (fun r => [.f ((s.core.x o.b).extractLsb' 0 16) (r.extractLsb' 0 16)]))

/-- The decisions of the three copies of CMPT, 1 for a mismatch (R186). -/
def cmptCopies (c : Core) (a b : Word) : Word × Word × Word :=
  let t := triCopies c a
  let d (v : Word) : Word := if v = b then 0 else 1
  (d t.1, d t.2.1, d t.2.2)

/-- The decision of CMPT: the operands differ; under TRI by vote of the three copies (R186, R195). -/
def cmptDiffers (h : Head) (c : Core) (a b : Word) : Bool :=
  if h.tri then
    let t := cmptCopies c a b
    vote t.1 t.2.1 t.2.2 == some 1
  else a != b

/-- Byte position of the first byte in which two words differ (16 Table 16.2). -/
def firstDiff (a b : Word) : Nat :=
  ((List.range 8).find? (fun k => a.extractLsb' (8 * k) 8 != b.extractLsb' (8 * k) 8)).getD 0

/-- CMPT (R195): a mismatch raises the recovered fault CMPT at the bundle; under TRI a single disagreeing decision is logged
either way (R186). -/
def execCmpt (h : Head) (o : SR) (s : State) : Host.Outcome State Fault Refusal :=
  let a := s.core.x o.a
  let b := s.core.x o.b
  let t := cmptCopies s.core a b
  if s.core.enabled h then
    if cmptDiffers h s.core a b then settle 0 (if h.tri then s.triLogFault t else s) (.fault cCMPT 0xFF (BitVec.ofNat 64 (firstDiff a b)))
    else if h.tri then .next { s.triLog t with core := (s.triLog t).core.clearUpset }
    else .next s
  else .next s

/-- BR (R197): to its SJ target. -/
def execBr (h : Head) (o : SJ) (s : State) : Host.Outcome State Fault Refusal :=
  issue h 0 s (.ok (s.boundary (.jump (sjTarget s.core.front.pc o))))

/-- BRM (R198): to target j for the least j < n with f[fj] true. -/
def execBrm (h : Head) (o : SM) (lit : Word) (s : State) : Host.Outcome State Fault Refusal :=
  issue h 0 s (
    match ([o.fa, o.fb, o.fc, o.fd].take o.n.toNat).findIdx? (fun f => s.core.f f) with
    | some j => .ok (s.boundary (.jump (smTarget s.core.front.pc lit j)))
    | none => .ok s)

/-- JMP (R197). -/
def execJmp (h : Head) (o : SR) (s : State) : Host.Outcome State Fault Refusal :=
  issue h 0 s (.ok (s.boundary (.jump ((s.core.x o.a).extractLsb' 0 56))))

/-- CALL (R197): also x63 := the address after the bundle, at c + 1. -/
def execCall (h : Head) (o : SJ) (s : State) : Host.Outcome State Fault Refusal :=
  issue h 0 s (.ok
    (State.boundary { s with core := s.core.push 0 1 (.x 63 (s.core.front.nextPc.zeroExtend 64)) } (.jump (sjTarget s.core.front.pc o))))

/-- RET (R197): the same effect as JMP. -/
def execRet (h : Head) (o : SR) (s : State) : Host.Outcome State Fault Refusal :=
  issue h 0 s (.ok (s.boundary (.jump ((s.core.x o.a).extractLsb' 0 56))))

/-- WOFF after one rotation (R199). -/
def rotated (vview : Word) : BitVec 10 :=
  let rsize := fld vview 32 11
  if rsize = 0 then BitVec.ofNat 10 (fld vview 43 10) else BitVec.ofNat 10 ((fld vview 43 10 + 1) % rsize)

/-- BRLOOP (R199): rotation, count and branch, together at the boundary. -/
def execBrloop (h : Head) (o : SJ) (s : State) : Host.Outcome State Fault Refusal :=
  issue h 0 s (
    let s1 := s.boundary (.woff (rotated s.core.ctl.vview))
    if 1 < s.core.ctl.iter.toNat then
      .ok ((s1.boundary (.ctl 0x01A (s.core.ctl.iter - 1))).boundary (.jump (sjTarget s.core.front.pc o)))
    else .ok (s1.boundary (.ctl 0x01A 0)))

/-- END (R200; 02 R52): halts fetch after its bundle; ILLOP in a trap handler. -/
def execEndTask (h : Head) (s : State) : Host.Outcome State Fault Refusal :=
  issue h 0 s (
    if s.core.inHandler then .illop (.endTask h) else .ok (s.irrevocable.boundary .halt))

/-- The lowest-numbered token of a mask that holds an error (03 R83). -/
def Core.tokenError (c : Core) (m : BitVec 8) : Option (Nat × Nat) :=
  (List.range 8).findSome? (fun n =>
    if m.getLsbD n && (vget c.units.tokens n Token.zero).err != 0 then some (n, (vget c.units.tokens n Token.zero).err.toNat) else none)

/-- WAIT (R201; 03 R83): held until the masked counts are zero, then raises the lowest token's error. -/
def execWait (h : Head) (o : SI) (s : State) : Host.Outcome State Fault Refusal :=
  issue h 0 s (
    let m := (immN o.imm).extractLsb' 0 8
    if s.holdClear (.tokens m) then
      match s.core.tokenError m with
      | some (n, code) => .fault code n 0
      | none => .ok s
    else .hold [.tokens m])

/-- FMT (R202): the sum lands in FMT at c + 4; a bad code is ILLOP (04 R97). -/
def execFmt (h : Head) (o : SI) (s : State) : Host.Outcome State Fault Refusal :=
  issue h 0 s (
    let v := (s.core.x o.a + immS o.imm) &&& cregMask 0
    if okFmt v then .ok { s with core := s.core.push 0 4 (.ctl 0 v) } else .illop (.fmt h o))

/-- VVIEW with another window offset. -/
def withWoff (vview : Word) (w : BitVec 10) : Word := putFld vview 43 10 w.toNat

/-- VIEW (R203): a view register or WOFF, at the boundary; ILLOP where R70 refuses. -/
def execView (h : Head) (o : SI) (s : State) : Host.Outcome State Fault Refusal :=
  issue h 0 s (
    let v := s.core.x o.a + immS o.imm
    if o.d = 3 then
      let w := v.extractLsb' 0 10
      if okVview (withWoff s.core.ctl.vview w) then .ok (s.boundary (.woff w)) else .illop (.view h o)
    else
      let n := 2 + o.d.toNat
      if s.cregOk n (v &&& cregMask n) then .ok (s.boundary (.ctl (BitVec.ofNat 12 n) v)) else .illop (.view h o))

/-- MVFC (R204, R176): PRIV from 0x800 up; ILLOP where no register is. -/
def execMvfc (h : Head) (o : SI) (s : State) : Host.Outcome State Fault Refusal :=
  issue h 0 s (
    let n := ((immN o.imm).extractLsb' 0 12).toNat
    if 0x800 ≤ n then .fault cPRIV 0xFF (slotWord (.mvfc h o))
    else match s.creg n with
      | none => .illop (.mvfc h o)
      | some v => .ok { s with core := s.core.push 0 1 (.x o.d v) })

/-- MVTC (R205, R176): FMT and TOL at c + 4, the others at the boundary; a ring in use holds it (03 R63). -/
def execMvtc (h : Head) (o : SI) (s : State) : Host.Outcome State Fault Refusal :=
  issue h 0 s (
    let n := ((immN o.imm).extractLsb' 0 12).toNat
    let v := s.core.x o.a
    if 0x800 ≤ n then .fault cPRIV 0xFF (slotWord (.mvtc h o))
    else if !cregWritable n || !s.cregOk n (v &&& cregMask n) then .illop (.mvtc h o)
    else if n = 0 ∨ n = 1 then .ok { s with core := s.core.push 0 4 (.ctl (BitVec.ofNat 12 n) (v &&& cregMask n)) }
    else if 0x010 ≤ n ∧ n ≤ 0x017 then
      let r : HRing := BitVec.ofNat 3 (n - 0x010)
      if s.core.ringInUse r then .hold [.ringBusy r] else .ok (s.boundary (.ring r v))
    else .ok (s.boundary (.ctl (BitVec.ofNat 12 n) v)))

/-- The ILLOP conditions of LOCK (R206). -/
def State.lockBad (s : State) (m : BitVec 8) : Bool :=
  let c := s.core
  c.lockm != 0 || !m.getLsbD c.pos || decide (popCount 8 m.toNat < 2) ||
  !(List.range 8).all (fun p => !m.getLsbD p || p == c.pos || s.teammates.any (fun k => k.pos == p)) ||
  s.peers.any (fun k => k.front.held && k.front.holds.any (fun hd =>
    match hd with
    | .lock w => (w.getLsbD c.pos && w != s.lockMask m) || (m.getLsbD k.pos && !w.getLsbD c.pos)
    | _ => false))

/-- LOCK (R206): held until every core named has the same LOCK held; the group stands from the boundary on. -/
def execLock (h : Head) (o : SI) (s : State) : Host.Outcome State Fault Refusal :=
  issue h 0 s (
    let m := (immN o.imm).extractLsb' 0 8
    if s.core.front.granted && s.lockAgreed m then
      let w := s.lockMask m
      .ok (s.irrevocable.boundary (.lockm (if popCount 8 w.toNat < 2 then 0 else w)))
    else if s.lockBad m then .illop (.lock h o)
    else .hold [.lock (s.lockMask m)])

/-- UNLOCK (R207; 14 R298): in a group, held until every member has one held; then all leave; else only irrevocable. -/
def execUnlock (h : Head) (s : State) : Host.Outcome State Fault Refusal :=
  issue h 0 s (
    if s.core.lockm = 0 then .ok s.irrevocable
    else if s.core.front.granted then .ok (s.irrevocable.boundary (.lockm 0))
    else .hold [.unlock])

/-- The lowest token with a deferred speculative error (R210 step 2). -/
def Core.deferredError (c : Core) : Option (Nat × Nat) :=
  (List.range 8).findSome? (fun n =>
    let t := vget c.units.tokens n Token.zero
    if t.defErr != 0 then some (n, t.defErr.toNat) else none)

/-- BFLIP (R210): held by work in flight, faults on a deferred error, then 24 empty cycles and the boundary of `flipDone`. -/
def execBflip (h : Head) (s : State) : Host.Outcome State Fault Refusal :=
  issue h 0 s (
    if s.flipBusy then .hold [.flip]
    else match s.core.deferredError with
      | some (n, code) => .fault code n 0
      | none => .ok (s.boundary .flip))

/-- A speculative command leaves its token without a trace (R212). -/
def Core.cancelCmd (c : Core) (k : Cmd) : Core :=
  c.setToken k.tok (c.token k.tok).drop

/-- SPECX (R212): cancels speculative commands, their counts, deferred errors and pins; marks the back banks they touch. -/
def execSpecx (h : Head) (s : State) : Host.Outcome State Fault Refusal :=
  issue h 0 s (
    let gone := s.core.units.cmds.filter (fun k => k.spec)
    let s := gone.foldl State.specMarks s
    let c := s.core
    let c1 := gone.foldl (fun c k => c.cancelCmd k) c
    let toks := c1.units.tokens.map (fun t => { t with spec := false, defErr := 0 })
    let inv := c.phase.invalid.map (fun m => m ||| c.phase.specBanks)
    .ok (gone.foldl State.kAbandon { s with
      core := { c1 with units := { c1.units with tokens := toks, cmds := c.units.cmds.filter (fun k => !k.spec) },
                        phase := { c.phase with invalid := inv } } }))

/-- TRAP (R213): requests the trap after its bundle; ILLOP while a handler runs (03 R87). -/
def execTrap (h : Head) (o : SI) (s : State) : Host.Outcome State Fault Refusal :=
  issue h 0 s (
    if s.core.inHandler then .illop (.trap h o)
    else .ok { s.irrevocable with core := { s.irrevocable.core with front := { s.irrevocable.core.front with trapReq := some (immN o.imm) } } })

/-- ERET (R214; 03 R86): ILLOP outside a handler; else drains the handler's results and resumes at EPC. -/
def execEret (h : Head) (s : State) : Host.Outcome State Fault Refusal :=
  issue h 0 s (
    if s.core.inHandler then .ok (s.boundary .drain) else .illop (.eret h))

/-- TICK (R215): the domain time base, at c + 3. -/
def execTick (h : Head) (o : SR) (s : State) : Host.Outcome State Fault Refusal :=
  issue h 0 s (.ok { s with core := s.core.push 0 3 (.x o.d s.regs.m.tbase) })

end Sys2Proof.Machine
end

