-- ==== Sys2Proof/Machine/Dispatch.lean ====
section
/-! DEFINITION. One arm for each constructor of `Instr`, each a direct call of its meaning. -/
namespace Sys2Proof.Machine
open Sys2Proof

/-- The meaning of an instruction or event. -/
def exec (i : Instr) (s : State) : Host.Outcome State Fault Refusal :=
  match i with
  | .nop h => Sys2Proof.Machine.execNop h s
  | .add h o => Sys2Proof.Machine.execAdd h o s
  | .addi h o => Sys2Proof.Machine.execAddi h o s
  | .sub h o => Sys2Proof.Machine.execSub h o s
  | .mul h o => Sys2Proof.Machine.execMul h o s
  | .mulh h o => Sys2Proof.Machine.execMulh h o s
  | .mulhz h o => Sys2Proof.Machine.execMulhz h o s
  | .div h o => Sys2Proof.Machine.execDiv h o s
  | .divz h o => Sys2Proof.Machine.execDivz h o s
  | .rem h o => Sys2Proof.Machine.execRem h o s
  | .remz h o => Sys2Proof.Machine.execRemz h o s
  | .and h o => Sys2Proof.Machine.execAnd h o s
  | .or h o => Sys2Proof.Machine.execOr h o s
  | .xor h o => Sys2Proof.Machine.execXor h o s
  | .andn h o => Sys2Proof.Machine.execAndn h o s
  | .andi h o => Sys2Proof.Machine.execAndi h o s
  | .ori h o => Sys2Proof.Machine.execOri h o s
  | .xori h o => Sys2Proof.Machine.execXori h o s
  | .shl h o => Sys2Proof.Machine.execShl h o s
  | .shr h o => Sys2Proof.Machine.execShr h o s
  | .shra h o => Sys2Proof.Machine.execShra h o s
  | .shli h o => Sys2Proof.Machine.execShli h o s
  | .shri h o => Sys2Proof.Machine.execShri h o s
  | .shrai h o => Sys2Proof.Machine.execShrai h o s
  | .rot h o => Sys2Proof.Machine.execRot h o s
  | .clz h o => Sys2Proof.Machine.execClz h o s
  | .popc h o => Sys2Proof.Machine.execPopc h o s
  | .min h o => Sys2Proof.Machine.execMin h o s
  | .max h o => Sys2Proof.Machine.execMax h o s
  | .minz h o => Sys2Proof.Machine.execMinz h o s
  | .maxz h o => Sys2Proof.Machine.execMaxz h o s
  | .mov h o => Sys2Proof.Machine.execMov h o s
  | .movi h o => Sys2Proof.Machine.execMovi h o s
  | .ext h o => Sys2Proof.Machine.execExt h o s
  | .ins h o => Sys2Proof.Machine.execIns h o s
  | .lea h o => Sys2Proof.Machine.execLea h o s
  | .sext h o => Sys2Proof.Machine.execSext h o s
  | .ldsp h o => Sys2Proof.Machine.execLdsp h o s
  | .stsp h o => Sys2Proof.Machine.execStsp h o s
  | .cmp h o => Sys2Proof.Machine.execCmp h o s
  | .cmpi h o lit => Sys2Proof.Machine.execCmpi h o lit s
  | .tbit h o => Sys2Proof.Machine.execTbit h o s
  | .pset h o => Sys2Proof.Machine.execPset h o s
  | .pget h o => Sys2Proof.Machine.execPget h o s
  | .pput h o => Sys2Proof.Machine.execPput h o s
  | .cmpt h o => Sys2Proof.Machine.execCmpt h o s
  | .br h o => Sys2Proof.Machine.execBr h o s
  | .brm h o lit => Sys2Proof.Machine.execBrm h o lit s
  | .jmp h o => Sys2Proof.Machine.execJmp h o s
  | .call h o => Sys2Proof.Machine.execCall h o s
  | .ret h o => Sys2Proof.Machine.execRet h o s
  | .brloop h o => Sys2Proof.Machine.execBrloop h o s
  | .endTask h => Sys2Proof.Machine.execEndTask h s
  | .wait h o => Sys2Proof.Machine.execWait h o s
  | .fmt h o => Sys2Proof.Machine.execFmt h o s
  | .view h o => Sys2Proof.Machine.execView h o s
  | .mvfc h o => Sys2Proof.Machine.execMvfc h o s
  | .mvtc h o => Sys2Proof.Machine.execMvtc h o s
  | .lock h o => Sys2Proof.Machine.execLock h o s
  | .unlock h => Sys2Proof.Machine.execUnlock h s
  | .bflip h => Sys2Proof.Machine.execBflip h s
  | .specx h => Sys2Proof.Machine.execSpecx h s
  | .trap h o => Sys2Proof.Machine.execTrap h o s
  | .eret h => Sys2Proof.Machine.execEret h s
  | .tick h o => Sys2Proof.Machine.execTick h o s
  | .vnop h => Sys2Proof.Machine.execVnop h s
  | .vadd h o => Sys2Proof.Machine.execVadd h o s
  | .vsub h o => Sys2Proof.Machine.execVsub h o s
  | .vmul h o => Sys2Proof.Machine.execVmul h o s
  | .vmad h o => Sys2Proof.Machine.execVmad h o s
  | .vmin h o => Sys2Proof.Machine.execVmin h o s
  | .vmax h o => Sys2Proof.Machine.execVmax h o s
  | .vabs h o => Sys2Proof.Machine.execVabs h o s
  | .vneg h o => Sys2Proof.Machine.execVneg h o s
  | .vand h o => Sys2Proof.Machine.execVand h o s
  | .vor h o => Sys2Proof.Machine.execVor h o s
  | .vxor h o => Sys2Proof.Machine.execVxor h o s
  | .vshl h o => Sys2Proof.Machine.execVshl h o s
  | .vshr h o => Sys2Proof.Machine.execVshr h o s
  | .vshra h o => Sys2Proof.Machine.execVshra h o s
  | .vclz h o => Sys2Proof.Machine.execVclz h o s
  | .vpopc h o => Sys2Proof.Machine.execVpopc h o s
  | .vwadd h o => Sys2Proof.Machine.execVwadd h o s
  | .vwmad h o => Sys2Proof.Machine.execVwmad h o s
  | .vsat h o => Sys2Proof.Machine.execVsat h o s
  | .vcvt h o => Sys2Proof.Machine.execVcvt h o s
  | .vrcp h o => Sys2Proof.Machine.execVrcp h o s
  | .vrsq h o => Sys2Proof.Machine.execVrsq h o s
  | .vexp2 h o => Sys2Proof.Machine.execVexp2 h o s
  | .vlog2 h o => Sys2Proof.Machine.execVlog2 h o s
  | .vcmp h o => Sys2Proof.Machine.execVcmp h o s
  | .vpset h o => Sys2Proof.Machine.execVpset h o s
  | .vpcnt h o => Sys2Proof.Machine.execVpcnt h o s
  | .vpany h o => Sys2Proof.Machine.execVpany h o s
  | .vrsum h o => Sys2Proof.Machine.execVrsum h o s
  | .vrmax h o => Sys2Proof.Machine.execVrmax h o s
  | .vrmin h o => Sys2Proof.Machine.execVrmin h o s
  | .vscan h o => Sys2Proof.Machine.execVscan h o s
  | .vperm h o => Sys2Proof.Machine.execVperm h o s
  | .vbcast h o => Sys2Proof.Machine.execVbcast h o s
  | .vslide h o => Sys2Proof.Machine.execVslide h o s
  | .viota h o => Sys2Proof.Machine.execViota h o s
  | .vmov h o => Sys2Proof.Machine.execVmov h o s
  | .vmovi h o => Sys2Proof.Machine.execVmovi h o s
  | .vgetl h o => Sys2Proof.Machine.execVgetl h o s
  | .vputl h o => Sys2Proof.Machine.execVputl h o s
  | .vld h o => Sys2Proof.Machine.execVld h o s
  | .vst h o => Sys2Proof.Machine.execVst h o s
  | .vgather h o => Sys2Proof.Machine.execVgather h o s
  | .vscatter h o => Sys2Proof.Machine.execVscatter h o s
  | .vlds h o => Sys2Proof.Machine.execVlds h o s
  | .vsts h o => Sys2Proof.Machine.execVsts h o s
  | .vcmpt h o => Sys2Proof.Machine.execVcmpt h o s
  | .mnop h => Sys2Proof.Machine.execMnop h s
  | .mld h o => Sys2Proof.Machine.execMld h o s
  | .mst h o => Sys2Proof.Machine.execMst h o s
  | .mzero h o => Sys2Proof.Machine.execMzero h o s
  | .mma h o => Sys2Proof.Machine.execMma h o s
  | .mmas h o => Sys2Proof.Machine.execMmas h o s
  | .mnorm h o => Sys2Proof.Machine.execMnorm h o s
  | .mout h o => Sys2Proof.Machine.execMout h o s
  | .mcvt h o => Sys2Proof.Machine.execMcvt h o s
  | .mtrn h o => Sys2Proof.Machine.execMtrn h o s
  | .mfac h o => Sys2Proof.Machine.execMfac h o s
  | .lrmul h o => Sys2Proof.Machine.execLrmul h o s
  | .lradd h o => Sys2Proof.Machine.execLradd h o s
  | .mtemper h o => Sys2Proof.Machine.execMtemper h o s
  | .mdense h o => Sys2Proof.Machine.execMdense h o s
  | .lrmma h o => Sys2Proof.Machine.execLrmma h o s
  | .mrank h o => Sys2Proof.Machine.execMrank h o s
  | .cnop h => Sys2Proof.Machine.execCnop h s
  | .cpy h o => Sys2Proof.Machine.execCpy h o s
  | .cpyr h o => Sys2Proof.Machine.execCpyr h o s
  | .radv h o => Sys2Proof.Machine.execRadv h o s
  | .ldg h o => Sys2Proof.Machine.execLdg h o s
  | .stg h o => Sys2Proof.Machine.execStg h o s
  | .vldg h o => Sys2Proof.Machine.execVldg h o s
  | .vstg h o => Sys2Proof.Machine.execVstg h o s
  | .amo h o => Sys2Proof.Machine.execAmo h o s
  | .cas h o => Sys2Proof.Machine.execCas h o s
  | .fence h o => Sys2Proof.Machine.execFence h o s
  | .waitaddr h o => Sys2Proof.Machine.execWaitaddr h o s
  | .bind h o => Sys2Proof.Machine.execBind h o s
  | .unbind h o => Sys2Proof.Machine.execUnbind h o s
  | .bar h o => Sys2Proof.Machine.execBar h o s
  | .bara h o => Sys2Proof.Machine.execBara h o s
  | .barw h o => Sys2Proof.Machine.execBarw h o s
  | .sstep h o => Sys2Proof.Machine.execSstep h o s
  | .bcast h o => Sys2Proof.Machine.execBcast h o s
  | .latch h o => Sys2Proof.Machine.execLatch h o s
  | .lsend h o => Sys2Proof.Machine.execLsend h o s
  | .lrecv h o => Sys2Proof.Machine.execLrecv h o s
  | .khash h o => Sys2Proof.Machine.execKhash h o s
  | .klook h o => Sys2Proof.Machine.execKlook h o s
  | .kopen h o => Sys2Proof.Machine.execKopen h o s
  | .kwr h o => Sys2Proof.Machine.execKwr h o s
  | .kseal h o => Sys2Proof.Machine.execKseal h o s
  | .klease h o => Sys2Proof.Machine.execKlease h o s
  | .kref h o => Sys2Proof.Machine.execKref h o s
  | .kunref h o => Sys2Proof.Machine.execKunref h o s
  | .kld h o => Sys2Proof.Machine.execKld h o s
  | .krepl h o => Sys2Proof.Machine.execKrepl h o s
  | .kstat h o => Sys2Proof.Machine.execKstat h o s
  | .kdrop h o => Sys2Proof.Machine.execKdrop h o s
  | .resultLanding c => Sys2Proof.Machine.execResultLanding c s
  | .heldBundleIssue c => Sys2Proof.Machine.execHeldBundleIssue c s
  | .gatherFreezeEnd c => Sys2Proof.Machine.execGatherFreezeEnd c s
  | .bellowsFreezeEnd c => Sys2Proof.Machine.execBellowsFreezeEnd c s
  | .programTrapEntry c => Sys2Proof.Machine.execProgramTrapEntry c s
  | .eretResume c => Sys2Proof.Machine.execEretResume c s
  | .matrixReadHoldClear c => Sys2Proof.Machine.execMatrixReadHoldClear c s
  | .matrixComplete c => Sys2Proof.Machine.execMatrixComplete c s
  | .copyComplete c o => Sys2Proof.Machine.execCopyComplete c o s
  | .memoryAccessComplete c seq => Sys2Proof.Machine.execMemoryAccessComplete c seq s
  | .crucibleCommandComplete c seq => Sys2Proof.Machine.execCrucibleCommandComplete c seq s
  | .lsendDelivered c seq => Sys2Proof.Machine.execLsendDelivered c seq s
  | .waitaddrPoll c seq => Sys2Proof.Machine.execWaitaddrPoll c seq s
  | .waitaddrTimeout c seq => Sys2Proof.Machine.execWaitaddrTimeout c seq s
  | .wsRefreshWindowEnd stk grp => Sys2Proof.Machine.execWsRefreshWindowEnd stk grp s
  | .retryBackoffExpire c seq => Sys2Proof.Machine.execRetryBackoffExpire c seq s
  | .tailWordChange q => Sys2Proof.Machine.execTailWordChange q s
  | .launchRecord q => Sys2Proof.Machine.execLaunchRecord q s
  | .ageBoundary => Sys2Proof.Machine.execAgeBoundary s
  | .unplaceableReport serial => Sys2Proof.Machine.execUnplaceableReport serial s
  | .taskEntry c => Sys2Proof.Machine.execTaskEntry c s
  | .coreRetire c => Sys2Proof.Machine.execCoreRetire c s
  | .readMiss agent line => Sys2Proof.Machine.execReadMiss agent line s
  | .checkOut agent line => Sys2Proof.Machine.execCheckOut agent line s
  | .checkIn agent line => Sys2Proof.Machine.execCheckIn agent line s
  | .invalidation agent line => Sys2Proof.Machine.execInvalidation agent line s
  | .invalidationAck agent line => Sys2Proof.Machine.execInvalidationAck agent line s
  | .silentDrop agent line => Sys2Proof.Machine.execSilentDrop agent line s
  | .scPerform c seq => Sys2Proof.Machine.execScPerform c seq s
  | .stackRemoval stk => Sys2Proof.Machine.execStackRemoval stk s
  | .moduleRemoval mid => Sys2Proof.Machine.execModuleRemoval mid s
  | .hostSnoopResponse line => Sys2Proof.Machine.execHostSnoopResponse line s
  | .hostSnoop line inval store => Sys2Proof.Machine.execHostSnoop line inval store s
  | .hostCxlMemWrite a bytes => Sys2Proof.Machine.execHostCxlMemWrite a bytes s
  | .hostCxlMemRead a len => Sys2Proof.Machine.execHostCxlMemRead a len s
  | .cxlMemHeldTimeout idx => Sys2Proof.Machine.execCxlMemHeldTimeout idx s
  | .hdmDecoderCommit port dec m size => Sys2Proof.Machine.execHdmDecoderCommit port dec m size s
  | .sealComplete slot => Sys2Proof.Machine.execSealComplete slot s
  | .demoteComplete slot => Sys2Proof.Machine.execDemoteComplete slot s
  | .leaseExpire slot => Sys2Proof.Machine.execLeaseExpire slot s
  | .replicaBlockMoved c seq => Sys2Proof.Machine.execReplicaBlockMoved c seq s
  | .storeTick => Sys2Proof.Machine.execStoreTick s
  | .ueDetected c bank unit kind addr => Sys2Proof.Machine.execUeDetected c bank unit kind addr s
  | .ceDetected bank synd unit kind addr => Sys2Proof.Machine.execCeDetected bank synd unit kind addr s
  | .errorBankClear bank cev uev => Sys2Proof.Machine.execErrorBankClear bank cev uev s
  | .cctlPhase c => Sys2Proof.Machine.execCctlPhase c s
  | .cctlForce c => Sys2Proof.Machine.execCctlForce c s
  | .cctlResume c => Sys2Proof.Machine.execCctlResume c s
  | .cctlEnd c => Sys2Proof.Machine.execCctlEnd c s
  | .cctlCancel c => Sys2Proof.Machine.execCctlCancel c s
  | .contextSaveDone c => Sys2Proof.Machine.execContextSaveDone c s
  | .contextRestore c => Sys2Proof.Machine.execContextRestore c s
  | .contextRestoreDone c => Sys2Proof.Machine.execContextRestoreDone c s
  | .tokclr c mask => Sys2Proof.Machine.execTokclr c mask s
  | .xlrespRetry c unit => Sys2Proof.Machine.execXlrespRetry c unit s
  | .xlrespRefuse c unit => Sys2Proof.Machine.execXlrespRefuse c unit s
  | .evheadWrite v => Sys2Proof.Machine.execEvheadWrite v s
  | .kill asid => Sys2Proof.Machine.execKill asid s
  | .killDone => Sys2Proof.Machine.execKillDone s
  | .frameMigrate old new => Sys2Proof.Machine.execFrameMigrate old new s
  | .frameMigrateDone => Sys2Proof.Machine.execFrameMigrateDone s
  | .frameReleaseRemap => Sys2Proof.Machine.execFrameReleaseRemap s
  | .moduleReset => Sys2Proof.Machine.execModuleReset s
  | .fwauthDone ok0 ok1 ver0 ver1 sec0 sec1 => Sys2Proof.Machine.execFwauthDone ok0 ok1 ver0 ver1 sec0 sec1 s
  | .meminitDone hbmOk selfOk halves => Sys2Proof.Machine.execMeminitDone hbmOk selfOk halves s
  | .mstateGo => Sys2Proof.Machine.execMstateGo s
  | .hcfgWrite v => Sys2Proof.Machine.execHcfgWrite v s
  | .shootdown v => Sys2Proof.Machine.execShootdown v s
  | .shootdownDone => Sys2Proof.Machine.execShootdownDone s
  | .ovlinvByIdent => Sys2Proof.Machine.execOvlinvByIdent s
  | .ovlinvByAsid asid => Sys2Proof.Machine.execOvlinvByAsid asid s
  | .ovlinvAll => Sys2Proof.Machine.execOvlinvAll s
  | .nsCreate slot => Sys2Proof.Machine.execNsCreate slot s
  | .nsDestroy slot => Sys2Proof.Machine.execNsDestroy slot s
  | .nsRights slot => Sys2Proof.Machine.execNsRights slot s
  | .zadmit v => Sys2Proof.Machine.execZadmit v s
  | .lqEnable q v => Sys2Proof.Machine.execLqEnable q v s
  | .lqDisable q v => Sys2Proof.Machine.execLqDisable q v s
  | .lqRestart q => Sys2Proof.Machine.execLqRestart q s
  | .slabEntryWrite stk k v => Sys2Proof.Machine.execSlabEntryWrite stk k v s
  | .cbindWrite stk f v => Sys2Proof.Machine.execCbindWrite stk f v s
  | .bankRoleWrite stk k pairs v => Sys2Proof.Machine.execBankRoleWrite stk k pairs v s
  | .roleDrainDone stk k => Sys2Proof.Machine.execRoleDrainDone stk k s
  | .wsLoad stk v => Sys2Proof.Machine.execWsLoad stk v s
  | .wsLoadDone stk ue => Sys2Proof.Machine.execWsLoadDone stk ue s
  | .crmarkWrite v => Sys2Proof.Machine.execCrmarkWrite v s
  | .hlccfgWrite v => Sys2Proof.Machine.execHlccfgWrite v s
  | .limiterWrite off v => Sys2Proof.Machine.execLimiterWrite off v s
  | .thermalCapTick m => Sys2Proof.Machine.execThermalCapTick m s
  | .thermalShutdown die => Sys2Proof.Machine.execThermalShutdown die s
  | .linkEnable n => Sys2Proof.Machine.execLinkEnable n s
  | .linkTrained n ok rtt peerMid peerLink peerNmod peerInc => Sys2Proof.Machine.execLinkTrained n ok rtt peerMid peerLink peerNmod peerInc s
  | .routeWrite d v => Sys2Proof.Machine.execRouteWrite d v s
  | .routeSwitch d => Sys2Proof.Machine.execRouteSwitch d s
  | .registerWrite off v => Sys2Proof.Machine.execRegisterWrite off v s
  | .dataFlit n bytes => Sys2Proof.Machine.execDataFlit n bytes s
  | .linkNak n seq => Sys2Proof.Machine.execLinkNak n seq s
  | .linkPause n vl => Sys2Proof.Machine.execLinkPause n vl s
  | .linkResume n vl => Sys2Proof.Machine.execLinkResume n vl s
  | .linkCpause n ch => Sys2Proof.Machine.execLinkCpause n ch s
  | .linkCresume n ch => Sys2Proof.Machine.execLinkCresume n ch s
  | .linkIdle n ack => Sys2Proof.Machine.execLinkIdle n ack s
  | .nakRepeat n => Sys2Proof.Machine.execNakRepeat n s
  | .pauseRepeat n => Sys2Proof.Machine.execPauseRepeat n s
  | .resumeRepeat n => Sys2Proof.Machine.execResumeRepeat n s
  | .memoryRequestMsg n => Sys2Proof.Machine.execMemoryRequestMsg n s
  | .responseMsg n => Sys2Proof.Machine.execResponseMsg n s
  | .linkMessageMsg n => Sys2Proof.Machine.execLinkMessageMsg n s
  | .barrierMsg n => Sys2Proof.Machine.execBarrierMsg n s
  | .nodeDirectoryMsg n => Sys2Proof.Machine.execNodeDirectoryMsg n s
  | .timeBaseMsg n => Sys2Proof.Machine.execTimeBaseMsg n s
  | .managementMsg n => Sys2Proof.Machine.execManagementMsg n s
  | .pldmFirmwareUpdate ver sec bytes => Sys2Proof.Machine.execPldmFirmwareUpdate ver sec bytes s
  | .securityFloorAdvance => Sys2Proof.Machine.execSecurityFloorAdvance s
  | .spdmNegotiateAlgorithms => Sys2Proof.Machine.execSpdmNegotiateAlgorithms s
  | .spdmGetCertificate => Sys2Proof.Machine.execSpdmGetCertificate s
  | .spdmChallenge nonce => Sys2Proof.Machine.execSpdmChallenge nonce s
  | .spdmGetMeasurements idx => Sys2Proof.Machine.execSpdmGetMeasurements idx s
  | .powerUp => Sys2Proof.Machine.execPowerUp s
  | .powerRemoval => Sys2Proof.Machine.execPowerRemoval s
  | .cxlLinkDown port => Sys2Proof.Machine.execCxlLinkDown port s

end Sys2Proof.Machine
end

