-- ==== Sys2Proof/Machine/Issue.lean ====
section
/-! DEFINITION. The machine's next move (log 1): which core moves, the events that its state makes due,
the issue of a bundle with its holds and faults (03 R59, R63; 07 R175; 16 R345), empty cycles, lockstep groups (03 R63, R88;
08 R206 to R208; 11 R282), and what a waiting core's commands do meanwhile (log 8). -/
namespace Sys2Proof.Machine
open Sys2Proof

/-! ### Weights (14 R293 Table 14.2) -/

/-- Weight of a vector instruction. -/
def vectorWeight : Instr → Nat
  | .vnop _ => 0
  | .vadd _ o | .vsub _ o | .vmul _ o | .vmad _ o => if isInt o.ty then 6 else 9
  | .vwadd _ o | .vwmad _ o => if o.ty = .bf16 then 9 else 6
  | .vsat _ _ | .vcvt _ _ => 9
  | .vrcp _ _ | .vrsq _ _ | .vexp2 _ _ | .vlog2 _ _ => 10
  | .vrsum _ _ | .vrmax _ _ | .vrmin _ _ | .vscan _ _ | .vperm _ _ | .vbcast _ _ | .vslide _ _ | .vgetl _ _ => 8
  | .viota _ o => if o.md then 8 else 6
  | .vld _ _ | .vst _ _ | .vlds _ _ | .vsts _ _ => 7
  | .vgather _ _ | .vscatter _ _ => 12
  | .vcmpt _ _ => 4
  | _ => 6

/-- Weight of a slot. -/
def slotWeight (i : Instr) : Nat :=
  match i.enc with
  | none => 0
  | some e =>
    match e.cls with
    | .S => if e.op = 0 then 0 else if e.head.tri then 5 else 2
    | .V => vectorWeight i
    | .M => if e.op = 0 then 0 else 2
    | .C => if e.op = 0 then 0 else 3

/-! ### The slots of a bundle -/

/-- A system fault as a slot raised it. -/
structure Taken where
  cls : Nat
  slot : Nat
  code : Nat
  tok : Nat
  info : Word
  corrected : Bool
  deriving DecidableEq, Repr

/-- What the issue cycle of a core came to: the state its slots leave, the bundle's address, the holds and the first fault
found, its weight, whether the cycle was empty, and whether it ends a BFLIP. -/
structure Trial where
  st : State
  pc : BitVec 56
  holds : List Hold
  fault : Option Taken
  weight : Nat
  empty : Bool
  flip : Bool
  bars : List Instr
  deriving DecidableEq, Repr

/-- The fault of a stopped slot, from its record. -/
def Core.fault (c : Core) : Taken :=
  let d := c.drv
  ⟨fld d.frec 56 4, fld d.frec 60 4, fld d.frec 0 8, fld d.frec 48 8, d.finfo, c.front.corrected⟩

/-- No slot has met anything. -/
def State.calm (s : State) : State := { s with core := { s.core with front := { s.core.front with stat := .ready, holds := [] } } }

/-- One slot: every slot is asked for its holds, the first fault in slot order is kept (07 R175). -/
def Trial.slot (t : Trial) (i : Instr) : Trial :=
  match exec i t.st with
  | .next s =>
    match s.core.front.stat with
    | .ready => { t with st := s }
    | .held => { t with st := s.calm, holds := t.holds ++ s.core.front.holds }
    | .stopped => { t with fault := t.fault.or (some s.core.fault) }
  | _ => t

/-- Barrier instructions, whose arrivals stand although their bundle is held (02 R45). -/
def isBarrier : Instr → Bool
  | .bar _ _ | .bara _ _ | .barw _ _ | .sstep _ _ => true
  | _ => false

/-- The issue cycle that begins: set-aside entries rejoin, results land (03 R58, R86). -/
def Core.begin (c : Core) : Core := (if c.front.after = .resume ∧ c.front.bubbles = 0 then c.rejoin else c).land

def State.begin (s : State) : State := { s with core := s.core.begin }

/-- No bundle issues in the cycle: bubbles, the drain of ERET, a core that has ended. -/
def Core.emptyCycle (c : Core) : Bool := c.front.ended || decide (0 < c.front.bubbles) || c.front.after == .drain

/-- The core in focus at a bundle: its slots read the state before any of its writes (03 R59). -/
def State.atBundle (s : State) (pc : BitVec 56) (len : Nat) : State :=
  { s with core := { s.core with front := { s.core.front with
      pc := pc, nextPc := pc + BitVec.ofNat 56 len, stat := .ready, holds := [], bnd := [], held := false } } }

/-- A bundle that faults before its slots are looked at. -/
def Trial.failed (s : State) (pc : BitVec 56) (slot code : Nat) (info : Word) : Trial :=
  ⟨s, pc, [], some ⟨faultClass code, slot, code, 0xFF, info, false⟩, 0, false, false, []⟩

/-- The issue cycle of the core in focus, nothing of it final yet. -/
def State.present (s : State) : Trial :=
  let c := s.core
  let s1 := s.begin
  if c.emptyCycle then
    ⟨s1, c.front.pc, [], none, 0, true, c.front.after == .flip && c.front.bubbles == 1, []⟩
  else
    let f := c.fetch fetchFuel c.front.pc
    match f.2 with
    | none => Trial.failed s1 f.1 15 cILLBUNDLE 0
    | some line =>
      match decodeBundle line with
      | .error .illBundle => Trial.failed s1 f.1 15 cILLBUNDLE 0
      | .error (.illOp k w) => Trial.failed s1 f.1 k cILLOP w
      | .ok b =>
        b.slots.foldl Trial.slot
          ⟨s1.atBundle f.1 b.len, f.1, [], none, sumN (b.slots.map slotWeight), false, false, b.slots.filter isBarrier⟩

/-- The issue cycles of several cores, in order, on one state. -/
def State.trials : List Nat → State → State × List (Nat × Trial)
  | [], s => (s, [])
  | m :: ms, s =>
    match s.focus m with
    | none => State.trials ms s
    | some s1 =>
      let t := s1.present
      let r := State.trials ms t.st
      (r.1, (m, t) :: r.2)

/-- A function in several cores. -/
def State.atEach (s : State) (ms : List Nat) (f : State → State) : State := ms.foldl (fun s m => s.atCore m f) s

/-! ### A held bundle (03 R63; 02 R45) -/

/-- What stands of a bundle that only barriers hold: its arrivals and releases. -/
def State.keepArrivals (s : State) (b : State) : State :=
  { b with
    core := { s.core with
      front := { s.core.front with arrv := b.core.front.arrv },
      ctl := { s.core.ctl with bstat := b.core.ctl.bstat },
      drv := { s.core.drv with saved := b.core.drv.saved } },
    regs := s.regs, hearth := s.hearth, crucible := s.crucible, channels := s.channels, buses := s.buses }

/-- The bundle of the core in focus is held. -/
def State.hold (s : State) (t : Trial) : State :=
  let s1 :=
    if t.holds.all Hold.isBarrier then
      s.keepArrivals (t.bars.foldl Trial.slot ⟨s.begin.atBundle t.pc 0, t.pc, [], none, 0, false, false, []⟩).st
    else s
  { s1 with core := { s1.core with front := { s1.core.front with pc := t.pc, held := true, holds := t.holds } } }

/-- A period in which the bundles of a set did not issue: a LOCK or UNLOCK that had been granted is held again with the others. -/
def State.ungrant (s : State) : State := { s with core := { s.core with front := { s.core.front with granted := false } } }

/-! ### A fault (16 R345) -/

/-- The fault is taken on the state before the bundle, of which nothing commits. A corrected disagreement of the faulting
operation is logged (08 R186), and EPC names a branch target that lies outside the resident overlays (08 R196). -/
def State.failAt (s : State) (t : Trial) : State :=
  match t.fault with
  | none => s
  | some k =>
    let s := if k.corrected then s.triLog (0, 0, 1) else s
    let c0 := s.core.clearUpset
    let c := if k.code = cILLBUNDLE ∧ c0.front.target = some t.pc ∧ (c0.lineAt t.pc.toNat).isNone then
        { c0 with ctl := { c0.ctl with epc := t.pc.zeroExtend 64 } } else c0
    State.systemFaultAs { s with core := { c with front := { c.front with pc := t.pc, held := false, holds := [] } } } k.cls k.slot k.code k.tok k.info

/-- The boundary changes of BFLIP and END, which end a phase. -/
def Bnd.endsPhase : Bnd → Bool
  | .flip | .halt => true
  | _ => false

/-- A replay met a command that its log does not hold, or came to the end of its phase without one that it holds: it cannot go on (16
R357). -/
def Trial.broken (t : Trial) : Bool :=
  match t.st.core.phase.replay with
  | some n => n == replayBroken || t.st.core.front.bnd.any Bnd.endsPhase
  | none => false

/-! ### Commit -/

/-- An empty issue cycle ends; BFLIP's last one swaps the banks (08 R210). -/
def State.endEmpty (s : State) (flip : Bool) : State :=
  let c := s.core.age
  let s1 := { s with core := { c with
    ctl := if c.front.ended then c.ctl else { c.ctl with cyc := c.ctl.cyc + 1 },
    front := { c.front with bubbles := c.front.bubbles - 1, granted := false } } }
  (if flip then s1.flipDone else s1).tick 0

/-- A bundle commits: boundary changes, the next address, and END's departure from a lockstep group (08 R200). -/
def State.commit (s : State) (t : Trial) : State :=
  if t.empty then s.endEmpty t.flip
  else
    let c := (s.core.front.bnd.foldl Core.applyBnd { s.core with front := { s.core.front with target := none } }).age
    let s1 := { s with core := { c with
      ctl := { c.ctl with cyc := c.ctl.cyc + 1 },
      front := { c.front with pc := c.front.nextPc, bnd := [], granted := false, corrected := false, arrv := c.front.arrv.filter (fun k => decide (1000 ≤ k)) } } }
    State.tick (if c.front.ended then s1.leaveLock else s1) t.weight

/-- Bellows' test of the core in focus after a bundle: its group's window is over the budget. -/
def State.bellowsDue (s : State) : Bool := decide (s.budget < s.groupWindow)

/-- Bellows' test after a bundle of the cores `ms` (14 R294): each is frozen with the group that it is in after the bundle. -/
def State.bellows (ms : List Nat) (s : State) : State :=
  s.atEach ms (fun s => if s.bellowsDue then { s with core := { s.core with front := { s.core.front with bellowsFrz := some 0 } } } else s)

/-- PHASE's save at the boundary of a BFLIP that every member completed (16 R352; 08 R208). -/
def State.phaseSave (ms : List Nat) (s : State) : State :=
  s.atEach ms (fun s => if s.core.pend && s.core.task.isSome then s.stopForSave 1 else s)

/-- One issue cycle of the cores `ms`, which issue together, of the lockstep group `gs`. -/
def State.issueSet (s : State) (ms gs : List Nat) : State :=
  let r := s.trials ms
  if r.2.any (fun (e : Nat × Trial) => !e.2.holds.isEmpty) then
    let held := r.2.filter (fun (e : Nat × Trial) => !e.2.holds.isEmpty)
    let s1 := held.foldl (fun (s : State) (e : Nat × Trial) => s.atCore e.1 (fun s => s.hold e.2)) s
    s1.atEach ms (fun s => s.ungrant.frozen (held.any (fun (e : Nat × Trial) => !e.2.holds.all Hold.isBarrier)))
  else if r.2.any (fun (e : Nat × Trial) => e.2.fault.isSome) then
    let s1 := r.2.foldl (fun (s : State) (e : Nat × Trial) => if e.2.fault.isSome then s.atCore e.1 (fun s => s.failAt e.2) else s) s
    s1.atEach ms (fun s => s.ungrant.tick 0)
  else if r.2.any (fun (e : Nat × Trial) => e.2.broken) then
    (s.atEach ((r.2.filter (fun (e : Nat × Trial) => e.2.broken)).map (fun e => e.1)) (fun s => s.recoverRest)).atEach ms (fun s => s.ungrant.tick 0)
  else
    let s1 := r.2.foldl (fun (s : State) (e : Nat × Trial) => s.atCore e.1 (fun s => s.commit e.2)) r.1.busCycle
    let s2 := if r.2.any (fun (e : Nat × Trial) => !e.2.empty) then s1.bellows gs else s1
    if r.2.all (fun (e : Nat × Trial) => e.2.flip) && gs.all ms.contains then s2.phaseSave ms else s2

/-! ### A clock period -/

/-- The core is frozen (03 R63, R64). -/
def Core.isFrozen (c : Core) : Bool := c.front.held || c.front.gatherFrz.isSome || c.front.bellowsFrz.isSome
/-- The freeze counts in FRZCNT: it is no barrier wait (02 R41; 03 R66). -/
def Core.frzCounts (c : Core) : Bool :=
  c.front.gatherFrz.isSome || c.front.bellowsFrz.isSome || (c.front.held && !c.front.holds.all Hold.isBarrier)

/-- The cores of numbers. -/
def State.coresOf (s : State) (ms : List Nat) : List Core := s.cores.filter (fun c => ms.contains c.cnum)

/-- A period of cores that issue together, of the group `gs`: one frozen freezes all. -/
def State.turn (s : State) (ms gs : List Nat) : State :=
  let cs := s.coresOf ms
  if cs.any Core.isFrozen then s.atEach ms (fun s => s.frozen (cs.any Core.frzCounts)) else s.issueSet ms gs

/-- The core in focus with its lockstep group. -/
def State.group (s : State) : List Nat := s.core.cnum :: s.mates.map (fun c => c.cnum)

/-- The cores that issue in one period with the core in focus: its lockstep group, or those whose LOCKs were granted with its own (08
R206). -/
def State.issuers (s : State) : List Nat :=
  if s.core.front.granted && s.core.lockm == 0 then
    s.core.cnum :: (s.peers.filter (fun c => c.front.granted && c.lockm == 0 && c.running)).map (fun c => c.cnum)
  else s.group

/-- Every member that LOCKM names is here and runs. -/
def State.groupRuns (s : State) : Bool :=
  s.core.running && s.mates.all Core.running &&
  (s.core.lockm == 0 || decide (s.mates.length + 1 = popCount 8 s.core.lockm.toNat))

/-- A clock period of the core in focus and its group: while a member runs a trap handler, every other is frozen (03 R88). -/
def State.period (s : State) : State :=
  let ms := s.issuers
  if !s.groupRuns then s.atEach ms (fun s => s.tick 0)
  else match (s.coresOf ms).find? Core.trapping with
    | none => s.turn ms ms
    | some c => (s.turn [c.cnum] ms).atEach (ms.filter (fun m => m != c.cnum)) (fun s => s.frozen true)

/-! ### Events that the state makes due -/

/-- An event under a condition. -/
def dueIf (b : Bool) (i : Instr) : List Instr := if b then [i] else []

/-- A dispatched task waits for its entry. -/
def Core.entryDue (c : Core) : Bool := c.task.any (fun t => !t.started) && (c.cstate == 0 || c.cstate == 5)

/-- Hearth can take the words of a queue: they are to be synchronised (15 R318), a word read from another module has come, or the tail
word of a queue for device producers has changed (02 R30, R31). -/
def State.tailMoved (s : State) (q : Nat) (k : LQueue) : Bool :=
  k.on && k.stopc == 0 && !s.readWaits (.words q) &&
  (k.sync || s.hearth.reads.any (fun r => r.who == .words q) ||
   (k.lq3.getLsbD 62 && (match (s.queueWord q k k.tailVa k.tail).1 with
     | some w => w != k.tail
     | none => false)))

/-- Events due in the core in focus, in their order. -/
def State.due (s : State) : List Instr :=
  let c := s.core
  let n := c.cnum
  dueIf (c.units.anvil.any (MJob.readDue c.front.clock)) (.matrixReadHoldClear n) ++
  dueIf (c.units.anvil.any (MJob.doneDue c.front.clock)) (.matrixComplete n) ++
  dueIf c.voteDue (.resultLanding n) ++
  dueIf s.trapDue (.programTrapEntry n) ++
  dueIf c.drained (.eretResume n) ++
  dueIf (c.front.gatherFrz == some 0) (.gatherFreezeEnd n) ++
  dueIf s.bellowsOver (.bellowsFreezeEnd n) ++
  dueIf (!s.forceDue && s.mayIssue) (.heldBundleIssue n) ++
  dueIf c.entryDue (.taskEntry n) ++
  dueIf (c.task.isSome && s.mayRetire) (.coreRetire n) ++
  dueIf (c.cstate == 4) (.contextSaveDone n) ++
  dueIf (c.cstate == 5 && c.drv.cctl.getLsbD 58) (.contextRestore n) ++
  dueIf (c.cstate == 6) (.contextRestoreDone n) ++
  (s.hearth.queues.filter (fun (e : Nat × LQueue) => s.tailMoved e.1 e.2)).map (fun e => .tailWordChange e.1) ++
  (s.hearth.queues.filter (fun (e : Nat × LQueue) => e.2.on && e.2.stopc == 0 && e.2.head != e.2.tail)).map (fun e => .launchRecord e.1)

/-- The next state of an event that can come about. -/
def State.tryEvent (s : State) (i : Instr) : Option State :=
  match exec i s with
  | .next t => some t
  | _ => none

/-- An event, where it can come about. -/
def State.after (s : State) (i : Instr) : State := (s.tryEvent i).getD s

/-- A store tick is due: 850 clock periods of every core make one (00 R2; 06 R148). -/
def State.tickDue (s : State) : Bool := s.cores.all (fun c => decide (850 * (s.ticks + 1) ≤ c.front.clock))

/-- STORE_TICK with what falls due at it: expired leases, the AGE boundary, the reports of R57, a look at the tail words of queues for
device producers, which another module's memory may hold. -/
def State.tickNow (s : State) : State :=
  let s1 := s.after .storeTick
  let now := s1.regs.m.tbase
  ((s1.crucible.nodes.filter (fun (n : KNode) => n.expiry == now)).map (fun (n : KNode) => Instr.leaseExpire n.slot) ++
    dueIf (now.toNat % max 1 s1.hearth.age.toNat == 0) .ageBoundary ++
    s1.hearth.launches.map (fun (l : Launch) => Instr.unplaceableReport l.serial) ++
    (s1.hearth.queues.filter (fun (e : Nat × LQueue) => e.2.lq3.getLsbD 62)).map (fun e => Instr.tailWordChange e.1)).foldl State.after s1

/-- The store tick, the first event due in the core in focus, a FORCE at its boundary, its recovery, or Hearth's part. -/
def State.auto (s : State) : Option State :=
  if s.tickDue then some s.tickNow
  else match s.due.findSome? s.tryEvent with
  | some t => some t
  | none => if s.forceDue then some (s.stopForSave 2) else if s.mayRecover then some s.recover else if s.hearthDue then some s.hearthRun
    else if s.nsDue then some s.nsRun else if s.heldDue then some s.serveHeld else none

/-- The first event due in a lockstep group. -/
def State.autoGroup (s : State) : Option State :=
  s.group.findSome? (fun m =>
    match s.focus m with
    | some t => t.auto
    | none => none)

/-! ### What goes on while a core waits (log 8) -/

/-- The core waits for its commands: held, ended, or stopped. -/
def Core.waits (c : Core) : Bool := c.front.held || c.front.ended || (c.task.isSome && c.cstate != 1)

/-- The event that moves a command on. -/
def cmdEvents (n : Nat) (k : Cmd) : List Instr :=
  if isCopy k.ins then [.copyComplete n ⟨k.seq, false⟩]
  else if isMemAccess k.ins then [.memoryAccessComplete n k.seq, .scPerform n k.seq]
  else if isCrucible k.ins then [.crucibleCommandComplete n k.seq, .replicaBlockMoved n k.seq]
  else if isWatch k.ins then [.waitaddrTimeout n k.seq, .waitaddrPoll n k.seq]
  else [.lsendDelivered n k.seq]

/-- Events of fan-outs. -/
def fanEvents (d : DirEntry) : List Instr :=
  match d.fan with
  | none => []
  | some f => f.inval.map (fun a => .invalidation a d.line) ++ f.acking.map (fun a => .invalidationAck a d.line)

/-- Everything that may move on, in groups: of a group the first event that can come about does. Fan-outs come first, then the core's
requests from the oldest on (05 R130); its Crucible commands are one group, in the order of issue. -/
def State.movable (s : State) : List (List Instr) :=
  let n := s.core.cnum
  (s.memory.dir.flatMap fanEvents).map (fun i => [i]) ++
  (s.core.units.cmds.filter (fun k => k.retry.isSome)).map (fun k => [.retryBackoffExpire n k.seq]) ++
  (s.core.units.cmds.filter (fun k => !isCrucible k.ins)).map (cmdEvents n) ++
  [(s.core.units.cmds.filter (fun k => isCrucible k.ins)).flatMap (cmdEvents n)] ++
  (if s.core.units.cmds.any (fun k => k.window) then (List.range 16).map (fun g => [.wsRefreshWindowEnd s.core.stk g]) else []) ++
  (s.crucible.nodes.filter (fun n => n.st == .sealing)).map (fun n => [.sealComplete n.slot]) ++
  (s.crucible.nodes.filter (fun n => n.st == .demoting)).map (fun n => [.demoteComplete n.slot])

/-- Each group does, in that order. -/
def State.progress (s : State) : State :=
  if s.core.waits then s.movable.foldl (fun s g => (g.findSome? s.tryEvent).getD s) s else s

/-! ### The next move -/

/-- The core furthest behind, the one in focus before others. -/
def State.nextCore (s : State) : Nat :=
  (s.others.foldl (fun (k : Core) c => if c.front.clock < k.front.clock then c else k) s.core).cnum

/-- The core whose turn it is comes into focus. -/
def State.chosen (s : State) : State :=
  match s.turns with
  | [] => (s.focus s.nextCore).getD s
  | m :: _ => (s.focus m).getD s

/-- A move of the module by itself: an event that is due, or a clock period, which uses the turn up. -/
def State.advance (s : State) : State :=
  let s1 := s.chosen
  match s1.autoGroup with
  | some t => t
  | none => (State.atEach { s1 with turns := s1.turns.drop 1 } s1.group State.progress).period

/-- Events by which the driver writes a register of BAR 0 (15 R307). -/
def writesBar0 : Instr → Bool
  | .errorBankClear _ _ _ | .cctlPhase _ | .cctlForce _ | .cctlResume _ | .cctlEnd _ | .cctlCancel _ | .tokclr _ _ | .xlrespRetry _ _ |
    .xlrespRefuse _ _ | .evheadWrite _ | .kill _ | .frameMigrate _ _ | .frameReleaseRemap | .mstateGo | .hcfgWrite _ | .shootdown _ |
    .ovlinvByIdent | .ovlinvByAsid _ | .ovlinvAll | .nsCreate _ | .nsDestroy _ | .nsRights _ | .zadmit _ | .lqEnable _ _ | .lqDisable _ _ |
    .lqRestart _ | .slabEntryWrite _ _ _ | .cbindWrite _ _ _ | .bankRoleWrite _ _ _ _ | .wsLoad _ _ | .crmarkWrite _ | .hlccfgWrite _ |
    .limiterWrite _ _ | .linkEnable _ | .routeWrite _ _ | .registerWrite _ _ => true
  | _ => false

/-- One step. Without power only POWER_UP acts, and a FAILED module takes no register write (15 R309); delivered events come first,
oldest first; then the module moves. -/
def State.move (s : State) : Host.Outcome State Fault Refusal :=
  if !s.board.power then
    match s.agenda with
    | .powerUp :: rest => exec .powerUp { s with agenda := rest }
    | _ => .fault .unpowered
  else
    match s.agenda with
    | i :: rest =>
      if i.enc.isSome then .refused (.notEnabled "a slot instruction outside a bundle")
      else if s.mstate == 15 && writesBar0 i then .next { s with agenda := rest }
      else
        match exec i { s with agenda := rest } with
        | .next t => .next t.publish
        | o => o
    | [] => .next s.advance.publish

end Sys2Proof.Machine
end

