-- ==== Sys2Proof/Machine/Step.lean ====
section
/-! DEFINITION. One step of the machine, and a program of one bundle placed where the core in focus fetches next. -/
namespace Sys2Proof.Machine
open Sys2Proof

/-- One step (log 1). -/
def step (s : State) : Host.Outcome State Fault Refusal := s.move

/-- The task that a placed bundle runs under (log 5). -/
def placedTask : Task :=
  { serial := 0, node := 0, asid := 1, idx := 0, n := 1, iter := 0, firing := 0, dgrp := 0, pr := false, cbase := 0, clen := 0,
    image := 0, ident := 0, started := true, entered := true, redone := false, team := [] }

/-- The state with a one-slot bundle (header byte in bits 7..0) resident at the fetch line of the core in focus, which runs a
task and moves next: what dispatch and task entry do for a program that a launch brings (log 5). -/
def State.withFetchWord (s : State) (nbits w : Nat) : State :=
  let c := s.core
  let at_ := c.front.pc.toNat / 64 * 64
  let page : Overlay := ⟨0, placedTask.asid, 0, at_ / 4096 * 4096, Memory.setN [] (at_ % 4096) (leBytes (nbits / 8) w), true, false⟩
  { s with
    core := { c with
      g := max 1 c.g, task := some placedTask, ovl := [page],
      front := { Front.zero with pc := BitVec.ofNat 56 at_, nextPc := BitVec.ofNat 56 at_, clock := c.front.clock },
      drv := { c.drv with cctl := putFld c.drv.cctl 60 4 1, force := false } },
    agenda := [], turns := [c.cnum], board := { s.board with power := true } }

end Sys2Proof.Machine
end

