-- ==== Sys2Proof/Safety.lean ====
section
/-! DEFINITION. The notions that statements are made in: a slot that runs, a result on its way, a command issued, a
queued matrix instruction, what an instruction leaves alone, the canonical form of storage, and a safe step. -/
namespace Sys2Proof.Machine
open Sys2Proof

/-! ### A slot that runs -/

/-- No upset awaits the three copies of the scalar unit (08 R186). -/
def noUpset : Vector Word 3 := Vector.replicate 3 0

/-- An S, M or C slot is enabled (03 R74); under TRI no upset disturbs a copy (08 R186). -/
def State.runs (s : State) (h : Head) : Prop :=
  s.core.enabled h = true ∧ (h.tri = true → s.core.front.upset = noUpset)

/-- The issue cycle that TRI adds to a latency (08 R186). -/
def late (h : Head) : Nat := h.tri.toNat

/-- The state with one more result on its way: from the slot, to land `lat` issue cycles on (03 R58). -/
def State.queued (s : State) (slot lat : Nat) (v : PVal) : State := { s with core := s.core.push slot lat v }

/-- The state with a system fault of the bundle's slot taken (16 R345). -/
def State.faulted (s : State) (slot code : Nat) (info : Word) : State := s.systemFault slot code 0xFF info

/-- The state in which the slot's bundle is held by conditions (03 R63). -/
def State.heldBy (s : State) (hs : List Hold) : State :=
  { s with core := { s.core with front := { s.core.front with stat := .held, holds := s.core.front.holds ++ hs } } }

/-! ### What is left alone -/

/-- Device address of the event record written next (16 Table 16.5). -/
def State.eventSlot (s : State) : Nat :=
  s.frame (fld s.regs.ev.evbase 12 40 * 4096 + 32 * (s.regs.ev.evtail.toNat % 2 ^ fld s.regs.ev.evctl 0 4))

/-- Memory is the same at every address outside the event record written next. -/
def State.sameMemory (s t : State) : Prop :=
  ∀ a, (a < s.eventSlot ∨ s.eventSlot + 32 ≤ a) → t.memory.mem.get a = s.memory.mem.get a

/-- Every register of the core that a kernel reads stands: x, f, p, register space, banks, control and identity registers,
rings, tokens and tags. -/
def Core.sameRegs (c d : Core) : Prop :=
  d.regs = c.regs ∧ d.ctl = c.ctl ∧ d.ident = c.ident ∧ d.units = c.units

/-- The driver's record of the core and its phase stand. -/
def Core.sameDrv (c d : Core) : Prop := d.drv = c.drv ∧ d.phase = c.phase ∧ d.task = c.task ∧ d.ovl = c.ovl

/-! ### Commands and matrix instructions -/

/-- A C-slot command has been issued: it is outstanding with its operands, its token counts it, the registers stand. -/
def Issued (s t : State) (i : Instr) (tok : KTok) (ops : List Word) (addr : Nat) : Prop :=
  (∃ k : Cmd, t.core.units.cmds = s.core.units.cmds ++ [k] ∧ k.seq = s.core.units.nextSeq ∧ k.ins = i ∧ k.tok = tok ∧
    k.ops = ops ∧ k.addr = addr ∧ k.err = 0 ∧ k.stage = 0) ∧
  t.core.units.nextSeq = s.core.units.nextSeq + 1 ∧
  (t.core.token tok).cnt = (s.core.token tok).cnt + 1 ∧
  t.core.regs = s.core.regs ∧ t.core.pipe = s.core.pipe ∧ t.core.ctl = s.core.ctl ∧ s.sameMemory t

/-- A C-slot command has ended (11 R270): it is no longer outstanding; its token records the code and counts it off. -/
def Ended (s t : State) (k : Cmd) (code : BitVec 3) : Prop :=
  t.core.units.cmds = s.core.units.cmds.filter (fun j => j.seq != k.seq) ∧
  t.core.token k.tok = ((s.core.token k.tok).record k.spec k.seq code).drop

/-- A cached translation of a page takes `n` bytes of an ASID to this module's memory at `pa` (15 R327 to R330, R335; 06 R155). -/
def State.mapped (s : State) (asid : BitVec 12) (k : AccKind) (va n pa : Nat) : Prop :=
  0 < n ∧ va < 2 ^ 56 ∧ va % 65536 + n ≤ 65536 ∧ s.badFrame pa = false ∧ s.paOk pa = true ∧ (k = .write → s.sealedFrame (s.frame pa) = false) ∧
  ∃ t, s.memory.tlb.find? (fun t => t.covers asid va && leafAdmits t.leaf k) = some t ∧ 16 ≤ t.log ∧ fld t.leaf 10 2 = 0 ∧
    pa = fld t.leaf 16 36 * 65536 + va % 2 ^ t.log

/-- The agent holds the line of `n` bytes at `pa`, which lie in it and none of which is poisoned. -/
def State.held (s : State) (ag pa n : Nat) (c : CLine) : Prop :=
  s.cline ag (pa / 128) = some c ∧ pa % 128 + n ≤ 128 ∧ s.poisoned pa n = false

/-- The home of `n` bytes at `pa` can perform an operation on them now: no agent and no directory entry has their line, its frame is
not migrating, and none is poisoned. -/
def State.atRest (s : State) (ag pa n : Nat) : Prop :=
  s.cline ag (pa / 128) = none ∧ s.entry (pa / 128) = none ∧ s.frameBusy pa = false ∧ s.poisoned pa n = false

/-- A matrix instruction's operands are legal, none is held, and no fault is met (10 R240, R242). -/
def Plan.clear (p : Plan) (s : State) : Prop :=
  p.illop = false ∧ p.badRing s.core = false ∧ p.holds s = [] ∧ p.badTags = false ∧ p.fault = none

/-- A matrix instruction has been queued behind those before it: it captured the control registers, its registers are held
or busy from now on, and nothing else of the core's registers or of memory changed. -/
def Queued (s t : State) (i : Instr) (p : Plan) : Prop :=
  (∃ j : MJob, t.core.units.anvil.map (fun k => k.num) = s.core.units.anvil.map (fun k => k.num) ++ [s.core.units.nextNum] ∧
    j ∈ t.core.units.anvil ∧ j.num = s.core.units.nextNum ∧ j.ins = i ∧ j.ctl = s.core.ctl ∧ j.reads = p.reads ∧
    j.writes = p.writes ∧ j.read = false) ∧
  t.core.units.nextNum = s.core.units.nextNum + 1 ∧
  t.core.regs = s.core.regs ∧ t.core.pipe = s.core.pipe ∧ t.core.ctl = s.core.ctl ∧ t.memory = s.memory

/-! ### The step of a bundle -/

/-- The core whose turn it is in focus, its turn used up. -/
def State.nextUp (s : State) : State := { s.chosen with turns := s.chosen.turns.drop 1 }

/-- Nothing else is due, and the core that moves next, outside a lockstep group, issues the bundle `b` at `pc` now. -/
def State.issues (s : State) (pc : BitVec 56) (b : Bundle) : Prop :=
  s.board.power = true ∧ s.agenda = [] ∧ s.chosen.autoGroup = none ∧
  (∀ k ∈ s.nextUp.others, k.cnum ≠ s.nextUp.core.cnum) ∧
  s.nextUp.core.lockm = 0 ∧ s.nextUp.issuers = [s.nextUp.core.cnum] ∧ s.nextUp.core.running = true ∧ s.nextUp.core.isFrozen = false ∧ s.nextUp.core.emptyCycle = false ∧
  ∃ line, s.nextUp.core.fetch fetchFuel s.nextUp.core.front.pc = (pc, some line) ∧ decodeBundle line = .ok b

/-- The state that the slots of the bundle see: its issue cycle has begun (03 R58, R59). -/
def State.seenBy (s : State) (pc : BitVec 56) (b : Bundle) : State := s.nextUp.begin.atBundle pc b.len

/-- The slots of a bundle execute one after the other, each without fault or hold. -/
def runsSlots : State → List Instr → State → Prop
  | s, [], t => s = t
  | s, i :: is, t => ∃ v, exec i s = .next v ∧ v.core.front.stat = .ready ∧ runsSlots v is t

/-! ### Events of a core -/

/-- The core at which an event happens that brings it into focus. -/
def eventCore : Instr → Option Nat
  | .resultLanding c | .heldBundleIssue c | .gatherFreezeEnd c | .bellowsFreezeEnd c | .programTrapEntry c | .eretResume c
  | .matrixReadHoldClear c | .matrixComplete c | .copyComplete c _ | .memoryAccessComplete c _ | .crucibleCommandComplete c _
  | .lsendDelivered c _ | .waitaddrPoll c _ | .waitaddrTimeout c _ | .retryBackoffExpire c _ | .taskEntry c | .coreRetire c
  | .scPerform c _ | .replicaBlockMoved c _ | .cctlPhase c | .cctlForce c | .cctlCancel c | .cctlResume c | .cctlEnd c | .tokclr c _
  | .xlrespRetry c _ | .xlrespRefuse c _ | .contextSaveDone c | .contextRestore c | .contextRestoreDone c => some c
  | _ => none

/-! ### Invariants and safety -/

/-- The byte storage of the module is in canonical form: device and host memory. -/
def State.memoryWf (s : State) : Prop := s.memory.mem.wf = true

/-- A core's register space and banks are in canonical form. -/
def Core.storageWf (c : Core) : Prop := c.regs.rf.wf = true ∧ c.regs.bank.wf = true

/-- A step is safe where the machine goes on: neither a fault nor a refusal. -/
def Safe (s : State) : Prop := ∃ t, step s = .next t

end Sys2Proof.Machine
end

