-- ==== Sys2Proof/Certificates/Slice0/Obligations.lean ====
section
/-! DEFINITION. The statements for the provers. Each names in its docstring the rules of spec/ that it formalises; `t` is the
next state throughout. -/
open Sys2Proof
open Sys2Proof.Machine

/-- R307 to R310, R323, R324, R330, R332, R333, R336, R343 and R366. `goCheck` is the list of R310, `bootSlot` that of R366. The model's
choices: FWAUTH_DONE acts in RESET too, and a write of NSCMD while BUSY is ignored (log 28). -/
def Obligations.ModuleEvents : Prop :=
  ∀ s : State,
    (∃ t, exec .moduleReset s = .next t ∧ t.core = s.core.cleared ∧ t.others = s.others.map Core.cleared ∧
      (∀ c : Core, c.cleared.task = none ∧ c.cleared.cstate = 0 ∧ c.cleared.regs = (Core.zero c.cnum).regs ∧
        c.cleared.ctl = (Core.zero c.cnum).ctl ∧ c.cleared.units.cmds = [] ∧ c.cleared.units.lamport = c.units.lamport) ∧
      t.hearth = State.reset.hearth ∧ t.memory.tlb = [] ∧ t.memory.lines = [] ∧ t.memory.dir = [] ∧
      t.memory.poison = s.memory.poison ∧ t.memory.badFrames = s.memory.badFrames ∧ t.memory.host = [] ∧ t.regs.m = State.reset.regs.m ∧
      t.crucible.nodes = [] ∧ t.crucible.gens = s.crucible.gens ∧ t.board.thermalCap = 2600 ∧
      (∀ k, k < 8 → (t.stack k).inc = (s.stack k).inc) ∧ t.board.fw = s.board.fw ∧ t.board.floor = s.board.floor) ∧
    (∀ ok0 ok1 v0 v1 sec0 sec1, s.mstate < 2 → ∀ f0 f1 : FwSlot, f0 = (vget s.board.fw 0 ⟨false, 0, 0, []⟩).found ok0 v0 sec0 →
      f1 = (vget s.board.fw 1 ⟨false, 0, 0, []⟩).found ok1 v1 sec1 → ∃ t, exec (.fwauthDone ok0 ok1 v0 v1 sec0 sec1) s = .next t ∧
      t.board.booted = bootSlot s.board.floor (ok0 && f0.present) (ok1 && f1.present) f0.ver f1.ver f0.sec f1.sec ∧ t.memory = s.memory ∧
      (t.board.booted ≠ none → t.mstate = 2) ∧ (t.board.booted = none → t.mstate = 15 ∧ fld t.regs.m.mstate 4 4 = 1)) ∧
    (∀ halves, s.mstate = 2 →
      (∀ selfOk, ∃ t, exec (.meminitDone false selfOk halves) s = .next t ∧ t.mstate = 15 ∧ fld t.regs.m.mstate 4 4 = 2) ∧
      (∃ t, exec (.meminitDone true false halves) s = .next t ∧ t.mstate = 15 ∧ fld t.regs.m.mstate 4 4 = 3) ∧
      (s.memory.heldReqs = [] → ∃ t, exec (.meminitDone true true halves) s = .next t ∧ t.mstate = 3 ∧ t.board.selfTest = true ∧
        t.board.portUp = Vector.replicate 2 true)) ∧
    (s.mstate ≠ 3 → exec .mstateGo s = .next s) ∧
    (s.mstate = 3 → (s.goCheck = 0 → ∃ t u : State, exec .mstateGo s = .next t ∧ t = u.hearthRun ∧ u.mstate = 4 ∧ u.core = s.core) ∧
      (s.goCheck ≠ 0 → ∃ t, exec .mstateGo s = .next t ∧ t.mstate = 3 ∧ fld t.regs.m.mstate 8 8 = s.goCheck ∧ t.core = s.core)) ∧
    (∀ v, (fld v 16 14 < 10 ∨ 10000 < fld v 16 14 → exec (.hcfgWrite v) s = .next s) ∧
      (10 ≤ fld v 16 14 → fld v 16 14 ≤ 10000 → ∃ t u : State, exec (.hcfgWrite v) s = .next t ∧ t = u.hearthRun ∧
        fld u.regs.m.hcfg 16 14 = fld v 16 14 ∧ u.regs.m.hcfg.getLsbD 63 = v.getLsbD 63 ∧ u.hearth = s.hearth)) ∧
    (∀ v, (s.regs.m.shootb.getLsbD 63 = true → exec (.shootdown v) s = .next s) ∧
      (s.regs.m.shootb.getLsbD 63 = false → ∃ t, exec (.shootdown v) s = .next t ∧ t.regs.m.shootb.getLsbD 63 = true ∧
        (∀ e : Tlb, e ∈ t.memory.tlb ↔ e ∈ s.memory.tlb ∧ shotDown s.regs.m.shoota v e = false) ∧ t.core = s.core ∧ t.memory.mem = s.memory.mem)) ∧
    (s.regs.m.shootb.getLsbD 63 = true →
      (s.shotLines s.regs.m.shootb = [] → s.shotFans s.regs.m.shootb = false → s.remoteQuiet = true →
        ∃ t, exec .shootdownDone s = .next t ∧ t.regs.m.shootb = 0 ∧ t.core = s.core ∧ t.memory.mem = s.memory.mem) ∧
      (s.shotLines s.regs.m.shootb ≠ [] → (∀ l ∈ s.shotLines s.regs.m.shootb, s.frameBusy (l.2 * 128) = false) →
        exec .shootdownDone s = .next ((s.shotLines s.regs.m.shootb).foldl (fun s l => s.checkIn l.1 l.2 false) s))) ∧
    (∀ (i : Instr) (p : Overlay → Bool), (i = .ovlinvByIdent ∧ p = (fun o => o.ident == s.regs.m.ovlid)) ∨
        (∃ a, i = .ovlinvByAsid a ∧ p = (fun o => o.asid == a)) ∨ (i = .ovlinvAll ∧ p = (fun _ => true)) →
      ∃ t, exec i s = .next t ∧ (∀ c ∈ t.cores, ∀ o : Overlay, o ∈ c.ovl → p o = true → o.inUse = true ∧ o.doomed = true) ∧
        (∀ c ∈ s.cores, ∀ o : Overlay, o ∈ c.ovl → p o = false → ∃ c' ∈ t.cores, c'.cnum = c.cnum ∧ o ∈ c'.ovl) ∧
        t.core.regs = s.core.regs ∧ t.memory = s.memory) ∧
    (∀ v, (markLow v < markHigh v ∧ markHigh v ≤ markBreak v ∧ markBreak v ≤ 1024 ∧ markCxl v ≤ 1024 →
        ∃ t u : State, exec (.crmarkWrite v) s = .next t ∧ t = u.reclaimTest ∧ u.regs.m.crmark = v &&& 0xFFFFFFFFFFF) ∧
      (markHigh v ≤ markLow v ∨ markBreak v < markHigh v ∨ 1024 < markBreak v ∨ 1024 < markCxl v → exec (.crmarkWrite v) s = .next s)) ∧
    (∀ v, ∃ t, exec (.hlccfgWrite v) s = .next t ∧ t.regs.m.hlccfg = v &&& 1 ∧ (v.getLsbD 0 = false → t.memory.host = []) ∧
      (v.getLsbD 0 = true → t.memory = s.memory)) ∧
    (∀ v, (v.getLsbD 63 = false → exec (.zadmit v) s = .next s) ∧
      (v.getLsbD 63 = true → ∃ t, exec (.zadmit v) s = .next t ∧ t.isRemoved (fld v 0 8) = false ∧ t.incOf (fld v 0 8) = v.extractLsb' 8 16)) ∧
    (s.regs.m.nscmd.getLsbD 63 = true → ∀ slot, exec (.nsCreate slot) s = .next s ∧ exec (.nsDestroy slot) s = .next s ∧
      exec (.nsRights slot) s = .next s) ∧
    (s.regs.m.nscmd.getLsbD 63 = false → ∀ slot, slot < 1024 → s.nsFree slot = true → ∀ d p, d = s.readNs slot → p = s.nsOf slot d →
      (nsParamOk p d = false → ∃ t, exec (.nsCreate slot) s = .next t ∧ fld t.regs.m.nscmd 56 8 = 1 ∧ t.crucible = s.crucible) ∧
      (nsParamOk p d = true → (s.space p.ns).isSome = true → ∃ t, exec (.nsCreate slot) s = .next t ∧ fld t.regs.m.nscmd 56 8 = 2 ∧ t.crucible = s.crucible) ∧
      (nsParamOk p d = true → p.ns ≠ 0 → s.space p.ns = none → s.nsRegionOk p = true → s.nsAt slot = none →
        ∃ t, exec (.nsCreate slot) s = .next t ∧ fld t.regs.m.nscmd 56 8 = 0 ∧ t.crucible.spaces = s.crucible.spaces ++ [p]) ∧
      (nsParamOk p d = true → p.ns ≠ 0 → s.space p.ns = none → s.nsRegionOk p = true → (s.nsAt slot).isSome = true →
        ∃ t, exec (.nsCreate slot) s = .next t ∧ fld t.regs.m.nscmd 56 8 = 4 ∧ t.crucible = s.crucible) ∧
      (s.nsAt slot = none → (∃ t, exec (.nsDestroy slot) s = .next t ∧ fld t.regs.m.nscmd 56 8 = 5 ∧ t.crucible = s.crucible) ∧
        (∃ t, exec (.nsRights slot) s = .next t ∧ fld t.regs.m.nscmd 56 8 = 5 ∧ t.crucible = s.crucible)) ∧
      (∀ q, s.nsAt slot = some q → (∀ n : KNode, n ∈ s.crucible.nodes → n.ns ≠ q.ns) →
        ∃ t u : State, exec (.nsDestroy slot) s = .next t ∧ t = u.reclaimTest ∧ fld u.regs.m.nscmd 56 8 = 0 ∧ u.nsAt slot = none ∧
          u.core = s.core ∧ u.memory = s.memory) ∧
      (∀ q, s.nsAt slot = some q → ∃ t, exec (.nsRights slot) s = .next t ∧ fld t.regs.m.nscmd 56 8 = 0 ∧
        (t.nsAt slot).map (fun p => p.rights) = some (s.readRights (numAt d 40 8)))) ∧
    (∀ off v, off % 8 ≠ 0 → exec (.registerWrite off v) s = .next s ∧ ∀ n, s.readReg off n = 0) ∧
    (s.mstate ≠ 15 → s.readReg 0x000 8 = s.regs.m.mstate ∧ s.readReg 0x020 8 = s.regs.m.shootb &&& 0x8000000000000000 ∧
      s.readReg 0x078 8 = s.regs.m.tbase) ∧
    (∀ v, (∃ t, exec (.registerWrite 0x0C0 v) s = .next t ∧ t.regs.ev.evbase = v &&& 0x000FFFFFFFFFF000 ∧ t.core = s.core ∧ t.memory = s.memory) ∧
      (∃ t, exec (.registerWrite 0x018 v) s = .next t ∧ t.regs.m.shoota = v &&& 0x00FFFFFFFFFF0FFF ∧ t.core = s.core ∧ t.memory = s.memory) ∧
      (∃ t, exec (.registerWrite 0x028 v) s = .next t ∧ t.regs.m.ovlid = v ∧ t.core = s.core ∧ t.memory = s.memory) ∧
      (∃ t, exec (.registerWrite 0x0E8 v) s = .next t ∧ t.regs.ev.freto = v &&& 0x000FFFFFFFFF0000 ∧ t.core = s.core ∧ t.memory = s.memory) ∧
      (s.regs.ev.kill.getLsbD 62 = false → ∃ t, exec (.registerWrite 0x0E0 v) s = .next t ∧ t.regs.ev.kill = v &&& 0xFFF ∧ t.core = s.core) ∧
      (s.mstate = 3 →
        (∃ t, exec (.registerWrite 0x010 v) s = .next t ∧ t.regs.m.asidtb = v &&& 0x000FFFFFFFFF8000 ∧ t.core = s.core) ∧
        (∃ t, exec (.registerWrite 0x038 v) s = .next t ∧ t.regs.m.chtb = v &&& 0x000FFFFFFFFF0000 ∧ t.core = s.core) ∧
        (∃ t, exec (.registerWrite 0x060 v) s = .next t ∧ t.regs.m.nstb = v &&& 0x000FFFFFFFFF0000 ∧ t.core = s.core) ∧
        (∃ t, exec (.registerWrite 0x040 v) s = .next t ∧ t.regs.m.cridx = v &&& 0x000FFFFF00000001 ∧ t.core = s.core)) ∧
      (s.mstate ≠ 3 → ∀ off, off = 0x010 ∨ off = 0x038 ∨ off = 0x040 ∨ off = 0x060 ∨ off = 0x070 → exec (.registerWrite off v) s = .next s))

/-- R311 to R318. `slabCheck`, `bindCheck`, `badRoles` and `badPairs` are the lists of R312 to R314; `frontBack` is the end of a binding,
whose FRONT the checks of the next one see. The model's choices: a weight-store load keeps its source, target and length from the write of
WSLEN on, and a source that no engine reads gives RANGE (log 12). -/
def Obligations.ConfigurationEvents : Prop :=
  ∀ (s : State) (stk : Nat), stk < 8 →
    (∀ q v, ((s.queue q).on = true → exec (.lqEnable q v) s = .next s) ∧
      ((s.queue q).on = false → fld v 44 12 ≠ 0 → ∃ t, exec (.lqEnable q v) s = .next t ∧ (t.queue q).on = true ∧
        (t.queue q).asid = v.extractLsb' 44 12 ∧ t.core = s.core) ∧
      ((s.queue q).on = true → ∃ t, exec (.lqDisable q v) s = .next t ∧ (t.queue q).on = false ∧ (t.queue q).head = (s.queue q).head ∧
        t.core = s.core ∧ t.memory = s.memory)) ∧
    (∀ q, ((s.queue q).stopc = 0 → exec (.lqRestart q) s = .next s) ∧
      ((s.queue q).stopc ≠ 0 → ∃ t, exec (.lqRestart q) s = .next t ∧ (t.queue q).stopc = 0 ∧ t.core = s.core)) ∧
    (∀ k v, k < 88 →
      (slabCheck (s.stack stk) k v ≠ 0 → ∃ t, exec (.slabEntryWrite stk k v) s = .next t ∧
        (t.stack stk).sstat = BitVec.ofNat 64 (slabCheck (s.stack stk) k v) ∧ (t.stack stk).slab = (s.stack stk).slab) ∧
      (slabCheck (s.stack stk) k v = 0 → ∃ t, exec (.slabEntryWrite stk k v) s = .next t ∧ (t.stack stk).sstat = 0 ∧
        fld (vget (t.stack stk).slab k 0) 0 7 = fld v 0 7 ∧ fld (vget (t.stack stk).slab k 0) 13 3 = fld v 13 3 ∧
        fld (vget (t.stack stk).slab k 0) 10 3 = k % 8)) ∧
    (∀ f v, f < 112 → ∀ old new : Word, old = vget (s.stack stk).cbind f 0 → new = v &&& 0x80000000CFFFFFFF →
      ((old &&& 0xCFFFFFFF) ≠ (new &&& 0xCFFFFFFF) →
        (old.getLsbD 63 = false ∨ (∃ c, s.coreOf stk f = some c ∧ c.bindBusy = true) →
          ∃ t, exec (.cbindWrite stk f v) s = .next t ∧ (t.stack stk).sstat = 5 ∧ (t.stack stk).cbind = (s.stack stk).cbind) ∧
        (old.getLsbD 63 = true → (∀ c, s.coreOf stk f = some c → c.bindBusy = false) →
          ∀ st : StackS, st = frontBack ((s.coreOf stk f).getD (Core.zero (stk * 112 + f))) (s.stack stk) old →
          (bindCheck st f new ≠ 0 → ∃ t, exec (.cbindWrite stk f v) s = .next t ∧
            (t.stack stk).sstat = BitVec.ofNat 64 (bindCheck st f new) ∧ (t.stack stk).cbind = (s.stack stk).cbind) ∧
          (bindCheck st f new = 0 → ∃ t u : State, exec (.cbindWrite stk f v) s = .next t ∧ t = u.hearthRun ∧
            vget (u.stack stk).cbind f 0 = new ∧ (u.stack stk).sstat = 0 ∧
            (∃ c ∈ u.cores, c.cnum = stk * 112 + f ∧ c.g = gwOf new)))) ∧
      ((old &&& 0xCFFFFFFF) = (new &&& 0xCFFFFFFF) → new.getLsbD 63 = false → ∃ t u : State, exec (.cbindWrite stk f v) s = .next t ∧
        t = u.hearthRun ∧ vget (u.stack stk).cbind f 0 = new)) ∧
    (∀ k v, k < 88 → ∀ role pair : Word, role = vget (s.stack stk).srole k 0 → pair = vget (s.stack stk).spair k 0 →
      (pair.getLsbD 32 = true → ∀ p, exec (.bankRoleWrite stk k p v) s = .next s) ∧
      (pair.getLsbD 32 = false →
        ((s.stack stk).inUse k = true → ∀ p, ∃ t, exec (.bankRoleWrite stk k p v) s = .next t ∧ (t.stack stk).sstat = 3 ∧
          (t.stack stk).srole = (s.stack stk).srole ∧ (t.stack stk).spair = (s.stack stk).spair) ∧
        ((s.stack stk).inUse k = false →
          (badPairs role v = true → ∃ t, exec (.bankRoleWrite stk k true v) s = .next t ∧ (t.stack stk).sstat = 8 ∧ (t.stack stk).spair = (s.stack stk).spair) ∧
          (badPairs role v = false → ∃ t, exec (.bankRoleWrite stk k true v) s = .next t ∧ (t.stack stk).sstat = 0 ∧
            fld (vget (t.stack stk).spair k 0) 0 16 = fld v 0 16 ∧ (t.stack stk).srole = (s.stack stk).srole) ∧
          (badRoles role v pair = true → ∃ t, exec (.bankRoleWrite stk k false v) s = .next t ∧ (t.stack stk).sstat = 8 ∧
            (t.stack stk).srole = (s.stack stk).srole) ∧
          (badRoles role v pair = false → (∃ n, n < 32 ∧ roleAt role n = 0 ∧ roleAt v n ≠ 0) →
            ∃ t, exec (.bankRoleWrite stk k false v) s = .next t ∧ (vget (t.stack stk).spair k 0).getLsbD 32 = true ∧
              (k, v) ∈ (t.stack stk).drains ∧ (t.stack stk).srole = (s.stack stk).srole) ∧
          (badRoles role v pair = false → (∀ n, n < 32 → roleAt role n = 0 → roleAt v n = 0) →
            ∃ t, exec (.bankRoleWrite stk k false v) s = .next t ∧ vget (t.stack stk).srole k 0 = v ∧ (t.stack stk).sstat = 0))) ∧
      (lookupN k (s.stack stk).drains = some v → (∀ l : CLine, l ∈ s.memory.lines → l.agent ≠ 11 * stk + k / 8) →
        ∃ t, exec (.roleDrainDone stk k) s = .next t ∧ vget (t.stack stk).srole k 0 = v ∧ (vget (t.stack stk).spair k 0).getLsbD 32 = false ∧
          t.memory = s.memory)) ∧
    (∀ v, ((s.stack stk).wslen.getLsbD 63 = true → exec (.wsLoad stk v) s = .next s) ∧
      ((s.stack stk).wslen.getLsbD 63 = false →
        (s.wsIdle stk = false → ∃ t, exec (.wsLoad stk v) s = .next t ∧ (t.stack stk).wslen = wslenWord 0 1 0 ∧ (t.stack stk).ws = (s.stack stk).ws) ∧
        (s.wsIdle stk = true → fld v 6 26 = 0 ∨ 0xC0000000 < fld (s.stack stk).wsdst 6 26 * 64 + fld v 6 26 * 64 →
          ∃ t, exec (.wsLoad stk v) s = .next t ∧ (t.stack stk).wslen = wslenWord 0 2 0 ∧ (t.stack stk).ws = (s.stack stk).ws ∧
            (t.stack stk).wsjob = (s.stack stk).wsjob) ∧
        (s.wsIdle stk = true → fld v 6 26 ≠ 0 → fld (s.stack stk).wsdst 6 26 * 64 + fld v 6 26 * 64 ≤ 0xC0000000 →
          ∃ t, exec (.wsLoad stk v) s = .next t ∧ (t.stack stk).wslen = wslenWord 1 0 0 ∧ (t.stack stk).ws = (s.stack stk).ws ∧
            (t.stack stk).wsjob = some (fld (s.stack stk).wssrc 6 46 * 64, fld (s.stack stk).wsdst 6 26 * 64, fld v 6 26 * 64)))) ∧
    (∀ len src dst : Nat, (s.stack stk).wsjob = some (src, dst, len) →
      (s.paOk src = true → s.paOk (src + len - 1) = true → s.homeFree src len = true →
        (s.poisoned src len = false → ∃ t, exec (.wsLoadDone stk false) s = .next t ∧ (t.stack stk).wslen = wslenWord 0 0 0 ∧
          (t.stack stk).ws = (s.stack stk).ws.setN dst (s.homeRead src len) ∧ t.memory.mem = s.memory.mem ∧ t.core = s.core) ∧
        (∃ t, exec (.wsLoadDone stk true) s = .next t ∧ (t.stack stk).wslen = wslenWord 0 3 0 ∧ t.memory.mem = s.memory.mem ∧ t.core = s.core)) ∧
      (s.engineRead src len = none → ∀ ue, ∃ t, exec (.wsLoadDone stk ue) s = .next t ∧ (t.stack stk).wslen = wslenWord 0 2 0 ∧
        (t.stack stk).ws = (s.stack stk).ws ∧ t.memory = s.memory ∧ t.core = s.core))

/-- R337 to R341 and R362. `takeAck` is the cumulative acknowledgement of R337. The model's choices: a round trip above 500 ns, which R339
calls not ACTIVE, leaves the link FAILED (log 27), and ROUTE_WRITE waits for the whole replay buffer of the old link (log 8). -/
def Obligations.LinkEvents : Prop :=
  ∀ (s : State) (n : Nat), n < 16 →
    ((s.link n).en = true → exec (.linkEnable n) s = .next s) ∧
    ((s.link n).en = false → ∃ t, exec (.linkEnable n) s = .next t ∧ (t.link n).en = true ∧
      (t.link n).state = (if s.regs.lim.lnk.getLsbD n then 1 else 0) ∧ t.core = s.core ∧ t.memory = s.memory) ∧
    (∀ ok rtt pm pl nm inc, (s.link n).state = 1 → ∃ t, exec (.linkTrained n ok rtt pm pl nm inc) s = .next t ∧ (t.link n).rtt = rtt ∧
      (t.link n).peerMid = pm ∧ (t.link n).peerLink = pl ∧
      (ok = true → rtt ≤ 500 → s.regs.lim.lnk.getLsbD n = true → nm = s.nmod → s.staleInc pm (BitVec.ofNat 16 inc) = false →
        (t.link n).state = 2 ∧ t.incOf pm = BitVec.ofNat 16 inc) ∧
      (ok = false ∨ 500 < rtt ∨ s.regs.lim.lnk.getLsbD n = false ∨ nm ≠ s.nmod ∨ s.staleInc pm (BitVec.ofNat 16 inc) = true →
        (t.link n).state = 3)) ∧
    (∀ d v, ∀ w : Word, w = v &&& 0x800000000000000F →
      (s.oldLinkClear d = true → exec (.routeWrite d v) s = .next (s.switchRoute d w)) ∧
      (s.oldLinkClear d = false → ∃ t, exec (.routeWrite d v) s = .next t ∧ lookupN d t.domain.pending = some w ∧
        t.domain.routes = s.domain.routes ∧ t.links = s.links)) ∧
    (∀ d w, lookupN d s.domain.pending = some w → s.oldLinkClear d = true → exec (.routeSwitch d) s = .next (s.switchRoute d w)) ∧
    (∀ bs : List Byte, bs.length = 128 → (s.link n).state = 2 →
      (leNat ((bs.drop 120).take 8) ≠ (crc64 (bs.take 120)).toNat → leNat (bs.take 2) < 16384 →
        ∃ t, exec (.dataFlit n bs) s = .next t ∧ (t.link n).nak = true ∧
        (t.link n).expect = (s.link n).expect ∧ (t.link n).rx = (s.link n).rx) ∧
      (leNat ((bs.drop 120).take 8) = (crc64 (bs.take 120)).toNat → leNat (bs.take 2) < 16384 →
        (BitVec.ofNat 12 (leNat (bs.take 2)) = (s.link n).expect → ∃ t, exec (.dataFlit n bs) s = .next t ∧
          (t.link n).expect = (s.link n).expect + 1 ∧ (t.link n).nak = false ∧ t.core = s.core) ∧
        (BitVec.ofNat 12 (leNat (bs.take 2)) ≠ (s.link n).expect → ∃ t, exec (.dataFlit n bs) s = .next t ∧
          (t.link n).expect = (s.link n).expect ∧ (t.link n).nak = true)) ∧
      (leNat ((bs.drop 120).take 8) ≠ (crc64 (bs.take 120)).toNat → 16384 ≤ leNat (bs.take 2) →
        exec (.dataFlit n bs) s = .next (s.logCe (47 + n) 0 0 4 0)) ∧
      (leNat ((bs.drop 120).take 8) = (crc64 (bs.take 120)).toNat → 16384 ≤ leNat (bs.take 2) →
        leNat (bs.take 2) / 16384 ≠ 1 ∨ isControl (leNat ((bs.drop 8).take 1)) = false → exec (.dataFlit n bs) s = .next s) ∧
      (leNat ((bs.drop 120).take 8) = (crc64 (bs.take 120)).toNat → leNat (bs.take 2) / 16384 = 1 →
        isControl (leNat ((bs.drop 8).take 1)) = true → exec (.dataFlit n bs) s = .next (State.takeControl (s.takeAck n (BitVec.ofNat 12 (leNat ((bs.drop 2).take 2)))) n
          (leNat ((bs.drop 8).take 1)) (leNat ((bs.drop 9).take 2))))) ∧
    ((s.link n).state = 2 →
      (∀ seq u, u = s.takeAck n (seq - 1) →
        ((u.link n).buffer = [] → exec (.linkNak n seq) s = .next u) ∧
        ((u.link n).buffer ≠ [] → (u.link n).replayed < 7 → ∃ t, exec (.linkNak n seq) s = .next t ∧
          t.outward = u.outward ++ (u.link n).buffer.map (fun e => .flit n e.2) ∧ (t.link n).replayed = (u.link n).replayed + 1) ∧
        ((u.link n).buffer ≠ [] → 7 ≤ (u.link n).replayed → ∃ t, exec (.linkNak n seq) s = .next t ∧ (t.link n).state = 3 ∧
          t.outward = u.outward ++ (u.link n).buffer.map (fun e => .flit n e.2))) ∧
      (∀ ack, exec (.linkIdle n ack) s = .next (s.takeAck n ack)) ∧
      (∀ vl : BitVec 2, (∃ t, exec (.linkPause n vl) s = .next t ∧ vget (t.link n).paused vl.toNat false = true) ∧
        (∃ t, exec (.linkResume n vl) s = .next t ∧ vget (t.link n).paused vl.toNat false = false)) ∧
      (∀ ch : BitVec 12, (∃ t, exec (.linkCpause n ch) s = .next t ∧ ch ∈ (t.link n).chPaused) ∧
        (∃ t, exec (.linkCresume n ch) s = .next t ∧ ch ∉ (t.link n).chPaused))) ∧
    ((s.link n).nak = true → exec (.nakRepeat n) s = .next (s.sendControl n 1 (s.link n).expect.toNat)) ∧
    (∀ v, v < 4 → vget (s.link n).sentPause v false = true → (s.link n).state = 2 → ∃ t, exec (.pauseRepeat n) s = .next t ∧
      Outward.flit n ((s.link n).control 2 v) ∈ t.outward ∧ t.memory = s.memory) ∧
    ((s.link n).sentResume ≠ [] → ∃ t, exec (.resumeRepeat n) s = .next t ∧ (t.link n).sentResume = [] ∧ t.memory = s.memory)

/-- R135, R50, R44, R130, R160, R338, R339 and R342. The bodies of the messages are the model's own (log 9), and so is a time base that never
goes back (log 27). `oldestAt` is the order of age at a line (R130). -/
def Obligations.MessageEvents : Prop :=
  ∀ (s : State) (n : Nat) (m : Msg), n < 16 →
    ((s.link n).serving = [] → (s.link n).rx.find? (fun q => q.cls == 0 && s.oldestAt (MemReq.read q.body)) = some m → ∀ r fans u, s.serveMem (MemReq.read m.body) = some (r, fans, u) →
      ((u.consume n m).fansRun fans = false → exec (.memoryRequestMsg n) s = .next ((u.consume n m).respond m r)) ∧
      ((u.consume n m).fansRun fans = true → ∃ t, exec (.memoryRequestMsg n) s = .next t ∧
        (t.link n).serving = ((u.consume n m).link n).serving ++ [(m, r.bytes, fans)])) ∧
    (∀ e, (s.link n).serving = [e] → s.fansRun e.2.2 = false → ∃ u : State, (u.link n).serving = [] ∧ u.memory = s.memory ∧
      exec (.memoryRequestMsg n) s = .next (u.respond e.1 (MemResp.read e.2.1))) ∧
    ((s.link n).first 1 = some m →
      exec (.responseMsg n) s = .next ((s.consume n m).takeResponse m.tag (MemResp.read m.body)).hearthRun) ∧
    (∀ rest, (s.link n).rx = m :: rest → m.cls = 2 → (s.channel m.chan).queue.length < 64 → ∃ t, exec (.linkMessageMsg n) s = .next t ∧
      (t.channel m.chan).queue = (s.channel m.chan).queue ++ [qmsgOf m.body] ∧ t.memory = s.memory) ∧
    (∀ rest ok, (s.link n).rx = m :: rest → m.cls = 3 → s.barrierReady (BMsg.read m.body) = some ok →
      ∀ b : BMsg, b = BMsg.read m.body → ∀ u : State, u = s.consume n m →
      exec (.barrierMsg n) s = .next (if ok then
        State.settleGroups { u with groups := u.groups.map (fun (g : BGroup) => if g.named b then g.take b else g) } else u)) ∧
    ((s.link n).first 4 = some m → exec (.nodeDirectoryMsg n) s = .next ((s.consume n m).serveK m.src m.tag (KReq.read m.body))) ∧
    ((s.link n).first 5 = some m → ∃ t u : State, exec (.timeBaseMsg n) s = .next t ∧ (t = u ∨ t = u.reclaimTest) ∧
      u.regs.m.tbase = BitVec.ofNat 64 (max s.regs.m.tbase.toNat (leNat (m.body.take 8))) ∧ u.domain.master = some m.src ∧ u.memory = s.memory ∧
      u.core = s.core) ∧
    ((s.link n).first 6 = some m →
      (leNat (m.body.take 1) ≠ 1 → exec (.managementMsg n) s = .next (s.consume n m)) ∧
      (leNat (m.body.take 1) = 1 → exec (.managementMsg n) s = .next ((s.consume n m).placed (leNat ((m.body.drop 1).take 2)))))

/-- R309, R360 to R362 and R364 to R367. The model's choices: the codes of the SPDM answers (log 13), the refused value in ADDR of event 15
(log 14), and bank 44, which records the thermal shutdown and survives it (log 28). -/
def Obligations.BoardEvents : Prop :=
  ∀ s : State,
    (∀ off v, (∀ l, s.regs.lim.narrow off v = some l → ∃ t u : State, exec (.limiterWrite off v) s = .next t ∧ t = u.regate.hearthRun ∧
        u.regs.lim = l ∧ u.core = s.core) ∧
      (s.regs.lim.narrow off v = none → exec (.limiterWrite off v) s = .next (s.post ⟨15, 0xFFFF, 0, v, 0⟩))) ∧
    (∀ v, (fld v 0 12 ≤ fld s.regs.lim.pwr 0 12 → ∃ l, s.regs.lim.narrow 0x100 v = some l ∧ fld l.pwr 0 12 = fld v 0 12) ∧
      (fld s.regs.lim.pwr 0 12 < fld v 0 12 → s.regs.lim.narrow 0x100 v = none)) ∧
    (∀ (die inlet outlet : BitVec 16) (watts : BitVec 12), ∃ t u : State, exec (.thermalCapTick ⟨die, inlet, outlet, watts⟩) s = .next t ∧
      t = u.regate.hearthRun ∧ fld u.regs.telem.temp 0 16 = die.toNat ∧ fld u.regs.telem.temp 16 16 = inlet.toNat ∧
      fld u.regs.telem.temp 32 16 = outlet.toNat ∧ fld u.regs.telem.pwr 0 12 = watts.toNat ∧
      (1600 ≤ die.toNat → u.board.thermalCap = max 760 (s.board.thermalCap - 50)) ∧
      (die.toNat ≤ 1520 → u.board.thermalCap = min 2600 (s.board.thermalCap + 50)) ∧
      (1520 < die.toNat → die.toNat < 1600 → u.board.thermalCap = s.board.thermalCap)) ∧
    (∀ die : BitVec 16, 1760 ≤ die.toNat → ∃ t, exec (.thermalShutdown die) s = .next t ∧ t.board.power = false ∧
      (t.bank 44).eue.getLsbD 63 = true ∧ t.board.fw = s.board.fw) ∧
    (∃ t, exec .powerRemoval s = .next t ∧ t.board.power = false ∧ t.board.fw = s.board.fw ∧ t.board.floor = s.board.floor ∧
      t.core = State.reset.core ∧ t.others = []) ∧
    (s.board.power = false → ∃ t, exec .powerUp s = .next t ∧ t.board.power = true ∧ t.core = s.core ∧ t.memory = s.memory) ∧
    (∀ port, ∃ t, exec (.cxlLinkDown port) s = .next t ∧ vget t.board.portUp port.toNat true = false ∧
      vget t.board.portUp (!port).toNat true = vget s.board.portUp (!port).toNat true ∧ t.memory = s.memory) ∧
    (∀ ver sec bytes, ∃ t, exec (.pldmFirmwareUpdate ver sec bytes) s = .next t ∧
      vget t.board.fw s.board.inactive ⟨false, 0, 0, []⟩ = ⟨true, ver, sec, bytes⟩ ∧
      (∀ k, s.board.booted = some k → k < 2 → vget t.board.fw k ⟨false, 0, 0, []⟩ = vget s.board.fw k ⟨false, 0, 0, []⟩) ∧
      t.board.booted = s.board.booted ∧ t.memory = s.memory) ∧
    (∃ t, exec .securityFloorAdvance s = .next t ∧ s.board.floor ≤ t.board.floor ∧
      (∀ k, s.board.booted = some k → (vget s.board.fw k ⟨false, 0, 0, []⟩).sec ≤ t.board.floor) ∧ t.memory = s.memory) ∧
    (∃ t, exec .spdmNegotiateAlgorithms s = .next t ∧ t.board.agreed = true ∧ t.memory = s.memory) ∧
    (s.board.agreed = false →
      (∃ t, exec .spdmGetCertificate s = .next t ∧ t.outward = s.outward ++ [.mctpRefused 1] ∧ t.board = s.board) ∧
      (∀ nonce, ∃ t, exec (.spdmChallenge nonce) s = .next t ∧ t.outward = s.outward ++ [.mctpRefused 2] ∧ t.board = s.board) ∧
      (∀ idx, ∃ t, exec (.spdmGetMeasurements idx) s = .next t ∧ t.outward = s.outward ++ [.mctpRefused 3] ∧ t.board = s.board)) ∧
    (s.board.agreed = true →
      (∃ t bs, exec .spdmGetCertificate s = .next t ∧ t.outward = s.outward ++ [.spdm 1 bs]) ∧
      (∀ nonce, ∃ t sig, exec (.spdmChallenge nonce) s = .next t ∧ t.outward = s.outward ++ [.spdm 2 (leBytes 32 nonce.toNat ++ sig)] ∧ sig.length = 132) ∧
      (∀ idx d, s.measurement idx = some d → ∃ t sig, exec (.spdmGetMeasurements idx) s = .next t ∧
        t.outward = s.outward ++ [.spdm 3 (d ++ sig)] ∧ sig.length = 132 ∧ t.measurement idx = some d))

/-- R165 to R174 with Tables 7.1 to 7.9, on words written out bit by bit. -/
def Obligations.DecodedWords : Prop :=
  let all (g : BitVec 4) (t : BitVec 8) : Head := ⟨false, false, g, 0, 0, t, false⟩
  let u : Head := all 0 0xFF
  let addi : Instr := .addi u ⟨4, 4, .imm (-3)⟩
  let vadd : Instr := .vadd ⟨false, false, 3, 5, 0, 0x30, false⟩ ⟨20, 21, 22, .s32, false, false⟩
  let cpy : Instr := .cpy u ⟨10, 11, 12, 2, 2, .pk, false, 0, 0⟩
  decodeSlot 0 false 0x000FF021047FFFFD 0 = some addi ∧
  decodeSlot 1 false 0x3503001050150588 0 = some vadd ∧
  decodeSlot 4 false 0x000FF0128B314C00 0 = some cpy ∧
  decodeSlot 0 false 0x200F03030A1E0064 0 = some (.cmp (all 2 0xF0) ⟨3, 0, .ge, false, 7, .imm 100⟩) ∧
  decodeSlot 0 false 0x000FF45FFFFFFFC5 0 = some (.brloop u ⟨-1, 5⟩) ∧
  decodeSlot 1 false 0x000FF140200942A4 0 = some (.vcvt u ⟨8, 9, 0x10A, .f32, false, false⟩) ∧
  decodeSlot 3 false 0x000FF04090C82800 0 = some (.mma u ⟨false, 4, true, 3, 2, 2, true, 0⟩) ∧
  decodeSlot 4 false 0x000FF081460018B6 0 = some (.ldg u ⟨5, 6, 0, 1, 2, .acq, .pk, 3, false⟩) ∧
  decodeSlot 4 false 0x000FF025155982D0 0 = some (.cpyr u ⟨20, 21, 22, 3, 0, .cr, true, 3, 16⟩) ∧
  decodeSlot 4 false 0x000FF0F31400BCD0 0 = some (.waitaddr u ⟨12, 20, 0, 11, 3, .acq, .sy, 0, false⟩) ∧
  decodeSlot 4 false 0x000FF2B3D4010000 0 = some (.kwr u ⟨15, 20, 0, 2, false, 0, 0⟩) ∧
  decodeSlot 4 false 0x200F00900E340002 0 = some (.stg (all 2 0xF0) ⟨0, 14, 13, 0, 0, .rlx, .cr, 1, false⟩) ∧
  decodeBundle (0x13 :: (leBytes 8 0x000FF021047FFFFD ++ leBytes 8 0x3503001050150588 ++ leBytes 8 0x000FF0128B314C00)) =
    .ok ⟨[addi, vadd, cpy], 25⟩

/-- R165 to R174 and R77: one word, one meaning. -/
def Obligations.DecodeEncode : Prop :=
  (∀ (i : Instr) (bs rest : List Byte), i.wf = true → encode i = some bs → decodeBundle (bs ++ rest) = .ok ⟨[i], bs.length⟩) ∧
  (∀ (k : Nat) (spec : Bool) (w lit : Word) (i : Instr), k < 6 → decodeSlot k spec w lit = some i →
    i.wf = true ∧ ∃ e, i.enc = some e ∧ e.word = w ∧ e.slot = k ∧ e.head.spec = spec ∧ (e.lit = none ∨ e.lit = some lit))

/-- The byte storage of device and host memory (the model's form, log 2) under every instruction and event. -/
def Obligations.MemoryStaysCanonical : Prop :=
  ∀ s t : State, s.memoryWf → step s = .next t → t.memoryWf

/-- Register space and banks (the model's form, log 2) under every instruction and event. -/
def Obligations.StorageStaysCanonical : Prop :=
  ∀ s t : State, (∀ c ∈ s.cores, c.storageWf) → step s = .next t → ∀ c ∈ t.cores, c.storageWf

/-- R308, R309 with Tables 15.2 to 15.6 and 16.3; zero elsewhere is log 3. -/
def Obligations.ResetHolds : Prop :=
  let s := State.reset
  s.mstate = 0 ∧ fld s.regs.m.hcfg 16 14 = 100 ∧ s.regs.m.hcfg.getLsbD 63 = false ∧
  markLow s.regs.m.crmark = 0x300 ∧ markHigh s.regs.m.crmark = 0x3C0 ∧ markBreak s.regs.m.crmark = 0x400 ∧ markCxl s.regs.m.crmark = 0x400 ∧
  (∀ k, k < 8 → (∀ j, j < 88 → vget (s.stack k).slab j 0 = BitVec.ofNat 64 (j % 8 * 1024) ∧ ∀ n, n < 32 → roleAt (vget (s.stack k).srole j 0) n = 1) ∧
    (∀ f, f < 112 → (vget (s.stack k).cbind f 0).getLsbD 63 = true ∧ gwOf (vget (s.stack k).cbind f 0) = 0)) ∧
  fld s.core.drv.frec 60 4 = 15 ∧ fld s.core.drv.frec 48 8 = 0xFF ∧ s.core.cstate = 0 ∧ s.others = [] ∧ s.hearth.launches = [] ∧
  s.memory.lines = [] ∧ s.memory.tlb = [] ∧ s.agenda = [] ∧ s.memoryWf ∧ (∀ c ∈ s.cores, c.storageWf)

/-- R74 and R76 over every opcode of the S, M and C classes. -/
def Obligations.SuppressedSlots : Prop :=
  ∀ (s : State) (i : Instr) (e : Enc), i.enc = some e →
    (e.cls = .S ∨ e.cls = .M ∨ e.cls = .C) → (match i with
      | .vldg h o | .vstg h o => s.core.enabledBytes h (esize o.ty) = []
      | _ => s.core.enabled e.head = false) → exec i s = .next s

/-- The focus is the model's own device (log 1); no rule distinguishes a core by it. -/
def Obligations.EventsFollowFocus : Prop :=
  ∀ (s u t : State) (i : Instr) (n : Nat), eventCore i = some n → s.focus n = some u → exec i u = .next t →
    exec i s = .next ((t.focus s.core.cnum).getD t)

/-- R188 with Table 8.2: the arithmetic instructions write x[d] := Op(A, B), with the latency of Table 8.1 and R186. -/
def Obligations.ArithmeticResults : Prop :=
  ∀ (h : Head) (s : State), s.runs h →
    (∀ o : SR,
      let A := s.core.x o.a
      let B := s.core.x o.b
      let n := (B.extractLsb' 0 6).toNat
      let put (lat : Nat) (v : Word) : Host.Outcome State Fault Refusal := .next (s.queued 0 (lat + late h) (.x o.d v))
      exec (.add h o) s = put 1 (A + B) ∧
      exec (.sub h o) s = put 1 (A - B) ∧
      exec (.mul h o) s = put 3 (A * B) ∧
      exec (.mulh h o) s = put 3 ((A.signExtend 128 * B.signExtend 128).extractLsb' 64 64) ∧
      exec (.mulhz h o) s = put 3 ((A.zeroExtend 128 * B.zeroExtend 128).extractLsb' 64 64) ∧
      exec (.and h o) s = put 1 (A &&& B) ∧
      exec (.or h o) s = put 1 (A ||| B) ∧
      exec (.xor h o) s = put 1 (A ^^^ B) ∧
      exec (.andn h o) s = put 1 (A &&& ~~~B) ∧
      exec (.shl h o) s = put 1 (A <<< n) ∧
      exec (.shr h o) s = put 1 (A >>> n) ∧
      exec (.shra h o) s = put 1 (A.sshiftRight n) ∧
      exec (.rot h o) s = put 1 (A.rotateRight n) ∧
      (∃ k, k ≤ 64 ∧ exec (.clz h o) s = put 1 (BitVec.ofNat 64 k) ∧
        (∀ j, j < 64 → 64 - k ≤ j → A.getLsbD j = false) ∧ (k < 64 → A.getLsbD (63 - k) = true)) ∧
      exec (.popc h o) s = put 1 (BitVec.ofNat 64 ((List.range 64).filter (fun j => A.getLsbD j)).length) ∧
      exec (.min h o) s = put 1 (if A.slt B then A else B) ∧
      exec (.max h o) s = put 1 (if A.slt B then B else A) ∧
      exec (.minz h o) s = put 1 (if A.ult B then A else B) ∧
      exec (.maxz h o) s = put 1 (if A.ult B then B else A) ∧
      exec (.mov h o) s = put 1 A) ∧
    (∀ (d a : XReg) (v : BitVec 23) (w : Word),
      let A := s.core.x a
      let n := (v.extractLsb' 0 6).toNat
      let put (r : Word) : Host.Outcome State Fault Refusal := .next (s.queued 0 (1 + late h) (.x d r))
      exec (.addi h ⟨d, a, .imm v⟩) s = put (A + v.signExtend 64) ∧ exec (.addi h ⟨d, a, .lit w⟩) s = put (A + w) ∧
      exec (.andi h ⟨d, a, .imm v⟩) s = put (A &&& v.zeroExtend 64) ∧ exec (.andi h ⟨d, a, .lit w⟩) s = put (A &&& w) ∧
      exec (.ori h ⟨d, a, .imm v⟩) s = put (A ||| v.zeroExtend 64) ∧ exec (.ori h ⟨d, a, .lit w⟩) s = put (A ||| w) ∧
      exec (.xori h ⟨d, a, .imm v⟩) s = put (A ^^^ v.zeroExtend 64) ∧ exec (.xori h ⟨d, a, .lit w⟩) s = put (A ^^^ w) ∧
      exec (.shli h ⟨d, a, .imm v⟩) s = put (A <<< n) ∧
      exec (.shri h ⟨d, a, .imm v⟩) s = put (A >>> n) ∧
      exec (.shrai h ⟨d, a, .imm v⟩) s = put (A.sshiftRight n) ∧
      exec (.movi h ⟨d, a, .imm v⟩) s = put (v.signExtend 64) ∧ exec (.movi h ⟨d, a, .lit w⟩) s = put w)

/-- R189: Divide(A, B, signed), for every A and B; no trap. -/
def Obligations.DivisionResults : Prop :=
  ∀ (h : Head) (s : State) (o : SR), s.runs h →
    let A := s.core.x o.a
    let B := s.core.x o.b
    let put (v : Word) : Host.Outcome State Fault Refusal := .next (s.queued 0 (18 + late h) (.x o.d v))
    (B = 0 →
      exec (.div h o) s = put (BitVec.allOnes 64) ∧ exec (.divz h o) s = put (BitVec.allOnes 64) ∧
      exec (.rem h o) s = put A ∧ exec (.remz h o) s = put A) ∧
    (A.toInt = -2 ^ 63 → B.toInt = -1 →
      exec (.div h o) s = put (BitVec.ofInt 64 (-2 ^ 63)) ∧ exec (.rem h o) s = put 0) ∧
    (B ≠ 0 → ¬(A.toInt = -2 ^ 63 ∧ B.toInt = -1) →
      let q := A.toInt.tdiv B.toInt
      exec (.div h o) s = put (BitVec.ofInt 64 q) ∧ exec (.rem h o) s = put (BitVec.ofInt 64 (A.toInt - q * B.toInt))) ∧
    (B ≠ 0 →
      let q := A.toNat / B.toNat
      exec (.divz h o) s = put (BitVec.ofNat 64 q) ∧ exec (.remz h o) s = put (BitVec.ofNat 64 (A.toNat - q * B.toNat)))

/-- R190: the field is cut at bit 63; with len = 0 EXT writes 0 and INS leaves x[d]. -/
def Obligations.BitfieldResults : Prop :=
  ∀ (h : Head) (s : State) (o : SR), s.runs h →
    let A := s.core.x o.a
    let B := s.core.x o.b
    let pos := (B.extractLsb' 0 6).toNat
    let len := (B.extractLsb' 8 7).toNat
    let put (v : Word) : Host.Outcome State Fault Refusal := .next (s.queued 0 (1 + late h) (.x o.d v))
    (∃ v : Word, exec (.ext h o) s = put v ∧
      ∀ k, k < 64 → v.getLsbD k = (decide (k < len) && decide (pos + k < 64) && A.getLsbD (pos + k))) ∧
    (∃ v : Word, exec (.ins h o) s = put v ∧
      ∀ k, k < 64 → v.getLsbD k = (if pos ≤ k ∧ k < pos + len then A.getLsbD (k - pos) else (s.core.x o.d).getLsbD k)) ∧
    exec (.lea h o) s = put (A + B * BitVec.ofNat 64 (2 ^ o.c.toNat)) ∧
    (o.c = 0 → exec (.sext h o) s = put ((A.extractLsb' 0 8).signExtend 64)) ∧
    (o.c = 1 → exec (.sext h o) s = put ((A.extractLsb' 0 16).signExtend 64)) ∧
    (o.c = 2 → exec (.sext h o) s = put ((A.extractLsb' 0 32).signExtend 64))

/-- R193, R194 and R78, for every condition, operand form and destination. -/
def Obligations.CompareResults : Prop :=
  ∀ (h : Head) (s : State), s.runs h →
    (∀ (o : SC) (w : Word),
      let A := s.core.x o.a
      let B := match o.src with
        | .reg b => s.core.x b
        | .imm v => if o.z then v.zeroExtend 64 else v.signExtend 64
      let n := match o.src with
        | .reg b => (s.core.x b).toNat % 64
        | .imm v => v.toNat % 64
      let truth (x y : Word) : Bool := match o.cc with
        | .eq => x == y
        | .ne => x != y
        | .lt => if o.z then x.ult y else x.slt y
        | .le => if o.z then x.ule y else x.sle y
        | .gt => if o.z then y.ult x else y.slt x
        | .ge => if o.z then y.ule x else y.sle x
      let put (t : Bool) : Host.Outcome State Fault Refusal :=
        .next ((s.queued 0 (1 + late h) (.f (fmask o.ft) (fval o.ft t))).queued 0 (1 + late h) (.f (fmask o.ff) (fval o.ff (!t))))
      ((o.ft = o.ff → o.ft = 0) →
        exec (.cmp h o) s = put (truth A B) ∧
        exec (.cmpi h o w) s = put (truth A w) ∧
        (o.cc = .ne → exec (.tbit h o) s = put (A.getLsbD n)) ∧
        (o.cc = .eq → exec (.tbit h o) s = put (!A.getLsbD n))) ∧
      (o.ft = o.ff → o.ft ≠ 0 →
        exec (.cmp h o) s = .next (s.faulted 0 cILLOP (slotWord (.cmp h o))) ∧
        exec (.cmpi h o w) s = .next (s.faulted 0 cILLOP (slotWord (.cmpi h o w))) ∧
        exec (.tbit h o) s = .next (s.faulted 0 cILLOP (slotWord (.tbit h o))))) ∧
    (∀ o : SR,
      exec (.pset h o) s = .next (s.queued 0 (1 + late h)
        (.f (fmask (o.d.extractLsb' 0 4)) (fval (o.d.extractLsb' 0 4) (s.core.x o.a != 0)))) ∧
      (∃ v : Word, exec (.pget h o) s = .next (s.queued 0 (1 + late h) (.x o.d v)) ∧
        ∀ k, k < 64 → v.getLsbD k = (decide (k < 16) && s.core.f (BitVec.ofNat 4 k))) ∧
      ∃ v : PVal, exec (.pput h o) s = .next (s.queued 0 (1 + late h) v) ∧
        ∀ (c : Core) (r : FReg), (c.landVal v).f r =
          (if r ≠ 0 ∧ (s.core.x o.b).getLsbD r.toNat = true then (s.core.x o.a).getLsbD r.toNat else c.f r))

/-- R192, with ALIGN before XLATE by R175; the stored cells are those of A in each member, in the front bank of a pair. -/
def Obligations.ScratchpadScalar : Prop :=
  ∀ (h : Head) (s : State) (o : SP), s.core.enabled h = true →
    let A := (s.core.x o.a + o.off.signExtend 64).toNat
    let b := 2 ^ (o.sz.toNat % 4)
    (A % b ≠ 0 →
      exec (.ldsp h o) s = .next (s.faulted 0 cALIGN (BitVec.ofNat 64 A)) ∧
      exec (.stsp h o) s = .next (s.faulted 0 cALIGN (BitVec.ofNat 64 A))) ∧
    (A % b = 0 → s.okBank A = false →
      exec (.ldsp h o) s = .next (s.faulted 0 cXLATE (BitVec.ofNat 64 A)) ∧
      exec (.stsp h o) s = .next (s.faulted 0 cXLATE (BitVec.ofNat 64 A))) ∧
    (A % b = 0 → s.okBank A = true →
      (let v := leNat (s.bankRead 0 A b)
       exec (.ldsp h o) s = .next (s.queued 0 6 (.x o.d
         (if o.sz.toNat < 4 then BitVec.ofInt 64 (if 2 ^ (8 * b - 1) ≤ v then (v : Int) - 2 ^ (8 * b) else v) else BitVec.ofNat 64 v)))) ∧
      ∃ cells, exec (.stsp h o) s = .next { s with core := s.core.pushBank 2 cells } ∧
        cells = (List.range s.core.g).flatMap (fun g => (List.range b).map (fun i =>
          (s.bankAddr false g (A + i), (s.core.x o.d).extractLsb' (8 * i) 8))))

/-- R197 and R199, with the SJ target of R172. -/
def Obligations.BranchEffects : Prop :=
  ∀ (h : Head) (s : State), s.core.enabled h = true →
    (∀ o : SJ,
      let target : BitVec 56 := (s.core.front.pc.extractLsb' 6 50 + o.off.signExtend 50) ++ o.byte
      exec (.br h o) s = .next (s.boundary (.jump target)) ∧
      exec (.call h o) s = .next ((s.queued 0 1 (.x 63 (s.core.front.nextPc.zeroExtend 64))).boundary (.jump target)) ∧
      (let rsize := fld s.core.ctl.vview 32 11
       let woff := fld s.core.ctl.vview 43 10
       let turned := s.boundary (.woff (BitVec.ofNat 10 (if 0 < rsize then (woff + 1) % rsize else woff)))
       (1 < s.core.ctl.iter.toNat →
         exec (.brloop h o) s = .next ((turned.boundary (.ctl 0x01A (s.core.ctl.iter - 1))).boundary (.jump target))) ∧
       (s.core.ctl.iter.toNat ≤ 1 → exec (.brloop h o) s = .next (turned.boundary (.ctl 0x01A 0))))) ∧
    (∀ o : SR,
      exec (.jmp h o) s = .next (s.boundary (.jump ((s.core.x o.a).extractLsb' 0 56))) ∧
      exec (.ret h o) s = .next (s.boundary (.jump ((s.core.x o.a).extractLsb' 0 56))))

/-- R198, with the targets of the literal as R172 lays them out: 16 bits each, a signed line offset and a byte. -/
def Obligations.BranchByPredicate : Prop :=
  ∀ (h : Head) (s : State) (o : SM) (lit : Word), s.core.enabled h = true →
    let preds : List FReg := [o.fa, o.fb, o.fc, o.fd].take o.n.toNat
    let target (j : Nat) : BitVec 56 :=
      (s.core.front.pc.extractLsb' 6 50 + (lit.extractLsb' (16 * j + 6) 10).signExtend 50) ++ lit.extractLsb' (16 * j) 6
    (∀ (pre post : List FReg) (f : FReg), preds = pre ++ f :: post → s.core.f f = true → (∀ g ∈ pre, s.core.f g = false) →
      exec (.brm h o lit) s = .next (s.boundary (.jump (target pre.length)))) ∧
    ((∀ g ∈ preds, s.core.f g = false) → exec (.brm h o lit) s = .next s)

/-- R200 to R205, R215, R216: the effect of each where the spec names no fault, hold or refusal of the value. -/
def Obligations.ControlEffects : Prop :=
  ∀ (h : Head) (s : State), s.core.enabled h = true →
    exec (.nop h) s = .next s ∧
    (s.core.inHandler = false → exec (.endTask h) s = .next (s.irrevocable.boundary .halt)) ∧
    (∀ o : SR, exec (.tick h o) s = .next (s.queued 0 3 (.x o.d s.regs.m.tbase))) ∧
    (∀ (d a : XReg) (v : BitVec 23),
      let n := (v.extractLsb' 0 12).toNat
      let A := s.core.x a
      ((∀ k, k < 8 → v.getLsbD k = true →
          (vget s.core.units.tokens k Token.zero).cnt = 0 ∧ (vget s.core.units.tokens k Token.zero).err = 0) →
        exec (.wait h ⟨d, a, .imm v⟩) s = .next s) ∧
      (∀ w, n < 0x800 → s.creg n = some w → exec (.mvfc h ⟨d, a, .imm v⟩) s = .next (s.queued 0 1 (.x d w))) ∧
      (n = 0 ∨ n = 1 → s.cregOk n (A &&& cregMask n) = true →
        exec (.mvtc h ⟨d, a, .imm v⟩) s = .next (s.queued 0 4 (.ctl (BitVec.ofNat 12 n) (A &&& cregMask n)))) ∧
      (∀ r : HRing, n = 0x010 + r.toNat → s.cregOk n (A &&& cregMask n) = true → s.core.ringInUse r = false →
        exec (.mvtc h ⟨d, a, .imm v⟩) s = .next (s.boundary (.ring r A))) ∧
      (n = 2 ∨ n = 3 ∨ n = 4 ∨ n = 8 ∨ n = 9 ∨ n = 0x00C ∨ n = 0x01A → s.cregOk n (A &&& cregMask n) = true →
        exec (.mvtc h ⟨d, a, .imm v⟩) s = .next (s.boundary (.ctl (BitVec.ofNat 12 n) A)))) ∧
    (∀ o : SI,
      let v := s.core.x o.a + immS o.imm
      (okFmt (v &&& cregMask 0) = true → exec (.fmt h o) s = .next (s.queued 0 4 (.ctl 0 (v &&& cregMask 0)))) ∧
      (o.d.toNat < 3 → s.cregOk (2 + o.d.toNat) (v &&& cregMask (2 + o.d.toNat)) = true →
        exec (.view h o) s = .next (s.boundary (.ctl (BitVec.ofNat 12 (2 + o.d.toNat)) v))) ∧
      (o.d = 3 → okVview (withWoff s.core.ctl.vview (v.extractLsb' 0 10)) = true →
        exec (.view h o) s = .next (s.boundary (.woff (v.extractLsb' 0 10)))))

/-- R206, R207, R210 (steps 1 to 3) and R212 with R265; UNLOCK marks the phase whether or not it is in a group (R298). `kAbandon` releases
the pins of a cancelled command. -/
def Obligations.GroupAndPhaseEffects : Prop :=
  ∀ (h : Head) (s : State), s.core.enabled h = true →
    (∀ (d a : XReg) (v : BitVec 23), s.core.front.granted = true → s.lockAgreed (v.extractLsb' 0 8) = true →
      let m := s.lockMask (v.extractLsb' 0 8)
      exec (.lock h ⟨d, a, .imm v⟩) s = .next (s.irrevocable.boundary (.lockm (if popCount 8 m.toNat < 2 then 0 else m)))) ∧
    (s.core.lockm = 0 → exec (.unlock h) s = .next s.irrevocable) ∧
    (s.core.lockm ≠ 0 → s.core.front.granted = true → exec (.unlock h) s = .next (s.irrevocable.boundary (.lockm 0))) ∧
    (s.flipBusy = false → (∀ k, k < 8 → (vget s.core.units.tokens k Token.zero).defErr = 0) →
      exec (.bflip h) s = .next (s.boundary .flip)) ∧
    ∃ t u : State, exec (.specx h) s = .next t ∧ t = (s.core.units.cmds.filter (fun k => k.spec)).foldl State.kAbandon u ∧
      u.core.units.cmds = s.core.units.cmds.filter (fun k => !k.spec) ∧
      (∀ k, k < 8 → (vget u.core.units.tokens k Token.zero).spec = false ∧ (vget u.core.units.tokens k Token.zero).defErr = 0 ∧
        (vget u.core.units.tokens k Token.zero).cnt = (vget s.core.units.tokens k Token.zero).cnt -
          BitVec.ofNat 4 ((s.core.units.cmds.filter (fun c => c.spec && c.tok.toNat == k)).length)) ∧
      (∀ g, g < 4 → vget u.core.phase.invalid g 0 = vget s.core.phase.invalid g 0 |||
        ((s.core.units.cmds.filter (fun k => k.spec)).foldl State.specMarks s).core.phase.specBanks) ∧
      u.core.regs = s.core.regs ∧ u.core.pipe = s.core.pipe ∧ u.core.ctl = s.core.ctl ∧ u.memory = s.memory ∧ u.crucible = s.crucible

/-- R195, R213, R214. -/
def Obligations.TrapAndCompareEffects : Prop :=
  ∀ (h : Head) (s : State), s.runs h →
    (∀ (d a : XReg) (v : BitVec 23),
      (s.core.inHandler = false →
        exec (.trap h ⟨d, a, .imm v⟩) s = .next { s.irrevocable with core := { s.irrevocable.core with
          front := { s.core.front with trapReq := some v } } }) ∧
      (s.core.inHandler = true →
        exec (.trap h ⟨d, a, .imm v⟩) s = .next (s.faulted 0 cILLOP (slotWord (.trap h ⟨d, a, .imm v⟩))))) ∧
    (s.core.inHandler = true → exec (.eret h) s = .next (s.boundary .drain)) ∧
    (s.core.inHandler = false → exec (.eret h) s = .next (s.faulted 0 cILLOP (slotWord (.eret h)))) ∧
    (∀ o : SR,
      (s.core.x o.a = s.core.x o.b → exec (.cmpt h o) s = .next s) ∧
      (∀ k, k < 8 → (∀ j, j < k → (s.core.x o.a).extractLsb' (8 * j) 8 = (s.core.x o.b).extractLsb' (8 * j) 8) →
        (s.core.x o.a).extractLsb' (8 * k) 8 ≠ (s.core.x o.b).extractLsb' (8 * k) 8 →
        exec (.cmpt h o) s = .next (s.faulted 0 cCMPT (BitVec.ofNat 64 k))))

/-- The faults and holds that the entries of R200 to R210 name. A core that has left the task is no member (R206; log 43). -/
def Obligations.ScalarRefusals : Prop :=
  ∀ (h : Head) (s : State), s.core.enabled h = true →
    (s.core.inHandler = true → exec (.endTask h) s = .next (s.faulted 0 cILLOP (slotWord (.endTask h)))) ∧
    (s.core.lockm ≠ 0 → s.core.front.granted = false → exec (.unlock h) s = .next (s.heldBy [.unlock])) ∧
    (s.flipBusy = true → exec (.bflip h) s = .next (s.heldBy [.flip])) ∧
    (∀ (d a : XReg) (v : BitVec 23),
      let i := SI.mk d a (.imm v)
      let n := (v.extractLsb' 0 12).toNat
      let m := v.extractLsb' 0 8
      (s.core.front.granted = false ∨ s.lockAgreed m = false →
        (s.core.lockm ≠ 0 ∨ m.getLsbD s.core.pos = false ∨ popCount 8 m.toNat < 2 ∨
            (∃ p, p < 8 ∧ m.getLsbD p = true ∧ p ≠ s.core.pos ∧ ∀ c ∈ s.teammates, c.pos ≠ p) ∨
            (∃ c ∈ s.peers, ∃ w, c.front.held = true ∧ Hold.lock w ∈ c.front.holds ∧
              ((w.getLsbD s.core.pos = true ∧ w ≠ s.lockMask m) ∨ (m.getLsbD c.pos = true ∧ w.getLsbD s.core.pos = false))) →
          exec (.lock h i) s = .next (s.faulted 0 cILLOP (slotWord (.lock h i)))) ∧
        (s.core.lockm = 0 → m.getLsbD s.core.pos = true → 2 ≤ popCount 8 m.toNat →
          (∀ p, p < 8 → m.getLsbD p = true → p ≠ s.core.pos → ∃ c ∈ s.teammates, c.pos = p) →
          (∀ c ∈ s.peers, ∀ w, c.front.held = true → Hold.lock w ∈ c.front.holds →
            (w.getLsbD s.core.pos = true → w = s.lockMask m) ∧ (m.getLsbD c.pos = true → w.getLsbD s.core.pos = true)) →
          exec (.lock h i) s = .next (s.heldBy [.lock (s.lockMask m)]))) ∧
      (0x800 ≤ n →
        exec (.mvfc h i) s = .next (s.faulted 0 cPRIV (slotWord (.mvfc h i))) ∧
        exec (.mvtc h i) s = .next (s.faulted 0 cPRIV (slotWord (.mvtc h i)))) ∧
      (n < 0x800 → s.creg n = none → exec (.mvfc h i) s = .next (s.faulted 0 cILLOP (slotWord (.mvfc h i)))) ∧
      (n < 0x800 → cregWritable n = false ∨ s.cregOk n (s.core.x a &&& cregMask n) = false →
        exec (.mvtc h i) s = .next (s.faulted 0 cILLOP (slotWord (.mvtc h i)))) ∧
      (∀ r : HRing, n = 0x010 + r.toNat → s.cregOk n (s.core.x a &&& cregMask n) = true → s.core.ringInUse r = true →
        exec (.mvtc h i) s = .next (s.heldBy [.ringBusy r])) ∧
      (∀ k, k < 8 → m.getLsbD k = true → (vget s.core.units.tokens k Token.zero).cnt ≠ 0 →
        exec (.wait h i) s = .next (s.heldBy [.tokens m])) ∧
      (∀ k, k < 8 → m.getLsbD k = true → (vget s.core.units.tokens k Token.zero).err ≠ 0 →
        (∀ j, j < 8 → m.getLsbD j = true → (vget s.core.units.tokens j Token.zero).cnt = 0 ∧
          (j < k → (vget s.core.units.tokens j Token.zero).err = 0)) →
        exec (.wait h i) s = .next (s.systemFault 0 (vget s.core.units.tokens k Token.zero).err.toNat k 0))) ∧
    (∀ o : SI,
      let v := s.core.x o.a + immS o.imm
      (okFmt (v &&& cregMask 0) = false → exec (.fmt h o) s = .next (s.faulted 0 cILLOP (slotWord (.fmt h o)))) ∧
      (o.d.toNat < 3 → s.cregOk (2 + o.d.toNat) (v &&& cregMask (2 + o.d.toNat)) = false →
        exec (.view h o) s = .next (s.faulted 0 cILLOP (slotWord (.view h o)))) ∧
      (o.d = 3 → okVview (withWoff s.core.ctl.vview (v.extractLsb' 0 10)) = false →
        exec (.view h o) s = .next (s.faulted 0 cILLOP (slotWord (.view h o)))))

/-- R186, by the example of ADD; the upsets are what the outside does to the copies. The record of a disagreement is bank 4 STK + 1 (log 4). -/
def Obligations.TripleVote : Prop :=
  ∀ (h : Head) (o : SR) (s : State), s.memoryWf → s.core.enabled h = true → h.tri = true →
    let v := s.core.x o.a + s.core.x o.b
    let u (k : Nat) : Word := vget s.core.front.upset k 0
    (∀ r, (v ^^^ u 0 = r ∧ v ^^^ u 1 = r) ∨ (v ^^^ u 0 = r ∧ v ^^^ u 2 = r) ∨ (v ^^^ u 1 = r ∧ v ^^^ u 2 = r) →
      ∃ t, exec (.add h o) s = .next t ∧ t.core.pipe.pwq = s.core.pipe.pwq ++ [⟨2, 0, .x o.d r⟩] ∧
        t.core.regs = s.core.regs ∧ t.core.front.upset = noUpset ∧ s.sameMemory t ∧
        (u 0 = u 1 ∧ u 0 = u 2 → t.board = s.board) ∧
        (¬(u 0 = u 1 ∧ u 0 = u 2) → 4 * s.core.stk + 1 < 65 → (t.bank (4 * s.core.stk + 1)).ece.getLsbD 63 = true)) ∧
    (u 0 ≠ u 1 → u 0 ≠ u 2 → u 1 ≠ u 2 →
      ∃ t, exec (.add h o) s = .next t ∧ t.core.pipe.pwq = s.core.pipe.pwq ++ [⟨3, 0, .vote3⟩] ∧
        t.core.regs = s.core.regs ∧ t.board = s.board ∧ t.memory = s.memory)

/-- R59, R166: every slot of the bundle executes on the state of its issue cycle, and the bundle commits as a whole (log 1). A replay of a
phase that has met its end or another command than its log's goes no further (R357). -/
def Obligations.StepRunsBundle : Prop :=
  ∀ (s t : State) (pc : BitVec 56) (b : Bundle), s.issues pc b → runsSlots (s.seenBy pc b) b.slots t →
    (∀ n, t.core.phase.replay = some n → n ≠ replayBroken ∧ t.core.front.bnd.any Bnd.endsPhase = false) →
    step s = .next (State.bellows [s.nextUp.core.cnum] (t.busCycle.atCore s.nextUp.core.cnum (fun v =>
      v.commit ⟨t, pc, [], none, sumN (b.slots.map slotWeight), false, false, b.slots.filter isBarrier⟩))).publish

/-- Events happen between bundles (03 R63); the agenda is the model's order of delivery (log 1). Without power nothing but POWER_UP acts (16
R360, 17 R365), and a FAILED module takes no write of BAR 0 (15 R309). -/
def Obligations.StepRunsEvent : Prop :=
  ∀ (s t : State) (i : Instr) (rest : List Instr), s.agenda = i :: rest →
    (s.board.power = true → i.enc = none → s.mstate ≠ 15 ∨ writesBar0 i = false → exec i { s with agenda := rest } = .next t →
      step s = .next t.publish) ∧
    (s.board.power = true → i.enc = none → s.mstate = 15 → writesBar0 i = true → step s = .next { s with agenda := rest }) ∧
    (s.board.power = false → i = .powerUp → step s = exec .powerUp { s with agenda := rest }) ∧
    (s.board.power = false → i ≠ .powerUp → step s = .fault .unpowered)

/-- R345: when a system fault is raised at a bundle, that bundle does not commit. R63 and R66: a hold comes before issue, so nothing of the
bundle happens, and the period counts in FRZCNT. The model's readings: the upsets of the faulting cycle are gone, its results have not landed,
and its period passes (log 17). -/
def Obligations.BundlesThatDoNotCommit : Prop :=
  ∀ (s t : State) (pc : BitVec 56) (b : Bundle) (i : Instr), s.issues pc b → b.slots = [i] → exec i (s.seenBy pc b) = .next t →
    (t.core.front.stat = .stopped →
      let k := t.core.fault
      let u := if k.corrected then s.nextUp.triLog (0, 0, 1) else s.nextUp
      let c := u.core.clearUpset
      step s = .next ((State.systemFaultAs { u with core := { c with front := { c.front with pc := pc, held := false, holds := [] } } }
        k.cls k.slot k.code k.tok k.info).atEach [u.core.cnum] (fun v => v.ungrant.tick 0)).publish) ∧
    (t.core.front.stat = .held → t.core.front.holds ≠ [] → t.core.front.holds.all Hold.isBarrier = false →
      let u := s.nextUp
      step s = .next (State.atEach { u with core := { u.core with
        front := { u.core.front with pc := pc, held := true, holds := t.core.front.holds } } } [u.core.cnum] (fun v => v.ungrant.frozen true)).publish)

/-- R58 and R61 in the order of the pending-write queue, which is the order of issue and of slots; R73 for x0 and f0. -/
def Obligations.LandingWrites : Prop :=
  ∀ c : Core, c.storageWf →
    (∀ (r : XReg) (v : Word) (pre post : List Pend) (e : Pend), r ≠ 0 → c.pipe.pwq = pre ++ e :: post → e.dist = 0 → e.val = .x r v →
      (∀ d ∈ post, d.dist = 0 → ∀ w, d.val ≠ .x r w) → c.land.x r = v) ∧
    (∀ r : XReg, (∀ d ∈ c.pipe.pwq, d.dist = 0 → ∀ w, d.val ≠ .x r w) → c.land.x r = c.x r) ∧
    (∀ (r : FReg) (m v : BitVec 16) (pre post : List Pend) (e : Pend), r ≠ 0 → c.pipe.pwq = pre ++ e :: post → e.dist = 0 →
      e.val = .f m v → m.getLsbD r.toNat = true →
      (∀ d ∈ post, d.dist = 0 → ∀ m' v', d.val = .f m' v' → m'.getLsbD r.toNat = false) → c.land.f r = v.getLsbD r.toNat) ∧
    (∀ r : FReg, (∀ d ∈ c.pipe.pwq, d.dist = 0 → ∀ m' v', d.val = .f m' v' → m'.getLsbD r.toNat = false) → c.land.f r = c.f r) ∧
    c.land.x 0 = 0 ∧ c.land.f 0 = true ∧
    (∀ k, (∀ d ∈ c.pipe.pwq, d.dist = 0 → ∀ a bs, d.val = .v a bs → ∀ e ∈ bs, e.1 / 256 * 0x80000 + a + e.1 % 256 ≠ k) →
      c.land.regs.rf.get k = c.regs.rf.get k) ∧
    (∀ k, (∀ d ∈ c.pipe.bwq, d.dist = 0 → ∀ e ∈ d.cells, e.1 ≠ k) → c.land.regs.bank.get k = c.regs.bank.get k) ∧
    c.land.pipe.pwq = c.pipe.pwq.filter (fun e => e.dist != 0 || e.isVote) ∧
    c.land.pipe.bwq = c.pipe.bwq.filter (fun e => e.dist != 0)

/-- R73, with its widths and numbers as the types of the registers. -/
def Obligations.HardWiredRegisters : Prop :=
  ∀ c : Core,
    c.x 0 = 0 ∧ c.f 0 = true ∧ (∀ g, c.pslice 0 g = BitVec.allOnes 256) ∧
    (∀ v, c.setX 0 v = c) ∧ (∀ v, c.setF 1 v = c) ∧ (∀ m v, c.setP 0 m v = c) ∧
    (∀ r : XReg, r ≠ 0 → ∀ v, (c.setX r v).x r = v ∧ (∀ q, q ≠ r → (c.setX r v).x q = c.x q)) ∧
    (∀ r : FReg, r ≠ 0 → ∀ b, (c.setF (fmask r) (fval r b)).f r = b ∧ (∀ q, q ≠ r → (c.setF (fmask r) (fval r b)).f q = c.f q)) ∧
    (∀ a bs, (c.setVec a bs).regs.x = c.regs.x ∧ (c.setVec a bs).regs.f = c.regs.f ∧ (c.setVec a bs).regs.p = c.regs.p) ∧
    (∀ r v, (c.setX r v).regs.rf = c.regs.rf) ∧ (∀ m v, (c.setF m v).regs.rf = c.regs.rf) ∧ (∀ r m v, (c.setP r m v).regs.rf = c.regs.rf)

/-- R185, R196, R205, R206, R121, R210 steps 3 to 5 and R211, R272 with R81, and R84. A claim or pop that is done moves TAIL or HEAD at once.
Failing LATCHes have one trap for each address (the model's choice, log 37). `flipDone` is the end of BFLIP's empty cycles; `storageWf` rules
out storage that no run reaches. -/
def Obligations.BoundaryChanges : Prop :=
  (∀ s : State,
    let t := s.flipDone
    let pairs := (s.spair s.core).extractLsb' 0 16
    (∀ g, g < 4 → vget t.core.phase.front g 0 = vget s.core.phase.front g 0 ^^^ (pairs &&& ~~~(vget s.core.phase.invalid g 0)) ∧
      vget t.core.phase.invalid g 0 = 0) ∧
    (∀ k, k < 8 → (vget t.core.units.tokens k Token.zero) = { vget s.core.units.tokens k Token.zero with spec := false }) ∧
    t.core.phase.specBanks = 0 ∧ t.core.phase.log = [] ∧ t.core.phase.logOvf = false ∧ t.core.phase.replay = none ∧
    t.core.phase.replays = 0 ∧ t.core.phase.irrevocable = false ∧ t.core.phase.flipPc = s.core.front.pc ∧ t.core.front.after = .issue ∧
    t.core.regs.x = s.core.regs.x ∧ t.core.regs.f = s.core.regs.f ∧ t.core.regs.p = s.core.regs.p ∧ t.core.regs.rf = s.core.regs.rf ∧
    t.core.ctl = s.core.ctl ∧ t.core.pipe = s.core.pipe ∧ t.memory = s.memory ∧
    (s.ckBanks = [] → t.core.regs = s.core.regs) ∧
    (∀ k b rest, s.core.task = some k → s.ckBanks = b :: rest → k.clen ≤ 112 → 1 ≤ s.core.g → s.core.storageWf →
      t.core.phase.ckv = true ∧
      (∀ r : XReg, r ≠ 0 → t.core.regs.bank.getN (b * 32768 + 8 * (r.toNat - 1)) 8 = leBytes 8 (s.core.x r).toNat) ∧
      t.core.regs.bank.getN (b * 32768 + 504) 8 = leBytes 8 s.core.fAll.toNat ∧
      (∀ g i, g < s.core.g → i < k.clen * 256 →
        t.core.regs.bank.get (g * 0x100000 + b * 32768 + 4096 + i) = s.core.regs.rf.get (g * 0x80000 + k.cbase * 256 + i)))) ∧
  ∀ (c : Core),
    (∀ m, (c.applyBnd (.lockm m)).lockm = m) ∧
    (∀ pc, (c.applyBnd (.jump pc)).front.nextPc = pc ∧ (c.applyBnd (.jump pc)).front.bubbles = 2) ∧
    (c.applyBnd .halt).front.ended = true ∧
    (∀ v, (c.applyBnd (.ctl 0x01A v)).ctl.iter = v) ∧
    (∀ v k, k < 64 → (c.applyBnd (.ctl 0x00C v)).ctl.sticky.getLsbD k =
      (if k < 2 then c.ctl.sticky.getLsbD k && !v.getLsbD k else if k = 8 ∨ k = 9 then v.getLsbD k else false)) ∧
    (∀ (n : HRing) (w : Word), let r := (c.applyBnd (.ring n w)).ring n
      r.tail = w.extractLsb' 52 12 ∧ r.head = w.extractLsb' 40 12 ∧ r.nslot = w.extractLsb' 32 8 ∧ r.ssz = w.extractLsb' 29 3 ∧
      r.base = w.extractLsb' 12 12 ∧ r.cons = r.head ∧ r.on = true) ∧
    (∀ (n : HRing) (k : RingClaim), (c.ring n).claims = [] →
      (k.done = false → (c.applyBnd (.claim n k)).ring n = { c.ring n with resv := (c.ring n).resv + BitVec.ofNat 12 k.n, claims := [k] }) ∧
      (k.done = true → (c.applyBnd (.claim n k)).ring n =
        { c.ring n with resv := (c.ring n).resv + BitVec.ofNat 12 k.n, tail := (c.ring n).tail + BitVec.ofNat 12 k.n })) ∧
    (∀ (n : HRing) (p : RingPop), (c.ring n).pops = [] → p.done = true → (c.applyBnd (.pop n p)).ring n =
      { c.ring n with cons := (c.ring n).cons + BitVec.ofNat 12 p.n, head := (c.ring n).head + BitVec.ofNat 12 p.n }) ∧
    (∀ a trap, (c.applyBnd (.busErr a trap)).ctl.sticky = c.ctl.sticky ||| 2 ∧
      (c.applyBnd (.busErr a trap)).front.busErr = (if trap then c.front.busErr ++ [a] else c.front.busErr)) ∧
    (∀ base len obj, (∀ b ∈ c.units.bindings, b ≠ ⟨base, len, obj⟩) →
      (c.applyBnd (.bind base len obj)).units.bindings = c.units.bindings ++ [⟨base, len, obj⟩]) ∧
    (∀ base len obj, (⟨base, len, obj⟩ : Binding) ∈ c.units.bindings → c.applyBnd (.bind base len obj) = c) ∧
    (∀ obj, (c.applyBnd (.unbind obj)).units.bindings = c.units.bindings.filter (fun b => b.obj != obj)) ∧
    (c.applyBnd .flip).front.bubbles = 24 ∧ (c.applyBnd .flip).front.after = .flip ∧ (c.applyBnd .drain).front.after = .drain

/-- R345 with Tables 16.1 to 16.5: record, event and state, for each class; CMPT and VOTE3 also fill the bank of their die (R360; which
bank, log 4). R356, R357: recovery replays the phase, dispatches the task again, or fails with UE, whose record keeps its class (log 42). -/
def Obligations.SystemFaultRecord : Prop :=
  (∀ (s : State) (cls slot code tok : Nat) (info : Word), s.memoryWf → 1 ≤ cls → cls ≤ 3 → slot < 16 → tok < 256 → 0 < code → code ≤ 12 →
    let t := s.systemFaultAs cls slot code tok info
    let bank := 4 * s.core.stk + (if slot = 1 ∨ slot = 2 then 0 else 1)
    let quiet : Prop := code < 11 ∨ (s.bank bank).eue.getLsbD 63 = true
    let room (n : Nat) : Prop := (s.regs.ev.evtail - s.regs.ev.evhead).toNat + n ≤ 2 ^ fld s.regs.ev.evctl 0 4
    fld t.core.drv.frec 60 4 = slot ∧ fld t.core.drv.frec 56 4 = cls ∧ fld t.core.drv.frec 48 8 = tok ∧ fld t.core.drv.frec 0 8 = code ∧
    t.core.drv.fpc = s.core.front.pc.zeroExtend 64 ∧ t.core.drv.finfo = info ∧
    (cls = 1 → t.core.cstate = 3) ∧ (cls = 3 → t.core.cstate = 7) ∧ (cls = 2 → t.core.cstate = s.core.cstate) ∧
    t.core.regs = s.core.regs ∧
    (cls ≠ 2 → t.core.ctl = s.core.ctl ∧ t.core.units = s.core.units ∧ t.core.pipe = s.core.pipe) ∧
    (cls = 2 → ∀ k, s.core.task = some k →
      t.core.task = some k ∧ t.core.front.departed = true ∧ t.core.front.ended = true ∧ t.core.lockm = 0 ∧ t.core.pipe.pwq = [] ∧
      t.core.units = s.core.units ∧
      (∀ l, s.launch k.serial = some l → ∃ l', t.launch k.serial = some l' ∧ l'.stopping = true ∧ (l.status = 0 → l'.status = 1))) ∧
    (quiet → room 1 → t.regs.ev.evtail = s.regs.ev.evtail + 1 ∧ t.memory.mem.get s.eventSlot = BitVec.ofNat 8 cls) ∧
    (quiet → s.sameMemory t) ∧
    (¬quiet → bank < 65 → (t.bank bank).eue.getLsbD 63 = true ∧ fld (t.bank bank).eue 0 8 = (if code = cVOTE3 then 7 else 8)) ∧
    (¬quiet → room 2 → t.regs.ev.evtail = s.regs.ev.evtail + 2)) ∧
  (∀ (s : State) (k : Task), s.core.task = some k → s.memoryWf → (∀ c ∈ s.others, c.cnum ≠ s.core.cnum) →
    let p := s.core.phase
    let t := s.recover
    let replays : Prop := s.phaseReplayable = true ∧ p.replays < 3
    (replays → t.core.front.pc = p.flipPc ∧ t.core.cstate = 1 ∧ t.core.phase.replays = p.replays + 1 ∧
      t.core.phase.replay = (if p.log = [] then none else some 0) ∧ t.core.phase.log = p.log ∧
      (∀ g, g < 4 → vget t.core.phase.invalid g 0 = (s.spair s.core).extractLsb' 0 16) ∧
      t.core.units.cmds = s.core.units.cmds.filter (fun c => decide (c.seq < p.flipSeq)) ∧ t.core.pipe.pwq = [] ∧
      (∀ n, n < 8 → (vget t.core.units.tokens n Token.zero).spec = false) ∧
      (∀ b rest, s.ckBanks = b :: rest → ∀ r : XReg, r ≠ 0 →
        t.core.x r = BitVec.ofNat 64 (leNat (s.core.regs.bank.getN (b * 32768 + 8 * (r.toNat - 1)) 8))) ∧
      t.core.regs.bank = s.core.regs.bank ∧ t.core.task = some k ∧ s.sameMemory t ∧
      t.regs.telem.replay = s.regs.telem.replay + 1) ∧
    (∀ l nd, s.launch k.serial = some l → l.nodes[k.node]? = some nd →
      (¬replays → k.redone = false → nd.dom = false → nd.redispatches < 2 → nd.noRedo = false →
        ∃ u : State, t = u.hearthRun ∧ u.core.front.departed = true ∧ u.core.task = some { k with redone := true, started := true } ∧
          u.regs.telem.redisp = s.regs.telem.redisp + 1 ∧
          ∃ l' nd', u.launch k.serial = some l' ∧ l'.nodes[k.node]? = some nd' ∧ nd'.redispatches = nd.redispatches + 1 ∧
            nd'.ready.isSome = true ∧ nd'.running = 0) ∧
      (¬replays → nd.dom = true ∨ 2 ≤ nd.redispatches ∨ nd.noRedo = true →
        fld t.core.drv.frec 0 8 = cUE ∧ t.core.front.departed = true ∧ t.core.cstate = 1 ∧
        (∃ l', t.launch k.serial = some l' ∧ l'.stopping = true ∧ (l.status = 0 → l'.status = 1)) ∧
        ((s.regs.ev.evtail - s.regs.ev.evhead).toNat < 2 ^ fld s.regs.ev.evctl 0 4 →
          t.regs.ev.evtail = s.regs.ev.evtail + 1 ∧ t.memory.mem.get s.eventSlot = 6) ∧ s.sameMemory t)))

/-- R85: the steps of program-trap entry, for each cause and code. R86 and R214: nothing set aside is lost, and registers and memory stand; a
vote of the handler that failed stands with the results set aside (the model's reading, log 19). -/
def Obligations.ProgramTraps : Prop :=
  (∀ (s : State) (cause code : Nat) (addr : Word), 1 ≤ cause → cause ≤ 4 → code < 2 ^ 23 →
    let t := s.trapEntry cause code addr
    (s.core.ctl.tvec ≠ 0 →
      t.core.ctl.epc = s.core.nextBundle.zeroExtend 64 ∧ t.core.inHandler = true ∧ fld t.core.ctl.tcause 0 8 = cause ∧
      fld t.core.ctl.tcause 24 23 = code ∧ t.core.ctl.taddr = addr ∧ t.core.pipe.pwq = [] ∧ t.core.pipe.aside = s.core.pipe.pwq ∧
      t.core.front.pc = s.core.ctl.tvec.extractLsb' 0 56 ∧ t.core.front.bubbles = 2 ∧ t.core.regs = s.core.regs ∧
      t.core.units = s.core.units ∧ t.memory = s.memory) ∧
    (s.core.ctl.tvec = 0 →
      fld t.core.drv.frec 0 8 = cILLOP ∧ t.core.front.departed = (s.core.task.isSome || s.core.front.departed))) ∧
  (∀ c : Core,
    let d := c.eretResume
    d.inHandler = false ∧ d.front.pc = c.ctl.epc.extractLsb' 0 56 ∧ d.front.bubbles = 2 ∧ d.front.after = .resume ∧
    d.regs = c.regs ∧ d.units = c.units ∧ d.pipe.aside = c.pipe.aside ∧ d.rejoin.pipe.pwq = c.pipe.aside ++ c.pipe.pwq.filter Pend.isVote ∧ d.rejoin.pipe.aside = [] ∧
    d.rejoin.regs = c.regs)

/-- R220 to R222: VADD, VSUB, VMUL, VMAD, VMIN, VMAX, VAND, VOR, VXOR, VSHL, VSHR and VSHRA, each with register and immediate operand b. -/
def Obligations.VectorElementwise : Prop :=
  ∀ (h : Head) (o : VR) (s : State) (da aa : Nat), s.core.enabledElems h (esize o.ty) ≠ [] →
    s.core.vaddr o.d = some da → s.core.vaddr o.a = some aa →
    let b := esize o.ty
    let w := 8 * b
    let es := s.core.enabledElems h b
    let rm := fmtRm s.core.ctl.fmt
    let x (e : Nat) : Nat := s.core.velem aa b e
    let put (lat : Nat) (val : Nat → Nat) : Host.Outcome State Fault Refusal :=
      .next (s.queued (vslot h) lat (.v da (elemBytes b (es.map (fun e => (e, val e))))))

    ∀ ba, (o.i = false → s.core.vaddr o.b = some ba) →
    let slow := slowLat (slowAt aa || (!o.i && slowAt ba))
    let slowD := slowLat (slowAt aa || (!o.i && slowAt ba) || slowAt da)
    let y (e : Nat) : VSrc := s.core.vsrc o ba b e
    let z (e : Nat) : Nat := s.core.velem da b e
    let raw (e : Nat) : Nat := (y e).raw o.ty
    ((o.i = true → isTap o.ty = false) → (o.md = true → isInt o.ty = true) →
      let lat := if isInt o.ty then 2 else 4
      exec (.vadd h o) s = put (lat + slow) (fun e => arith .add o.ty rm o.md (x e) (y e) (z e)) ∧
      exec (.vsub h o) s = put (lat + slow) (fun e => arith .sub o.ty rm o.md (x e) (y e) (z e)) ∧
      exec (.vmul h o) s = put ((if isInt o.ty then 3 else 4) + slow) (fun e => arith .mul o.ty rm o.md (x e) (y e) (z e))) ∧
    ((o.i = true → isTap o.ty = false) →
      exec (.vmad h o) s = put ((if isInt o.ty then 3 else 4) + slowD) (fun e => arith .mad o.ty rm o.md (x e) (y e) (z e)) ∧
      exec (.vmin h o) s = put (2 + slow) (fun e => minMax false o.ty rm (x e) (y e)) ∧
      exec (.vmax h o) s = put (2 + slow) (fun e => minMax true o.ty rm (x e) (y e))) ∧
    (isInt o.ty = true →
      let flip (n : Nat) : Nat := if o.md then 2 ^ w - 1 - n else n
      exec (.vand h o) s = put (2 + slow) (fun e => x e &&& flip (raw e)) ∧
      exec (.vor h o) s = put (2 + slow) (fun e => x e ||| flip (raw e)) ∧
      exec (.vxor h o) s = put (2 + slow) (fun e => x e ^^^ flip (raw e)) ∧
      exec (.vshl h o) s = put (2 + slow) (fun e => x e * 2 ^ (raw e % w) % 2 ^ w) ∧
      exec (.vshr h o) s = put (2 + slow) (fun e => x e / 2 ^ (raw e % w)) ∧
      exec (.vshra h o) s = put (2 + slow) (fun e => wrapInt w (toS w (x e) / 2 ^ (raw e % w))))

/-- R221, R222, R226, R233. The values of VRCP, VRSQ, VEXP2 and VLOG2 within the bound of R108 are the model's choice (log 10). -/
def Obligations.VectorUnary : Prop :=
  ∀ (h : Head) (o : VR) (s : State) (da aa : Nat), s.core.enabledElems h (esize o.ty) ≠ [] →
    s.core.vaddr o.d = some da → s.core.vaddr o.a = some aa →
    let b := esize o.ty
    let w := 8 * b
    let es := s.core.enabledElems h b
    let rm := fmtRm s.core.ctl.fmt
    let x (e : Nat) : Nat := s.core.velem aa b e
    let put (lat : Nat) (val : Nat → Nat) : Host.Outcome State Fault Refusal :=
      .next (s.queued (vslot h) lat (.v da (elemBytes b (es.map (fun e => (e, val e))))))

    let slow := slowLat (slowAt aa)
    ((o.md = true → isInt o.ty = true) →
      exec (.vabs h o) s = put (2 + slow) (fun e => elemAbs o.ty o.md (x e)) ∧
      exec (.vneg h o) s = put (2 + slow) (fun e => elemNeg o.ty o.md (x e))) ∧
    (isInt o.ty = true →
      exec (.vclz h o) s = put (2 + slow) (fun e => leadZeros w (x e)) ∧
      exec (.vpopc h o) s = put (2 + slow) (fun e => popCount w (x e))) ∧
    (isFlt o.ty = true →
      exec (.vrcp h o) s = put (6 + slow) (fun e => transElem .rcp o.ty (x e)) ∧
      exec (.vrsq h o) s = put (6 + slow) (fun e => transElem .rsq o.ty (x e)) ∧
      exec (.vexp2 h o) s = put (6 + slow) (fun e => transElem .exp2 o.ty (x e)) ∧
      exec (.vlog2 h o) s = put (6 + slow) (fun e => transElem .log2 o.ty (x e))) ∧
    exec (.vmov h o) s = put (2 + slow) x ∧
    (isTap o.ty = false → exec (.vmovi h o) s = put 2 (fun _ => (VSrc.imm o.b.toInt).store o.ty rm))

/-- R223 to R225: the half of the member that mod names, the part of VCVT, one rounding under the FMT captured at issue. -/
def Obligations.VectorConversions : Prop :=
  ∀ (h : Head) (o : VR) (s : State) (da aa : Nat), s.core.vaddr o.d = some da → s.core.vaddr o.a = some aa →
    let b := esize o.ty
    let put (n lat : Nat) (es : List Nat) (val : Nat → Nat) : Host.Outcome State Fault Refusal :=
      .next (s.queued (vslot h) lat (.v da (elemBytes n (es.map (fun e => (e, val e))))))
    (∀ ba wide, (o.i = false → s.core.vaddr o.b = some ba) → wideOf o.ty = some wide →
      let es := s.core.enabledElems h (2 * b)
      let src (e : Nat) : Nat := e / (128 / b) * (2 * (128 / b)) + (if o.md then 128 / b else 0) + e % (128 / b)
      let val (mad : Bool) (e : Nat) : Nat := widen mad o.ty wide (fmtRm s.core.ctl.fmt) (s.core.velem aa b (src e))
        (s.core.vsrc o ba b (src e)) (s.core.velem da (2 * b) e)
      es ≠ [] →
      exec (.vwadd h o) s = put (2 * b) ((if isInt o.ty then 2 else 4) + slowLat (slowAt aa || (!o.i && slowAt ba))) es (val false) ∧
      exec (.vwmad h o) s = put (2 * b) ((if isInt o.ty then 3 else 4) + slowLat (slowAt aa || (!o.i && slowAt ba) || slowAt da)) es (val true)) ∧
    (∀ ba half, (o.i = false → s.core.vaddr o.b = some ba) → halfOf o.ty = some half →
      let per := 256 / b
      let es := ((List.range (s.core.nElems b)).map (fun e => e / per * (2 * per) + (if o.md then per else 0) + e % per)).filter
        (fun e => s.core.enabledAt h (e * (b / 2)))
      es ≠ [] →
      exec (.vsat h o) s = put (b / 2) (2 + slowLat (slowAt aa || (!o.i && slowAt ba) || slowAt da)) es (fun e =>
        let j := e / (2 * per) * per + e % per
        intBits half (clampTo half (halfEven (intOf o.ty (s.core.velem aa b j)) ((s.core.vsrc o ba b j).raw o.ty % (8 * b)))))) ∧
    (let dst := fmtType (o.b.extractLsb' 0 4).toNat
     let part := (o.b.extractLsb' 7 3).toNat
     let n := esize dst
     let prs := (cvtPairs s.core.g b n part).filter (fun e => s.core.enabledAt h (e.1 * n))
     part < max (n / b) (b / n) → prs ≠ [] →
     exec (.vcvt h o) s = .next (s.queued (vslot h) (3 + slowLat (slowAt aa || slowAt da))
       (.v da (elemBytes n (prs.map (fun e => (e.1, convert s.core.ctl.fmt o.ty dst (s.core.velem aa b e.2))))))))

/-- R227 to R229: bits of suppressed elements stand, for only the mask of the enabled ones is written. -/
def Obligations.VectorPredicates : Prop :=
  ∀ (h : Head) (s : State),
    (∀ (o : VC) (aa ba : Nat), s.core.enabledElems h (esize o.ty) ≠ [] → s.core.vaddr o.a = some aa →
      (o.i = false → s.core.vaddr o.b = some ba) → (o.i = true → isTap o.ty = false) → (o.pt = o.pf → o.pt = 0) →
      let b := esize o.ty
      let es := s.core.enabledElems h b
      let truth (e : Nat) : Bool := elemCmp o.cc o.ty (s.core.velem aa b e) (if o.i then .imm o.b.toInt else .bits (s.core.velem ba b e))
      let lat := 1 + slowLat (slowAt aa || (!o.i && slowAt ba))
      ∃ vt vf, exec (.vcmp h o) s =
          .next ((s.queued (vslot h) lat (.p o.pt (elemMask b es) vt)).queued (vslot h) lat (.p o.pf (elemMask b es) vf)) ∧
        (∀ g : Nat, g < 4 → vget vt g 0 = vget (elemMask b (es.filter truth)) g 0 ∧
          vget vf g 0 = vget (elemMask b es) g 0 &&& ~~~(vget vt g 0))) ∧
    (∀ (o : VR), s.core.enabledElems h (esize o.ty) ≠ [] →
      let b := esize o.ty
      let es := s.core.enabledElems h b
      let count := (es.filter (fun e => s.core.pbit (o.a.extractLsb' 0 4) (e * b))).length
      let fd : FReg := o.d.extractLsb' 0 4
      (∀ aa, o.i = false → s.core.vaddr o.a = some aa →
        exec (.vpset h o) s = .next (s.queued (vslot h) (1 + slowLat (slowAt aa)) (.p (o.d.extractLsb' 0 4) (elemMask b es)
          (elemMask b (es.filter (fun e => (if o.ty = .t6 then s.core.velem aa b e % 64 else s.core.velem aa b e) != 0)))))) ∧
      (o.i = true → exec (.vpset h o) s = .next (s.queued (vslot h) 1 (.p (o.d.extractLsb' 0 4) (elemMask b es)
          (elemMask b (es.filter (fun _ => o.b != 0)))))) ∧
      exec (.vpcnt h o) s = .next (s.queued (vslot h) 2 (.x (o.d.extractLsb' 0 6) (BitVec.ofNat 64 count))) ∧
      exec (.vpany h o) s = .next (s.queued (vslot h) 1 (.f (fmask fd) (fval fd (count != 0)))))

/-- R230 to R234, with two more issue cycles for each doubling of the gang; the tree orders are those of R109 and R110. -/
def Obligations.VectorLanes : Prop :=
  ∀ (h : Head) (o : VR) (s : State) (da aa : Nat), s.core.vaddr o.d = some da → s.core.vaddr o.a = some aa →
    let c := s.core
    let b := esize o.ty
    let n := c.nElems b
    let es := c.enabledElems h b
    let rm := fmtRm c.ctl.fmt
    let slow := slowLat (slowAt aa)
    let put (lat : Nat) (val : Nat → Nat) : Host.Outcome State Fault Refusal :=
      .next (s.queued (vslot h) lat (.v da (elemBytes b (es.map (fun e => (e, val e))))))
    let total (op : RedOp) (_ : Nat) : Nat := (treeReduce op o.ty rm 16 (c.maybeElems aa b es)).getD (redIdentity op o.ty)
    let prefixOf (op : RedOp) (e : Nat) : Nat := (((scanGo op o.ty rm 16 1 (c.maybeElems aa b es))[e]?).join).getD (redIdentity op o.ty)
    let amount : Int := if o.i then o.b.toInt else (c.x (o.b.extractLsb' 0 6)).toInt
    (es ≠ [] → isTap o.ty = false →
      exec (.vrsum h o) s = put ((if isFlt o.ty then 8 else 6) + 2 * c.lg + slow) (total .sum) ∧
      exec (.vrmax h o) s = put (6 + 2 * c.lg + slow) (total .max) ∧
      exec (.vrmin h o) s = put (6 + 2 * c.lg + slow) (total .min) ∧
      (o.md = false → exec (.vscan h o) s = put ((if isFlt o.ty then 10 else 8) + 2 * c.lg + slow) (prefixOf .sum)) ∧
      (o.md = true → exec (.vscan h o) s = put (8 + 2 * c.lg + slow) (prefixOf .max))) ∧
    (es ≠ [] →
      (∀ ba, c.vaddr o.b = some ba → exec (.vperm h o) s = put (4 + 2 * c.lg + slowLat (slowAt aa || slowAt ba))
        (fun e => c.velem aa b (c.velem ba b e % n))) ∧
      (o.md = true → exec (.vbcast h o) s = put 2 (fun _ => (c.x (o.a.extractLsb' 0 6)).toNat)) ∧
      (o.md = false → o.i = false → exec (.vbcast h o) s = put (3 + 2 * c.lg + slow) (fun _ => c.velem aa b ((c.x (o.b.extractLsb' 0 6)).toNat % n))) ∧
      (o.md = false → o.i = true → o.b.toNat < n → exec (.vbcast h o) s = put (3 + 2 * c.lg + slow) (fun _ => c.velem aa b o.b.toNat)) ∧
      (o.md = false → exec (.vslide h o) s = put (3 + 2 * c.lg + slow)
        (fun e => if 0 ≤ (e : Int) + amount ∧ (e : Int) + amount < n then c.velem aa b ((e : Int) + amount).toNat else 0)) ∧
      (o.md = true → exec (.vslide h o) s = put (3 + 2 * c.lg + slow) (fun e => c.velem aa b (((e : Int) + amount) % (n : Int)).toNat)) ∧
      (isInt o.ty = true → o.md = false → exec (.viota h o) s = put 2
        (fun e => wrapInt (8 * b) ((if o.i then o.b.toInt else 0) + e))) ∧
      (isInt o.ty = true → o.md = true → exec (.viota h o) s = .next (s.queued (vslot h) (3 + 2 * c.lg) (.v da (elemBytes b
        (es.zipIdx.map (fun e => (e.1, wrapInt (8 * b) ((if o.i then o.b.toInt else 0) + e.2))))))))) ∧
    (∀ l, (o.i = true → l = o.b.toNat) → (o.i = false → l = (c.x (o.b.extractLsb' 0 6)).toNat % n) → l < n → c.enabledAt h (l * b) = true →
      (let v := c.velem aa b l
       exec (.vgetl h o) s = .next (s.queued (vslot h) (3 + 2 * c.lg + slow) (.x (o.d.extractLsb' 0 6)
         (if isSigned o.ty then BitVec.ofInt 64 (toS (8 * b) v) else BitVec.ofNat 64 v)))) ∧
      exec (.vputl h o) s = .next (s.queued (vslot h) (2 + slowLat (slowAt da)) (.v da (elemBytes b [(l, (c.x (o.a.extractLsb' 0 6)).toNat)]))))

/-- R235 to R237. Each enabled element e lies in member e / (256 / b); the stored cells are those of its address in that member, front bank of a pair. -/
def Obligations.VectorScratchpad : Prop :=
  ∀ (h : Head) (o : VM) (s : State) (va : Nat), s.core.enabledElems h (esize o.ty) ≠ [] → s.core.vaddr o.v = some va →
    let c := s.core
    let b := esize o.ty
    let es := c.enabledElems h b
    let good (addr : Nat → Nat) : Prop := ∀ e ∈ es, addr e % b = 0 ∧ s.okBank (addr e) = true
    let load (lat : Nat) (addr : Nat → Nat) : State := s.queued (vslot h) lat
      (.v va (es.flatMap (fun e => (s.bankRead (e / (256 / b)) (addr e) b).zipIdx.map (fun q => (e * b + q.2, q.1)))))
    let store (lat : Nat) (addr : Nat → Nat) : State := 
      { s with core := c.pushBank lat (es.flatMap (fun e => s.bankCells false (e / (256 / b)) (addr e) (leBytes b (c.velem va b e)))) }
    let flat (e : Nat) : Nat := (c.x o.base).toNat + e % (256 / b) * b
    let strided (e : Nat) : Nat := wrapInt 64 ((c.x o.base).toNat + (e % (256 / b) : Nat) * (c.x (o.idx.extractLsb' 0 6)).toInt * 2 ^ o.scale.toNat)
    let slow := slowLat (slowAt va)
    (good flat → exec (.vld h o) s = .next (load 8 flat) ∧ exec (.vst h o) s = .next (store (2 + slow) flat)) ∧
    (good strided → exec (.vlds h o) s = .next (load 10 strided) ∧ exec (.vsts h o) s = .next (store (4 + slow) strided)) ∧
    (∀ regs, idxRegs c o = some regs → good (idxAddr c o regs) →
      let f := s.conflict b es (idxAddr c o regs)
      exec (.vgather h o) s = .next ((load (16 + slowLat (regs.any slowAt)) (idxAddr c o regs)).freezeFor f) ∧
      exec (.vscatter h o) s = .next ((store (6 + slowLat (regs.any slowAt || slowAt va)) (idxAddr c o regs)).freezeFor f)) ∧
    (∀ (pre post : List Nat) (e : Nat), es = pre ++ e :: post → flat e % b ≠ 0 → (∀ d ∈ pre, flat d % b = 0) →
      exec (.vld h o) s = .next (s.faulted (vslot h) cALIGN (BitVec.ofNat 64 (flat e))) ∧
      exec (.vst h o) s = .next (s.faulted (vslot h) cALIGN (BitVec.ofNat 64 (flat e)))) ∧
    (∀ (pre post : List Nat) (e : Nat), es = pre ++ e :: post → (∀ d ∈ es, flat d % b = 0) → s.okBank (flat e) = false →
      (∀ d ∈ pre, s.okBank (flat d) = true) →
      exec (.vld h o) s = .next (s.faulted (vslot h) cXLATE (BitVec.ofNat 64 (flat e))) ∧
      exec (.vst h o) s = .next (s.faulted (vslot h) cXLATE (BitVec.ofNat 64 (flat e))))

/-- R220, R221 and R90, in arithmetic of numbers; the elements are bit patterns below 2^w. -/
def Obligations.VectorIntegerValues : Prop :=
  ∀ (t : ElemType) (rm : RM) (x y z : Nat), isInt t = true → x < 2 ^ (8 * esize t) → y < 2 ^ (8 * esize t) → z < 2 ^ (8 * esize t) →
    let w := 8 * esize t
    let X := if isSigned t then toS w x else (x : Int)
    let Y := if isSigned t then toS w y else (y : Int)
    let Z := if isSigned t then toS w z else (z : Int)
    let lo : Int := if isSigned t then -2 ^ (w - 1) else 0
    let hi : Int := if isSigned t then 2 ^ (w - 1) - 1 else 2 ^ w - 1
    let clamp (v : Int) : Int := if v < lo then lo else if hi < v then hi else v
    arith .add t rm false x (.bits y) z = (x + y) % 2 ^ w ∧
    arith .sub t rm false x (.bits y) z = (x + 2 ^ w - y) % 2 ^ w ∧
    arith .mul t rm false x (.bits y) z = x * y % 2 ^ w ∧
    arith .mad t rm false x (.bits y) z = (x * y + z) % 2 ^ w ∧
    (arith .mad t rm true x (.bits y) z : Int) = (Z - X * Y) % 2 ^ w ∧
    (arith .add t rm true x (.bits y) z : Int) = clamp (X + Y) % 2 ^ w ∧
    (arith .sub t rm true x (.bits y) z : Int) = clamp (X - Y) % 2 ^ w ∧
    (arith .mul t rm true x (.bits y) z : Int) = X * Y / 2 ^ w % 2 ^ w ∧
    elemNeg t false x = (2 ^ w - x) % 2 ^ w ∧
    (isSigned t = true → (elemAbs t false x : Int) = (if X < 0 then -X else X) % 2 ^ w ∧
      (elemAbs t true x : Int) = clamp (if X < 0 then -X else X) % 2 ^ w) ∧
    (elemNeg t true x : Int) = clamp (-X) % 2 ^ w ∧
    (isSigned t = false → elemNeg t true x = 0 ∧ ∀ sat, elemAbs t sat x = x)

/-- R217 and R239; R70: a register number at or beyond VCNT; R217 and the type columns of Table 9.1. -/
def Obligations.VectorChecks : Prop :=
  ∀ (h : Head) (o : VR) (s : State),
    let illop (i : Instr) : Prop := exec i s = .next (s.faulted (vslot h) cILLOP (slotWord i))
    exec (.vnop h) s = .next s ∧
    (s.core.enabledElems h (esize o.ty) ≠ [] →
      (∀ aa ba, s.core.vaddr o.a = some aa → s.core.vaddr o.b = some ba →
        let b := esize o.ty
        let ps := (s.core.enabledElems h b).flatMap (fun e => (List.range b).map (fun k => e * b + k))
        (slowAt aa || slowAt ba → illop (.vcmpt h o)) ∧
        (slowAt aa = false → slowAt ba = false →
          ((∀ p ∈ ps, s.core.vbyte aa p = s.core.vbyte ba p) → exec (.vcmpt h o) s = .next s) ∧
          (∀ (pre post : List Nat) (p : Nat), ps = pre ++ p :: post → (∀ q ∈ pre, s.core.vbyte aa q = s.core.vbyte ba q) →
            s.core.vbyte aa p ≠ s.core.vbyte ba p → exec (.vcmpt h o) s = .next (s.faulted (vslot h) cCMPT (BitVec.ofNat 64 p))))) ∧
      (s.core.vaddr o.d = none ∨ s.core.vaddr o.a = none → illop (.vadd h o) ∧ illop (.vmin h o) ∧ illop (.vmov h o) ∧ illop (.vperm h o)) ∧
      (o.i = false → s.core.vaddr o.b = none → illop (.vadd h o) ∧ illop (.vmin h o) ∧ illop (.vperm h o)) ∧
      (isInt o.ty = false → illop (.vand h o) ∧ illop (.vshl h o) ∧ illop (.vpopc h o) ∧ illop (.viota h o)) ∧
      (isInt o.ty = false → o.md = true → illop (.vadd h o) ∧ illop (.vsub h o) ∧ illop (.vmul h o)) ∧
      (isTap o.ty = true → illop (.vrsum h o) ∧ illop (.vrmax h o) ∧ illop (.vscan h o) ∧ illop (.vmovi h o)))

/-- R240, R242 to R244: issue of MLD, MST, MZERO, MMA, MMAS, MNORM, MOUT, MCVT, MTRN, MFAC, LRMUL, LRADD, MTEMPER, MDENSE and LRMMA. -/
def Obligations.MatrixQueues : Prop :=
  ∀ (h : Head) (s : State), s.core.enabled h = true →
    let joins (i : Instr) (p : Plan) : Prop := p.clear s → ∃ t, exec i s = .next t ∧ Queued s t i p
    (∀ o : MT,
      joins (.mld h o) (planMld o s) ∧
      joins (.mst h o) (planMst o s)) ∧
    (∀ o : ML,
      joins (.mzero h o) (planMzero o s) ∧
      joins (.mnorm h o) (planMnorm o s) ∧
      joins (.mout h o) (planMout o s) ∧
      joins (.mcvt h o) (planMcvt o s) ∧
      joins (.mtrn h o) (planMtrn o s) ∧
      joins (.mfac h o) (planMfac o s) ∧
      joins (.lrmul h o) (planLrmul o s) ∧
      joins (.lradd h o) (planLradd o s) ∧
      joins (.mtemper h o) (planMtemper o s) ∧
      joins (.mdense h o) (planMdense o s)) ∧
    (∀ o : MA,
      joins (.mma h o) (planMma o s) ∧
      joins (.mmas h o) (planMmas o s) ∧
      joins (.lrmma h o) (planLrmma o s))

/-- R63 and R79: what holds a matrix instruction; illegal operands come first (07 R175). -/
def Obligations.MatrixHolds : Prop :=
  ∀ (h : Head) (s : State), s.core.enabled h = true →
    let waits (i : Instr) (p : Plan) : Prop :=
      (p.illop = true ∨ p.badRing s.core = true → exec i s = .next (s.faulted 3 cILLOP (slotWord i))) ∧
      (p.illop = false → p.badRing s.core = false →
        (p.reads.any s.core.busy = true ∨ p.writes.any (fun r => s.core.busy r || s.core.readHeld r) = true ∨
          (∃ e ∈ p.rings, (s.core.ring e.1).filled < p.wait)) →
        ∃ hs, hs ≠ [] ∧ exec i s = .next (s.heldBy hs) ∧ ∀ hd ∈ hs, s.holdClear hd = false)
    (∀ o : MT,
      waits (.mld h o) (planMld o s) ∧
      waits (.mst h o) (planMst o s)) ∧
    (∀ o : ML,
      waits (.mzero h o) (planMzero o s) ∧
      waits (.mnorm h o) (planMnorm o s) ∧
      waits (.mout h o) (planMout o s) ∧
      waits (.mcvt h o) (planMcvt o s) ∧
      waits (.mtrn h o) (planMtrn o s) ∧
      waits (.mfac h o) (planMfac o s) ∧
      waits (.lrmul h o) (planLrmul o s) ∧
      waits (.lradd h o) (planLradd o s) ∧
      waits (.mtemper h o) (planMtemper o s) ∧
      waits (.mdense h o) (planMdense o s)) ∧
    (∀ o : MA,
      waits (.mma h o) (planMma o s) ∧
      waits (.mmas h o) (planMmas o s) ∧
      waits (.lrmma h o) (planLrmma o s))

/-- R242 with R260, R81, R84 and R261: the events MATRIX_READ_HOLD_CLEAR and MATRIX_COMPLETE for the core in focus. The latter writes every
result, tag and mask of the instruction at once (the model's choice, log 7). -/
def Obligations.MatrixEvents : Prop :=
  ∀ (h : Head) (s : State),
    (s.core.enabled h = true → exec (.mnop h) s = .next s) ∧
    (∀ o : ML, s.core.enabled h = true → tileBeyond s.core.ctl o.a.toNat = false → s.core.busy (.tile o.a.toNat) = false →
      exec (.mrank h o) s = .next (s.queued 3 2 (.x o.d
        (if (s.core.tile o.a.toNat).factored then BitVec.ofNat 64 (s.core.maxRank o.a.toNat) else 0xFF)))) ∧
    (∀ j, s.core.units.anvil.find? (MJob.readDue s.core.front.clock) = some j →
      ∃ t, exec (.matrixReadHoldClear s.core.cnum) s = .next t ∧
        t.core.units.anvil = s.core.units.anvil.map (fun k => if k.num = j.num then { k with read := true } else k) ∧
        t.core.regs = s.core.regs ∧ t.memory = s.memory ∧ t.core.pipe = s.core.pipe) ∧
    (∀ j, s.core.units.anvil.find? (MJob.doneDue s.core.front.clock) = some j →
      ∃ t, exec (.matrixComplete s.core.cnum) s = .next t ∧
        t.core.units.anvil = s.core.units.anvil.filter (fun k => k.num != j.num) ∧
        t.core.regs.rf = s.core.regs.rf.setCells j.out.rf ∧ t.core.regs.bank = s.core.regs.bank.setCells j.out.bank ∧
        t.core.regs.x = s.core.regs.x ∧ t.core.regs.f = s.core.regs.f ∧ t.core.regs.p = s.core.regs.p ∧
        (j.out.saturated = [] → t.core.ctl = s.core.ctl) ∧ (j.out.saturated ≠ [] → t.core.ctl.sticky = s.core.ctl.sticky ||| 1) ∧
        (∀ n, (∀ e ∈ j.out.tags, e.1 ≠ n) → t.core.tile n = s.core.tile n) ∧
        (∀ n tile pre post, n < 64 → j.out.tags = pre ++ (n, tile) :: post → (∀ e ∈ post, e.1 ≠ n) → t.core.tile n = tile) ∧
        (∀ n, n < 64 → t.core.front.povt.getLsbD n = (s.core.front.povt.getLsbD n || j.out.overflow.contains n)) ∧
        (∀ n, n < 16 → t.core.front.povq.getLsbD n = (s.core.front.povq.getLsbD n || j.out.saturated.contains n)) ∧
        (t.core.front.accReq = true ↔ s.core.front.accReq = true ∨ (j.out.saturated ≠ [] ∧ s.core.ctl.sticky.getLsbD 8 = true)) ∧
        (∀ n : HRing, j.pops.contains n.toNat = false → t.core.ring n = s.core.ring n) ∧
        (∀ (n : HRing) (p : RingPop) (rest : List RingPop), j.pops.contains n.toNat = true → (s.core.ring n).pops = p :: rest → p.num = j.num →
          (∀ q ∈ rest, q.num ≠ j.num ∧ q.done = false) →
          t.core.ring n = { s.core.ring n with head := (s.core.ring n).head + BitVec.ofNat 12 p.n, pops := rest }) ∧
        (∀ (n : HRing) (p : RingPop) (rest : List RingPop), j.pops.contains n.toNat = true → (s.core.ring n).pops = p :: rest → p.num ≠ j.num →
          p.done = false → (t.core.ring n).head = (s.core.ring n).head) ∧
        t.memory = s.memory ∧ t.core.pipe = s.core.pipe)

/-- R263, R266 to R278, R283 and R82: issue of the token instructions. `memoryWf` rules out storage that no run reaches. -/
def Obligations.CopySlotIssues : Prop :=
  ∀ (h : Head) (s : State), h.spec = false → s.memoryWf →
    let c := s.core
    let room (k : KTok) : Prop := (c.token k).cnt ≠ 15
    let issues (i : Instr) (tok : KTok) (ops : List Word) (addr : Nat) : Prop := ∃ t, exec i s = .next t ∧ Issued s t i tok ops addr
    (c.enabled h = true →
      (∀ o : CB, room o.token →
        (badShape (c.x o.shape) = false → (o.flags.getLsbD 1 = true → o.ssp ≠ 0) →
          issues (.cpy h o) o.token [c.x o.dst, c.x o.src, c.x o.shape, c.x (o.shape + 1)] 0) ∧
        (o.scope ≠ .sy → o.order = 0 ∨ o.order = 2 → s.chTableFree = true →
          (∃ e, s.sendEntry o.shape = some e ∧ s.pathPaused e = false) →
          issues (.lsend h o) o.token [c.x o.src] (c.x o.src).toNat)) ∧
      (∀ o : CA, room o.token →
        let a := (c.x o.addr).toNat
        (o.so = .rlx ∨ o.so = .acq ∨ o.so = .sc → issues (.ldg h o) o.token [c.x o.addr] a) ∧
        (o.so = .rlx ∨ o.so = .rel ∨ o.so = .sc → issues (.stg h o) o.token [c.x o.addr, c.x o.val] a) ∧
        issues (.amo h o) o.token [c.x o.addr, c.x o.val] a ∧
        ((o.so = .sc → o.fo = true) → issues (.cas h o) o.token [c.x o.addr, c.x o.val, c.x o.x] a) ∧
        (o.so ≠ .rlx → issues (.fence h o) o.token [] a) ∧
        (o.so = .rlx ∨ o.so = .acq → issues (.waitaddr h o) o.token [c.x o.addr, c.x o.val, c.x o.x] a))) ∧
    (∀ (o : CV) (va : Nat), room o.token → c.enabledElems h (esize o.ty) ≠ [] → c.vaddr o.v = some va →
      (o.order = .rlx ∨ o.order = .acq → issues (.vldg h o) o.token [c.x o.addr, BitVec.ofNat 64 va] (c.x o.addr).toNat) ∧
      (o.order = .rlx ∨ o.order = .rel → issues (.vstg h o) o.token [c.x o.addr, BitVec.ofNat 64 va] (c.x o.addr).toNat))

/-- R285 to R287 and R156: issue of the Crucible instructions, which complete later on their token. The slot of a KLD into a ring follows what
earlier slots of its bundle reserve (log 39). -/
def Obligations.CrucibleIssues : Prop :=
  ∀ (h : Head) (o : CK) (s : State), h.spec = false → s.memoryWf → s.core.enabled h = true → (s.core.token o.token).cnt ≠ 15 →
    let ops := [s.core.x o.dst, s.core.x o.hnd, s.core.x o.arg]
    let issues (i : Instr) : Prop := ∃ t, exec i s = .next t ∧ Issued s t i o.token ops 0
    issues (.khash h o) ∧ issues (.klook h o) ∧ issues (.kopen h o) ∧ issues (.kwr h o) ∧ issues (.kseal h o) ∧ issues (.klease h o) ∧
    issues (.kref h o) ∧ issues (.kunref h o) ∧ issues (.krepl h o) ∧ issues (.kstat h o) ∧ issues (.kdrop h o) ∧
    (o.ringed = false → issues (.kld h o)) ∧
    (o.ringed = true →
      let r := s.core.ring o.ring
      let m := s.core.claimed o.ring
      r.on = true → s.okRing r.word = true →
      (r.full (1 + m) = true → exec (.kld h o) s = .next (s.heldBy [.ringFull o.ring 1])) ∧
      (r.full (1 + m) = false →
        ∃ t, exec (.kld h o) s = .next t ∧ Issued s t (.kld h o) o.token ops (r.slotAddr (r.resv + BitVec.ofNat 12 m).toNat) ∧
          t.core.ring o.ring = r ∧ t.core.front.bnd = s.core.front.bnd ++ [.claim o.ring ⟨s.core.units.nextSeq, 1, false⟩]))

/-- R271, R272, R59 and R81: the moves reach the ring at the boundary (BoundaryChanges). What earlier slots of the bundle reserve counts (log 39). -/
def Obligations.RingProducers : Prop :=
  ∀ (h : Head) (o : CB) (s : State), h.spec = false → s.memoryWf → s.core.enabled h = true →
    let c := s.core
    let r := c.ring o.ring
    let ops := [c.x o.dst, c.x o.src, c.x o.shape, c.x (o.shape + 1)]
    let n := fld (c.x o.src) 0 12
    let m := c.claimed o.ring
    (badShape (c.x o.shape) = false → (o.flags.getLsbD 1 = true → o.ssp ≠ 0) → r.on = true → s.okRing r.word = true →
      outsideSlot (slotBytes r.ssz.toNat) ops = false →
      (r.full (1 + m) = true → exec (.cpyr h o) s = .next (s.heldBy [.ringFull o.ring 1])) ∧
      (r.full (1 + m) = false → (c.token o.token).cnt ≠ 15 →
        ∃ t, exec (.cpyr h o) s = .next t ∧ Issued s t (.cpyr h o) o.token ops (r.slotAddr (r.resv + BitVec.ofNat 12 m).toNat) ∧
          t.core.ring o.ring = r ∧ t.core.front.bnd = c.front.bnd ++ [.claim o.ring ⟨c.units.nextSeq, 1, false⟩])) ∧
    (r.on = true → n ≤ r.nslot.toNat + 1 →
      let same (t : State) : Prop := t.core.units = c.units ∧ t.core.regs = c.regs ∧ t.core.pipe = c.pipe ∧ t.core.ctl = c.ctl ∧ s.sameMemory t
      (n = 0 → ∃ t, exec (.radv h o) s = .next t ∧ t.core.front.bnd = c.front.bnd ∧ same t) ∧
      (n ≠ 0 → o.flags.getLsbD 0 = true →
        (r.filled < n + c.taken o.ring → exec (.radv h o) s = .next (s.heldBy [.ringFill o.ring n])) ∧
        (n + c.taken o.ring ≤ r.filled → ∃ t, exec (.radv h o) s = .next t ∧
          t.core.front.bnd = c.front.bnd ++ [.pop o.ring ⟨c.units.nextNum, n, true⟩] ∧ same t)) ∧
      (n ≠ 0 → o.flags.getLsbD 0 = false →
        (r.full (n + m) = true → exec (.radv h o) s = .next (s.heldBy [.ringFull o.ring n])) ∧
        (r.full (n + m) = false → ∃ t, exec (.radv h o) s = .next t ∧
          t.core.front.bnd = c.front.bnd ++ [.claim o.ring ⟨c.units.nextSeq, n, true⟩] ∧ same t)))

/-- R279, R281, R284 and R263. -/
def Obligations.BindAndBus : Prop :=
  ∀ (h : Head) (s : State), h.spec = false → s.memoryWf → s.core.enabled h = true →
    let c := s.core
    let still (t : State) : Prop := t.core.regs = c.regs ∧ t.core.ctl = c.ctl ∧ t.core.units.cmds = c.units.cmds ∧ s.sameMemory t
    exec (.cnop h) s = .next s ∧
    (∀ o : CA,
      (badBind s.bindingsNext (c.x o.val) (c.x o.x) (c.x o.addr) = false →
        ∃ t, exec (.bind h o) s = .next t ∧ t.core.front.bnd = c.front.bnd ++ [.bind (c.x o.val) (c.x o.x) (c.x o.addr)] ∧ still t) ∧
      (∃ t, exec (.unbind h o) s = .next t ∧ t.core.front.bnd = c.front.bnd ++ [.unbind (c.x o.addr)] ∧ still t)) ∧
    (∀ o : CB,
      (c.lockm ≠ 0 → (c.x o.src).toNat % 256 = 0 → s.okBanks (c.x o.src).toNat 512 = true →
        ∃ t, exec (.bcast h o) s = .next t ∧ t.bus = { s.bus with segs := s.bus.segs ++ [s.bankRead 0 (c.x o.src).toNat 512] } ∧
          t.core.pipe = c.pipe ∧ still t) ∧
      (c.lockm ≠ 0 → (c.x o.dst).toNat % 256 = 0 → s.okBanks (c.x o.dst).toNat 512 = true →
        ∃ t, exec (.latch h o) s = .next t ∧ t.bus = { s.bus with latches := s.bus.latches ++ [(c.cnum, (c.x o.dst).toNat)] } ∧
          t.core.pipe = c.pipe ∧ still t) ∧
      (∀ e bs rest, o.scope ≠ .sy → o.order = 0 ∨ o.order = 1 → s.chTableFree = true → s.recvEntry o.shape = some e →
        (s.channel e.idx).queue = .msg bs :: rest → (s.channel e.idx).paused = false → (c.x o.dst).toNat % 256 = 0 →
        s.okBanks (c.x o.dst).toNat 256 = true →
        ∃ t, exec (.lrecv h o) s = .next t ∧ (t.channel e.idx).queue = rest ∧
          t.core.pipe.bwq = c.pipe.bwq ++ [⟨4, s.bankCellsAll true (c.x o.dst).toNat bs⟩] ∧ t.core.pipe.pwq = c.pipe.pwq ∧ still t))

/-- R280, R45, R46 and Table 2.4. -/
def Obligations.BarrierIssues : Prop :=
  ∀ (h : Head) (o : CB) (s : State), h.spec = false → s.memoryWf → s.core.enabled h = true → o.scope ≠ .sy →
    s.core.front.arrv.contains (arrvKey h (scopeLevel o.scope)) = false →
    let lvl := scopeLevel o.scope
    let still (t : State) : Prop := t.core.regs = s.core.regs ∧ t.core.units = s.core.units ∧ t.core.pipe = s.core.pipe ∧
      t.core.front.stat = s.core.front.stat ∧ s.sameMemory t
    (s.groupOf lvl = none →
      (∃ t, exec (.barw h o) s = .next t ∧ t.core.ctl = s.core.ctl ∧ still t) ∧
      (∀ i, i = .bar h o ∨ i = .bara h o ∨ (i = .sstep h o ∧ s.scopeBusy lvl = false ∧
          (lvl < 2 ∨ (s.coveredLines s.core.cid s.core.cnum (fun _ => true) = [] ∧ s.coveredFans s.core.cnum (fun _ => true) = []))) →
        ∃ t, exec i s = .next t ∧ still t ∧
          (lvl = 0 → t.core.ctl = s.core.ctl) ∧
          (lvl ≠ 0 → fld t.core.ctl.bstat (8 + 8 * lvl) 8 = (fld s.core.ctl.bstat (8 + 8 * lvl) 8 + 1) % 256))) ∧
    (s.scopeBusy lvl = true → exec (.sstep h o) s = .next (((s.logged (.sstep h o) h []).irrevocable).heldBy [.scopeDone lvl])) ∧
    (s.scopeBusy lvl = false → 2 ≤ lvl → s.coveredLines s.core.cid s.core.cnum (fun _ => true) = [] →
      s.coveredFans s.core.cnum (fun _ => true) ≠ [] →
      exec (.sstep h o) s = .next (((s.logged (.sstep h o) h []).irrevocable).heldBy [.scopeDone lvl])) ∧
    (∀ b, s.groupOf lvl = some b → s.lastArrival lvl = b.gen → (∃ m ∈ b.arrived, m.1 ≠ s.coreId s.core ∧ m.2 ≤ b.gen ∧ ∀ d ∈ b.departed, d.1 ≠ m.1) →
      ∀ i, i = .bar h o ∨ (i = .sstep h o ∧ s.scopeBusy lvl = false ∧
          (lvl < 2 ∨ (s.coveredLines s.core.cid s.core.cnum (fun _ => true) = [] ∧ s.coveredFans s.core.cnum (fun _ => true) = []))) →
        ∃ t, exec i s = .next t ∧ t.core.front.stat = .held ∧
          t.core.front.holds = s.core.front.holds ++ [.barGen lvl (s.lastArrival lvl + 1)] ∧
          t.core.regs = s.core.regs ∧ t.core.units = s.core.units ∧ t.core.pipe = s.core.pipe ∧ s.sameMemory t ∧
          (∃ b' ∈ t.groups, b'.lvl = lvl ∧ b'.key = b.key ∧ b'.gen = b.gen ∧
            b'.arrived = b.arrived.map (fun m => if m.1 = s.coreId s.core then (m.1, m.2 + 1) else m))) ∧
    (∀ b, s.groupOf lvl = some b → s.lastArrival lvl ≤ b.gen →
      (∃ t, exec (.barw h o) s = .next t ∧ t.core.ctl = s.core.ctl ∧ still t) ∧
      ∃ t, exec (.bara h o) s = .next t ∧ still t ∧
        (∃ b' ∈ t.groups, b'.lvl = lvl ∧ b'.key = b.key ∧
          b'.arrived = b.arrived.map (fun m => if m.1 = s.coreId s.core then (m.1, m.2 + 1) else m))) ∧
    (∀ b, s.groupOf lvl = some b → b.gen < s.lastArrival lvl →
      ∃ t, exec (.barw h o) s = .next t ∧ t.core.front.stat = .held ∧ t.core.front.holds = s.core.front.holds ++ [.barGen lvl (s.lastArrival lvl)])

/-- R265, R266, R273, R276 to R278, R281, R283, R284, R304: the faults and holds of the copy slots. -/
def Obligations.CopySlotRefusals : Prop :=
  ∀ (h : Head) (s : State), s.core.enabled h = true →
    let c := s.core
    let illop (i : Instr) : Prop := exec i s = .next (s.faulted (cslot h) cILLOP (slotWord i))
    (h.spec = true →
      (∀ o : CB, illop (.cpyr h o) ∧ illop (.radv h o) ∧ illop (.bar h o) ∧ illop (.bara h o) ∧ illop (.barw h o) ∧ illop (.sstep h o) ∧
        illop (.bcast h o) ∧ illop (.latch h o) ∧ illop (.lsend h o) ∧ illop (.lrecv h o) ∧
        (o.dsp ≠ 0 ∨ (∃ e ∈ copyDests (copyOps c o), s.inPairs e.1 e.2 = false) → illop (.cpy h o))) ∧
      (∀ o : CV, c.enabledElems h (esize o.ty) ≠ [] → illop (.vldg h o) ∧ illop (.vstg h o)) ∧
      (∀ o : CA, illop (.ldg h o) ∧ illop (.stg h o) ∧ illop (.amo h o) ∧ illop (.cas h o) ∧ illop (.fence h o) ∧ illop (.waitaddr h o) ∧
        illop (.bind h o) ∧ illop (.unbind h o)) ∧
      (∀ o : CK, illop (.kopen h o) ∧ illop (.kwr h o) ∧ illop (.kseal h o) ∧ illop (.klease h o) ∧ illop (.kref h o) ∧
        illop (.kunref h o) ∧ illop (.krepl h o) ∧ illop (.kdrop h o) ∧ (o.ringed = true → illop (.kld h o)) ∧
        (o.flags.getLsbD 1 = true ∨ s.inPairs (c.x o.dst).toNat 16 = false → illop (.klook h o)) ∧
        (s.inPairs (c.x o.dst).toNat 32 = false → illop (.kstat h o)))) ∧
    (h.spec = false →
      (∀ o : CA,
        (o.so = .rel ∨ o.so = .ar → illop (.ldg h o)) ∧ (o.so = .acq ∨ o.so = .ar → illop (.stg h o)) ∧
        (o.so = .sc → o.fo = false → illop (.cas h o)) ∧ (o.so = .rlx → illop (.fence h o)) ∧
        (o.so ≠ .rlx → o.so ≠ .acq → illop (.waitaddr h o)) ∧
        (badBind s.bindingsNext (c.x o.val) (c.x o.x) (c.x o.addr) = true → illop (.bind h o)) ∧
        ((c.token o.token).cnt = 15 →
          let full (i : Instr) : Prop := exec i s = .next (s.heldBy [.tokenFull o.token])
          full (.amo h o) ∧ (o.so = .rlx ∨ o.so = .acq ∨ o.so = .sc → full (.ldg h o)) ∧ (o.so = .rlx ∨ o.so = .rel ∨ o.so = .sc → full (.stg h o)) ∧
          ((o.so = .sc → o.fo = true) → full (.cas h o)) ∧ (o.so ≠ .rlx → full (.fence h o)) ∧
          (o.so = .rlx ∨ o.so = .acq → full (.waitaddr h o)))) ∧
      (∀ (o : CV) (va : Nat), c.enabledElems h (esize o.ty) ≠ [] → c.vaddr o.v = some va →
        (o.order ≠ .rlx → o.order ≠ .acq → illop (.vldg h o)) ∧ (o.order ≠ .rlx → o.order ≠ .rel → illop (.vstg h o)) ∧
        ((c.token o.token).cnt = 15 →
          (o.order = .rlx ∨ o.order = .acq → exec (.vldg h o) s = .next (s.heldBy [.tokenFull o.token])) ∧
          (o.order = .rlx ∨ o.order = .rel → exec (.vstg h o) s = .next (s.heldBy [.tokenFull o.token])))) ∧
      (∀ o : CV, c.enabledElems h (esize o.ty) ≠ [] → c.vaddr o.v = none → illop (.vldg h o) ∧ illop (.vstg h o)) ∧
      (∀ o : CK,
        ((c.token o.token).cnt = 15 →
          let full (i : Instr) : Prop := exec i s = .next (s.heldBy [.tokenFull o.token])
          full (.khash h o) ∧ full (.klook h o) ∧ full (.kopen h o) ∧ full (.kwr h o) ∧ full (.kseal h o) ∧ full (.klease h o) ∧
          full (.kref h o) ∧ full (.kunref h o) ∧ full (.krepl h o) ∧ full (.kstat h o) ∧ full (.kdrop h o) ∧
          (o.ringed = false ∨ ((c.ring o.ring).on = true ∧ s.okRing (c.ring o.ring).word = true ∧
            (c.ring o.ring).full (1 + c.claimed o.ring) = false) → full (.kld h o))) ∧
        (o.ringed = true → (c.ring o.ring).on = false ∨ s.okRing (c.ring o.ring).word = false → illop (.kld h o))) ∧
      (∀ o : CB,
        (badShape (c.x o.shape) = true → illop (.cpy h o) ∧ illop (.cpyr h o)) ∧
        (o.flags.getLsbD 1 = true → o.ssp = 0 → illop (.cpy h o) ∧ illop (.cpyr h o)) ∧
        ((c.ring o.ring).on = false → illop (.cpyr h o) ∧ illop (.radv h o)) ∧
        (s.okRing (c.ring o.ring).word = false ∨ outsideSlot (slotBytes (c.ring o.ring).ssz.toNat) (copyOps c o) = true → illop (.cpyr h o)) ∧
        ((c.ring o.ring).on = true → (c.ring o.ring).nslot.toNat + 1 < fld (c.x o.src) 0 12 → illop (.radv h o)) ∧
        ((c.token o.token).cnt = 15 → badShape (c.x o.shape) = false → (o.flags.getLsbD 1 = true → o.ssp ≠ 0) →
          exec (.cpy h o) s = .next (s.heldBy [.tokenFull o.token]) ∧
          ((c.ring o.ring).on = true → s.okRing (c.ring o.ring).word = true →
            outsideSlot (slotBytes (c.ring o.ring).ssz.toNat) (copyOps c o) = false → (c.ring o.ring).full (1 + c.claimed o.ring) = false →
            exec (.cpyr h o) s = .next (s.heldBy [.tokenFull o.token]))) ∧
        (c.lockm = 0 → illop (.bcast h o) ∧ illop (.latch h o)) ∧
        (c.lockm ≠ 0 → (c.x o.dst).toNat % 256 ≠ 0 → exec (.latch h o) s = .next (s.faulted (cslot h) cALIGN (c.x o.dst))) ∧
        (c.lockm ≠ 0 → (c.x o.dst).toNat % 256 = 0 → s.okBanks (c.x o.dst).toNat 512 = false →
          exec (.latch h o) s = .next (s.faulted (cslot h) cXLATE (c.x o.dst))) ∧
        (c.lockm ≠ 0 → (c.x o.src).toNat % 256 ≠ 0 → exec (.bcast h o) s = .next (s.faulted (cslot h) cALIGN (c.x o.src))) ∧
        (c.lockm ≠ 0 → (c.x o.src).toNat % 256 = 0 → s.okBanks (c.x o.src).toNat 512 = false →
          exec (.bcast h o) s = .next (s.faulted (cslot h) cXLATE (c.x o.src))) ∧
        (o.scope = .sy → illop (.lsend h o) ∧ illop (.lrecv h o) ∧ illop (.bar h o) ∧ illop (.bara h o) ∧ illop (.barw h o) ∧ illop (.sstep h o)) ∧
        (o.order = 1 ∨ o.order = 3 → illop (.lsend h o)) ∧ (o.order = 2 ∨ o.order = 3 → illop (.lrecv h o)) ∧
        (s.chTableFree = true →
          (s.sendEntry o.shape = none → illop (.lsend h o)) ∧ (s.recvEntry o.shape = none → illop (.lrecv h o)) ∧
          (∀ e, o.scope ≠ .sy → o.order = 0 ∨ o.order = 2 → s.sendEntry o.shape = some e →
            (s.pathPaused e = true → exec (.lsend h o) s = .next (s.heldBy [.path o.shape])) ∧
            (s.pathPaused e = false → (c.token o.token).cnt = 15 → exec (.lsend h o) s = .next (s.heldBy [.tokenFull o.token]))) ∧
          (∀ e, o.scope ≠ .sy → o.order = 0 ∨ o.order = 1 → s.recvEntry o.shape = some e →
            let fault (code : Nat) (info : Word) : Prop := exec (.lrecv h o) s = .next (s.faulted (cslot h) code info)
            ((c.x o.dst).toNat % 256 ≠ 0 → fault cALIGN (c.x o.dst)) ∧
            ((c.x o.dst).toNat % 256 = 0 → s.okBanks (c.x o.dst).toNat 256 = false → fault cXLATE (c.x o.dst)) ∧
            ((c.x o.dst).toNat % 256 = 0 → s.okBanks (c.x o.dst).toNat 256 = true →
              ((s.channel e.idx).queue = [] →
                ((s.channel e.idx).down = false → exec (.lrecv h o) s = .next (s.heldBy [.empty o.shape])) ∧
                ((s.channel e.idx).down = true → fault cLINKDOWN (c.x o.dst))) ∧
              (∀ code rest, (s.channel e.idx).queue = .failed code :: rest →
                fault code.toNat (BitVec.ofNat 64 (2 ^ 63 + o.shape.toNat))))))))

/-- R58, R63 to R65, R84 to R86, R186 and R294: the events between bundles. -/
def Obligations.PaceEvents : Prop :=
  ∀ s : State,
    let n := s.core.cnum
    (s.core.voteDue = true → exec (.resultLanding n) s = .next s.raiseVote) ∧
    (s.core.voteDue = false → s.core.landDue = true → exec (.resultLanding n) s = .next { s with core := s.core.land }) ∧
    (s.mayIssue = true → ∃ t, exec (.heldBundleIssue n) s = .next t ∧ t.core.front.held = false ∧ t.core.front.holds = [] ∧
      t.core.regs = s.core.regs ∧ t.core.units = s.core.units ∧ t.memory = s.memory ∧
      ((∃ m, Hold.lock m ∈ s.core.front.holds) ∨ Hold.unlock ∈ s.core.front.holds → t.core.front.granted = true)) ∧
    (s.core.front.gatherFrz = some 0 → ∃ t, exec (.gatherFreezeEnd n) s = .next t ∧ t.core.front.gatherFrz = none ∧
      t.core.regs = s.core.regs ∧ t.core.units = s.core.units ∧ t.core.pipe = s.core.pipe ∧ t.memory = s.memory ∧ t.others = s.others) ∧
    (s.bellowsOver = true → ∃ t, exec (.bellowsFreezeEnd n) s = .next t ∧ t.core.front.bellowsFrz = none ∧
      (∀ k ∈ s.mates, ∀ d ∈ t.others, d.cnum = k.cnum → d.front.bellowsFrz = none) ∧
      t.core.regs = s.core.regs ∧ t.core.units = s.core.units ∧ t.core.pipe = s.core.pipe ∧ t.memory = s.memory) ∧
    (∀ cause code addr, s.trapDue = true → s.core.front.after ≠ .resume → s.core.trapCause = some (cause, code, addr) →
      exec (.programTrapEntry n) s = .next (s.trapEntry cause code addr)) ∧
    (∀ cause code addr, s.trapDue = true → s.core.front.after = .resume → s.core.trapCause = some (cause, code, addr) →
      exec (.programTrapEntry n) s = .next (State.trapEntry { s with core := s.core.rejoin } cause code addr)) ∧
    (s.core.drained = true → exec (.eretResume n) s = .next { s with core := s.core.eretResume })

/-- R114, R122, R130, R268 to R270, R273 to R277 and R344: outstanding memory accesses and copies of the core in focus, on their own effect.
Two choices of the model (log 11): rows move one after the other, which decides overlaps, and a row whose scratchpad or weight-store source
cannot be corrected writes nothing. -/
def Obligations.AccessEvents : Prop :=
  ∀ (s : State) (k : Cmd), s.cmd k.seq = some k → k.asks = [] → k.acks = [] → s.fansRun k.fans = false →
    let n := s.core.cnum
    let cid := s.core.cid
    let sz (o : CA) : Nat := 2 ^ o.size.toNat
    let still (t : State) : Prop := t.core.regs = s.core.regs ∧ t.memory = s.memory
    (k.stage = 2 → isMemAccess k.ins = true → k.got = [] →
      ∃ t, exec (.memoryAccessComplete n k.seq) s = .next t ∧ Ended s t k k.err ∧ still t) ∧
    (∀ ue, k.err ≠ 0 ∨ (k.stage = 2 ∧ s.releaseFree k = true) → isCopy k.ins = true →
      ∃ t, exec (.copyComplete n ⟨k.seq, ue⟩) s = .next t ∧ Ended s t k k.err ∧ still t) ∧
    (k.stage = 0 → k.err = 0 → s.mayPerform k = true → isMemAccess k.ins = true → orderOf k.ins = .rlx ∨ orderOf k.ins = .acq →
      (isFence k.ins = true → ∃ t, exec (.memoryAccessComplete n k.seq) s = .next t ∧ Ended s t k 0 ∧ still t) ∧
      (isFence k.ins = false → k.addr % (match k.ins with
          | .vldg _ o | .vstg _ o => esize o.ty
          | i => (homeKind i).2.2) ≠ 0 →
        ∃ t, exec (.memoryAccessComplete n k.seq) s = .next t ∧ Ended s t k 1 ∧ still t) ∧
      (∀ h o pa c, k.ins = .ldg h o → k.addr % sz o = 0 → s.mapped s.asid .read k.addr (sz o) pa → s.held cid pa (sz o) c →
        ∃ t, exec (.memoryAccessComplete n k.seq) s = .next t ∧ Ended s t k 0 ∧ t.memory = s.memory ∧
          let v := leNat ((c.bytes.drop (pa % 128)).take (sz o))
          (o.d ≠ 0 → t.core.x o.d = if o.x.getLsbD 0 then BitVec.ofInt 64 (toS (8 * sz o) v) else BitVec.ofNat 64 v)) ∧
      (∀ h o pa c, k.ins = .stg h o → k.addr % sz o = 0 → s.mapped s.asid .write k.addr (sz o) pa → s.held cid pa (sz o) c → c.out = true →
        cmdScope k.ins < 2 → k.fence < 2 →
        ∃ t c', exec (.memoryAccessComplete n k.seq) s = .next t ∧ Ended s t k 0 ∧ t.core.regs = s.core.regs ∧ t.memory.mem = s.memory.mem ∧
          t.cline cid (pa / 128) = some c' ∧ c'.out = true ∧ c'.bytes = patch c.bytes (pa % 128) (leBytes (sz o) (k.ops.getD 1 0).toNat)) ∧
      (∀ h o va m pa c, k.ins = .vldg h o → k.addr % esize o.ty = 0 → k.extent = [(va, m)] → s.mapped s.asid .read va m pa → s.held cid pa m c →
        ∃ t, exec (.memoryAccessComplete n k.seq) s = .next t ∧ Ended s t k 0 ∧ t.memory = s.memory ∧
          t.core.regs = (s.core.setVec (k.ops.getD 1 0).toNat ((k.data.map (fun e => e.1)).zip ((c.bytes.drop (pa % 128)).take m))).regs) ∧
      (∀ h o va m pa c, k.ins = .vstg h o → k.addr % esize o.ty = 0 → k.extent = [(va, m)] → s.mapped s.asid .write va m pa → s.held cid pa m c →
        c.out = true → cmdScope k.ins < 2 →
        ∃ t c', exec (.memoryAccessComplete n k.seq) s = .next t ∧ Ended s t k 0 ∧ t.core.regs = s.core.regs ∧ t.memory.mem = s.memory.mem ∧
          t.cline cid (pa / 128) = some c' ∧ c'.out = true ∧ c'.bytes = patch c.bytes (pa % 128) ((k.data.map (fun e => e.2)).take m)) ∧
      (∀ h o pa, k.ins = .amo h o ∨ k.ins = .cas h o → s.memoryWf → k.addr % sz o = 0 → s.mapped s.asid .write k.addr (sz o) pa →
        s.atRest cid pa (sz o) → s.behind k (pa / 128) = false → pa % 128 + sz o ≤ 128 →
        let old := s.homeNum pa (sz o)
        let arg (i : Nat) : Nat := (k.ops.getD i 0).toNat % 2 ^ (8 * sz o)
        ∃ t, exec (.memoryAccessComplete n k.seq) s = .next t ∧ Ended s t k 0 ∧ (o.d ≠ 0 → t.core.x o.d = BitVec.ofNat 64 old) ∧
          (k.ins = .amo h o → t.homeNum pa (sz o) = amoNew o.x.toNat (sz o) old (arg 1)) ∧
          (k.ins = .cas h o → t.homeNum pa (sz o) = if old = arg 2 then arg 1 else old) ∧
          (∀ a, a < s.frame pa ∨ s.frame pa + sz o ≤ a → t.memory.mem.get a = s.memory.mem.get a))) ∧
    (k.stage = 0 → k.err = 0 → s.mayPerform k = true → isRelease k.ins = true → isMemAccess k.ins = true → isRelCas k.ins = false →
      2 ≤ cmdScope k.ins → s.coveredLines cid n (fun _ => true) = [] → s.coveredFans n (fun _ => true) = [] →
      ∃ t, exec (.memoryAccessComplete n k.seq) s = .next t ∧ t.cmd k.seq = some { k with stage := 1, fans := [], got := [] } ∧ still t) ∧
    (k.stage = 1 → k.err = 0 → k.parked = none → k.retry = none → isFence k.ins = true → orderOf k.ins ≠ .sc →
      ∃ t, exec (.memoryAccessComplete n k.seq) s = .next t ∧ Ended s t k 0 ∧ still t) ∧
    (k.stage = 0 → k.err = 0 → s.mayPerform k = true → isCopy k.ins = true → (Order.acquires (orderOf k.ins) && decide (2 ≤ cmdScope k.ins)) = false →
      let sh := copyShape k
      let len := sh.2.2.2.1
      let rows := copyRows k s.core.g
      (sh.1 = 0 → sh.2.1 = 0 → (∀ r ∈ rows, s.okBanks r.sa len = true ∧ s.okBanks r.da len = true) →
        (∃ t, exec (.copyComplete n ⟨k.seq, false⟩) s = .next t ∧ t.memory = s.memory ∧ t.core.units.tiles = s.core.units.tiles ∧
          t.core.regs = (rows.foldl (fun (u : State) r => u.putBank (u.bankCells true r.g r.da (u.bankRead r.g r.sa len))) s).core.regs ∧
          (s.releaseFree k = true → Ended s t k 0) ∧
          (s.releaseFree k = false → t.cmd k.seq = some { k with stage := 2, fans := [], performed := true, asked := none })) ∧
        (rows ≠ [] → ∃ t, exec (.copyComplete n ⟨k.seq, true⟩) s = .next t ∧ Ended s t k 3 ∧ still t)) ∧
      (sh.1 = 2 → sh.2.1 = 0 → (∀ r ∈ rows, r.sa + len ≤ 0xC0000000 ∧ s.okBanks r.da len = true) →
        (∀ r ∈ rows, ∀ g ∈ wsGroups r.sa len, s.refreshing s.core.stk g = false) → s.releaseFree k = true →
        ∃ t, exec (.copyComplete n ⟨k.seq, false⟩) s = .next t ∧ Ended s t k 0 ∧ t.memory = s.memory ∧
          t.core.regs = (rows.foldl (fun (u : State) r => u.putBank (u.bankCells true r.g r.da ((s.stack s.core.stk).ws.getN r.sa len))) s).core.regs) ∧
      (∀ r pa c, sh.1 = 1 → sh.2.1 = 0 → rows = [r] → s.mapped s.asid .read r.sa len pa → s.held cid pa len c → s.okBanks r.da len = true →
        s.releaseFree k = true →
        ∃ t, exec (.copyComplete n ⟨k.seq, false⟩) s = .next t ∧ Ended s t k 0 ∧ t.memory = s.memory ∧
          t.core.regs = (s.putBank (s.bankCells true r.g r.da ((c.bytes.drop (pa % 128)).take len))).core.regs) ∧
      (∀ r pa c, sh.1 = 0 → sh.2.1 = 1 → rows = [r] → s.okBanks r.sa len = true → s.mapped s.asid .write r.da len pa → s.held cid pa len c →
        c.out = true → k.relScope < 2 → s.releaseFree k = true →
        ∃ t c', exec (.copyComplete n ⟨k.seq, false⟩) s = .next t ∧ Ended s t k 0 ∧ t.core.regs = s.core.regs ∧ t.memory.mem = s.memory.mem ∧
          t.cline cid (pa / 128) = some c' ∧ c'.out = true ∧ c'.bytes = patch c.bytes (pa % 128) (s.bankRead r.g r.sa len)))

/-- R115, R127, R130, R133, R278, and R283 with R50 and R60. The stamp of a line without an entry is its slice's floor (R127; log 46). The 256
bytes of an LSEND are those of its bank as it is delivered (the model's reading, log 26). -/
def Obligations.SequencerAndWatchEvents : Prop :=
  ∀ (s : State) (k : Cmd), s.cmd k.seq = some k → k.asks = [] → k.acks = [] → s.fansRun k.fans = false →
    let n := s.core.cnum
    let cid := s.core.cid
    let still (t : State) : Prop := t.core.regs = s.core.regs ∧ t.memory = s.memory
    (orderOf k.ins = .sc → k.stage = 1 → k.performed = false → s.mayPerform k = true →
      (isFence k.ins = true → ∃ t, exec (.scPerform n k.seq) s = .next t ∧ t.core.units.lamport = s.core.units.lamport + 1 ∧
        t.cmd k.seq = some { k with stage := 2, performed := true } ∧ still t) ∧
      (∀ pa, isFence k.ins = false → s.memoryWf →
        let op := homeKind k.ins
        let size := op.2.2
        k.addr % size = 0 → s.mapped s.asid (if op.1 = 0 then .read else .write) k.addr size pa → s.atRest cid pa size →
        s.behind k (pa / 128) = false → pa % 128 + size ≤ 128 →
        let old := s.homeNum pa size
        let arg (i : Nat) : Nat := (k.ops.getD i 0).toNat % 2 ^ (8 * size)
        let floor := (s.stack (homeStack (pa / 128 * 128))).floor
        ∃ t, exec (.scPerform n k.seq) s = .next t ∧ Ended s t k 0 ∧
          t.core.units.lamport = BitVec.ofNat 64 (max s.core.units.lamport.toNat floor.1 + 1) ∧
          t.homeNum pa size = (homeOp op.1 op.2.1 size old (arg 1) (arg 2)).getD old ∧
          (∀ h o, (k.ins = .amo h o ∨ k.ins = .cas h o) → o.d ≠ 0 → t.core.x o.d = BitVec.ofNat 64 old) ∧
          (∀ h o, k.ins = .ldg h o → o.d ≠ 0 →
            t.core.x o.d = if o.x.getLsbD 0 then BitVec.ofInt 64 (toS (8 * size) old) else BitVec.ofNat 64 old))) ∧
    (∀ line, k.retry = some line → (∀ d ∈ s.cores, ∀ j ∈ d.units.cmds, j.retry = some line →
        olderReq (k.born, n, k.seq) (j.born, d.cnum, j.seq) = true) →
      ∃ t, exec (.retryBackoffExpire n k.seq) s = .next t ∧ t.cmd k.seq = some { k with retry := none } ∧ still t) ∧
    (∀ grp, k.window = true → (copyGroups k s.core.g).contains grp = true → s.refreshing s.core.stk grp = false →
      ∃ t, exec (.wsRefreshWindowEnd s.core.stk grp) s = .next t ∧ t.cmd k.seq = some { k with window := false } ∧ still t) ∧
    (∀ h o pa c, k.ins = .waitaddr h o → k.err = 0 → s.mayPerform k = true →
      let size := 2 ^ o.size.toNat
      k.addr % size = 0 → s.mapped s.asid .read k.addr size pa → s.held cid pa size c →
      let v := leNat ((c.bytes.drop (pa % 128)).take size)
      (v ≠ (k.ops.getD 2 0).toNat % 2 ^ (8 * size) →
        ∃ t, exec (.waitaddrPoll n k.seq) s = .next t ∧ Ended s t k 0 ∧ t.memory = s.memory ∧ (o.d ≠ 0 → t.core.x o.d = BitVec.ofNat 64 v)) ∧
      (v = (k.ops.getD 2 0).toNat % 2 ^ (8 * size) →
        ∃ t, exec (.waitaddrPoll n k.seq) s = .next t ∧ still t ∧
          t.cmd k.seq = some { k with last := BitVec.ofNat 64 v, performed := true, got := [], asked := none })) ∧
    (∀ h o l, k.ins = .waitaddr h o → k.limit = some l → l ≤ s.regs.m.tbase.toNat → k.performed = true →
      ∃ t, exec (.waitaddrTimeout n k.seq) s = .next t ∧ Ended s t k 0 ∧ t.memory = s.memory ∧ (o.d ≠ 0 → t.core.x o.d = k.last)) ∧
    (∀ h o, k.ins = .lsend h o → k.stage = 2 → ∃ t, exec (.lsendDelivered n k.seq) s = .next t ∧ Ended s t k k.err ∧ still t) ∧
    (∀ h o, k.ins = .lsend h o → k.stage = 0 → s.mayPerform k = true → ¬(isRelease k.ins = true ∧ 2 ≤ cmdScope k.ins) →
      (∀ j ∈ s.core.units.cmds, j.seq < k.seq → ∀ h' q, j.ins = .lsend h' q → q.shape ≠ o.shape) →
      (s.sendEntry o.shape = none → ∃ t, exec (.lsendDelivered n k.seq) s = .next t ∧ Ended s t k 7 ∧ still t) ∧
      (∀ e, s.sendEntry o.shape = some e → e.dstm ≠ s.mid → s.nmod < e.dstm ∨ s.route e.dstm = none ∨ (s.channel e.idx).down = true →
        ∃ t, exec (.lsendDelivered n k.seq) s = .next t ∧ Ended s t k 7 ∧ (t.channel e.idx).down = true ∧ still t) ∧
      (∀ e, s.sendEntry o.shape = some e → e.dstm = s.mid → (s.channel e.idx).queue.length < 64 →
        let sent (m : QMsg) (code : BitVec 3) : Prop := ∃ t, exec (.lsendDelivered n k.seq) s = .next t ∧ Ended s t k code ∧ still t ∧
          (t.channel e.idx).queue = (s.channel e.idx).queue ++ [m]
        (k.addr % 256 ≠ 0 → sent (.failed 1) 1) ∧
        (k.addr % 256 = 0 → s.okBanks k.addr 256 = false → sent (.failed 2) 2) ∧
        (k.addr % 256 = 0 → s.okBanks k.addr 256 = true → sent (.msg (s.bankRead 0 k.addr 256)) 0)))

/-- R30, R31, R318, R39, R57, R42, R55, R303 to R306, R53 and R60. The model's readings (log 18): a page that cannot be filled is XLATE with its
address at the task's first bundle, and so is a header's fault; a RESUME fills again. -/
def Obligations.HearthEvents : Prop :=
  ∀ s : State,
    let n := s.core.cnum
    (∀ q pa, (s.queue q).on = true → (s.queue q).stopc = 0 → (s.queue q).sync = false → s.readWaits (.words q) = false →
      s.mapped (s.queue q).asid .read (s.queue q).tailVa 8 pa → s.homeFree pa 8 = true → s.poisoned pa 8 = false →
      ∃ t, exec (.tailWordChange q) s = .next t ∧ (t.queue q).tail = BitVec.ofNat 64 (s.homeNum pa 8) ∧ (t.queue q).head = (s.queue q).head ∧
        t.memory.mem = s.memory.mem ∧ t.core = s.core) ∧
    (∀ q, (s.queue q).on = true → (s.queue q).stopc = 0 → (s.queue q).sync = false → (s.queue q).head ≠ (s.queue q).tail →
      s.regs.m.hcfg.getLsbD 63 = true → fld s.regs.m.mstate 0 4 = 4 → s.readWaits (.record q) = false →
      s.hearthFree (s.queue q).asid (s.queue q).headVa 8 = true →
      let size := 2 ^ fld (s.queue q).lq0 0 5
      let ahead := ((s.queue q).tail - (s.queue q).head).toNat
      let stops (code : Nat) : Prop := ∃ t, exec (.launchRecord q) s = .next t ∧ (t.queue q).stopc = code ∧ (t.queue q).head = (s.queue q).head ∧
        t.hearth.launches = s.hearth.launches ∧ t.core = s.core
      (size < ahead → stops 1) ∧
      (ahead ≤ size → (s.asidOn (s.queue q).asid).1 = some false → stops 3) ∧
      (∀ code u, s.readRecord q (s.queue q) = (some (.error code), u) → exec (.launchRecord q) s = .next ((u.endRead (.record q)).stopQueue q code)) ∧
      (∀ l u, s.readRecord q (s.queue q) = (some (.ok l), u) → ∃ t, exec (.launchRecord q) s = .next t ∧ t.hearth.serial = l.serial ∧
        (t.queue q).head = (s.queue q).head + 1)) ∧
    (∃ t, exec .ageBoundary s = .next t ∧ t.hearth.age = BitVec.ofNat 64 (fld s.regs.m.hcfg 16 14)) ∧
    (∀ l : Launch, s.launch l.serial = some l → l.reported = false → (∃ e ∈ l.waiting, s.unplaceable e.2 = true) →
      l.waitStart + (7 - l.pri + 4) * s.hearth.age.toNat ≤ s.regs.m.tbase.toNat →
      ∃ t, exec (.unplaceableReport l.serial) s = .next t ∧ (t.launch l.serial).any (fun k => k.reported) = true ∧ t.core = s.core ∧
        (s.memoryWf → (s.regs.ev.evtail - s.regs.ev.evhead).toNat < 2 ^ fld s.regs.ev.evctl 0 4 → t.regs.ev.evtail = s.regs.ev.evtail + 1 ∧
          t.memory.mem.get s.eventSlot = 11 ∧ t.memory.mem.getN (s.eventSlot + 16) 8 = leBytes 8 l.serial ∧ s.sameMemory t)) ∧
    (∀ (k : Task) (l : Launch) (nd : GNode) (pl : Nat) (d : Bool) (tt g m : Nat) (arg : Word), s.core.task = some k → k.started = false →
      s.core.cstate = 0 ∨ s.core.cstate = 5 → s.readWaits (.entry n) = false → s.launch k.serial = some l → l.nodes[k.node]? = some nd →
      nd.kind = .task pl d tt g m arg →
      (∀ e u v, s.readHeader l tt = (some (.ok e), u) → State.fillPages k.asid e e.ovls u = .ok v →
        (k.entered = false → exec (.taskEntry n) s = .next ((v.endRead (.entry n)).enter k arg e)) ∧
        (k.entered = true → exec (.taskEntry n) s = .next (v.endRead (.entry n)).goOn)) ∧
      (∀ e u a, s.readHeader l tt = (some (.ok e), u) → State.fillPages k.asid e e.ovls u = .error a →
        (k.entered = false → exec (.taskEntry n) s = .next (((u.endRead (.entry n)).enter k arg e).pageFault a)) ∧
        (k.entered = true → exec (.taskEntry n) s = .next ((u.endRead (.entry n)).pageFault a))) ∧
      (∀ e u, s.readHeader l tt = (some (.error e), u) → exec (.taskEntry n) s = .next ((u.endRead (.entry n)).entryFault k e.1 e.2.1 e.2.2))) ∧
    (∀ k, s.core.task = some k → k.started = true → s.mayRetire = true → s.coveredLines s.core.cid n (fun _ => true) = [] →
      s.coveredFans n (fun _ => true) = [] →
      ∃ t u : State, exec (.coreRetire n) s = .next t ∧ t = u.ovlSettle.regate.hearthRun ∧ u.core.task = none)

/-- R42, R43, R303 and R304: the entry state of a task. -/
def Obligations.EntryState : Prop :=
  ∀ (s : State) (k : Task) (arg : Word) (e : Entry),
    let t := s.enter k arg e
    t.core.x 1 = arg ∧ t.core.x 2 = BitVec.ofNat 64 k.serial ∧ t.core.x 3 = BitVec.ofNat 64 k.iter ∧
    (∀ r : XReg, 3 < r.toNat → t.core.x r = 0) ∧ (∀ r : FReg, r ≠ 0 → t.core.f r = false) ∧
    (∀ (r : PReg) (g : Nat), r ≠ 0 → g < 4 → t.core.pslice r g = 0) ∧
    t.core.ctl.fmt = e.fmt ∧ t.core.ctl.tol = e.tol ∧ t.core.ctl.vview = e.vview ∧ t.core.ctl.mview = e.mview ∧
    t.core.ctl.qview = e.qview ∧ t.core.ctl.tvec = e.tvec ∧ t.core.ctl.iter = 0 ∧ t.core.ctl.sticky = 0 ∧ t.core.ctl.cyc = 0 ∧
    t.core.pipe.pwq = [] ∧ t.core.units.cmds = [] ∧ (∀ n : KTok, (t.core.token n).cnt = 0 ∧ (t.core.token n).err = 0) ∧
    t.core.front.pc = BitVec.ofNat 56 e.entry ∧ t.core.cstate = 1 ∧ t.memory = s.memory

/-- R113, R131 to R134. -/
def Obligations.DirectoryEvents : Prop :=
  ∀ (s : State) (ag line : Nat),
    ((s.stack (ag / 11)).removed = true →
      exec (.readMiss ag line) s = .next s ∧ exec (.checkOut ag line) s = .next s ∧ exec (.checkIn ag line) s = .next s ∧
      exec (.invalidation ag line) s = .next s ∧ exec (.invalidationAck ag line) s = .next s) ∧
    ((s.stack (ag / 11)).removed = false →
      (s.fanBusy line = false → s.cline ag line = none → s.frameBusy (line * 128) = false →
        (s.memory.lines.filter (fun l => l.agent == ag)).length < s.capacity ag →
        (∃ t c, exec (.readMiss ag line) s = .next t ∧ t.cline ag line = some c ∧ c.bytes = s.homeRead (line * 128) 128 ∧ c.out = false ∧
          t.memory.mem = s.memory.mem ∧ (ag < 88 → ∃ d, t.entry line = some d ∧ ag ∈ d.sharers.agents)) ∧
        (∃ t c d, exec (.checkOut ag line) s = .next t ∧ t.cline ag line = some c ∧ c.bytes = s.homeRead (line * 128) 128 ∧ c.out = true ∧
          t.entry line = some d ∧ ag ∈ d.out ∧ (ag < 88 → ag ∈ d.sharers.agents) ∧ t.memory.mem = s.memory.mem)) ∧
      (∀ c, s.cline ag line = some c → c.out = true → s.fanBusy line = false →
        ∃ t, exec (.checkIn ag line) s = .next t ∧ t.cline ag line = none) ∧
      (∀ d f, s.entry line = some d → d.fan = some f →
        (ag ∈ f.inval → (∀ c, s.cline ag line = some c → c.out = false) →
          ∃ t d' f', exec (.invalidation ag line) s = .next t ∧ t.cline ag line = none ∧ t.entry line = some d' ∧ d'.fan = some f' ∧
            ag ∉ f'.inval ∧ ag ∈ f'.acking ∧ t.memory.mem = s.memory.mem) ∧
        (ag ∈ f.acking → (∃ a ∈ f.await, a ≠ ag) →
          ∃ t d' f', exec (.invalidationAck ag line) s = .next t ∧ t.entry line = some d' ∧ d'.fan = some f' ∧
            f'.await = f.await.filter (fun a => a != ag) ∧ t.memory.mem = s.memory.mem))) ∧
    (∀ c, s.cline ag line = some c → c.out = false →
      ∃ t, exec (.silentDrop ag line) s = .next t ∧ t.cline ag line = none ∧ t.memory.mem = s.memory.mem ∧ t.memory.dir = s.memory.dir)

/-- R132: CHECK_IN compares the copy with the twin; concurrent writers of different bytes lose nothing. `memoryWf` rules out storage that no run reaches. -/
def Obligations.CheckInMerges : Prop :=
  ∀ (s : State) (ag line : Nat) (c : CLine) (d : DirEntry) (twin : List Byte), s.memoryWf → (s.stack (ag / 11)).removed = false →
    s.cline ag line = some c → c.out = true → s.entry line = some d → d.twin = some twin → s.memory.remaps = [] → line * 128 + 128 ≤ 2 ^ 52 →
    ∃ t, exec (.checkIn ag line) s = .next t ∧
      (∀ i, i < 128 → t.memory.mem.get (line * 128 + i) =
        if c.bytes.getD i 0 = twin.getD i 0 then s.memory.mem.get (line * 128 + i) else c.bytes.getD i 0) ∧
      (∀ a, a < line * 128 ∨ line * 128 + 128 ≤ a → t.memory.mem.get a = s.memory.mem.get a)

/-- R133, R136, R137, R334, R335 and R361. Which pieces are a port's, and where they lie, is the model's choice (log 47). -/
def Obligations.HostEvents : Prop :=
  ∀ s : State,
    (∀ line d f, s.entry line = some d → d.fan = some f → f.host = true → f.await ≠ [] →
      ∃ t d' f', exec (.hostSnoopResponse line) s = .next t ∧ t.entry line = some d' ∧ d'.fan = some f' ∧ f'.host = false ∧ f'.await = f.await) ∧
    (∀ line inval store, s.board.portUp.toList.any id = true →
      (∀ l, s.memory.host.find? (fun k => k.line == line) = some l → inval = true →
        ∃ t, exec (.hostSnoop line inval store) s = .next t ∧ t.memory.host.any (fun k => k.line == line) = false ∧
          Outward.snoopData line l.bytes ∈ t.outward) ∧
      (s.memory.host.find? (fun k => k.line == line) = none →
        ∃ t, exec (.hostSnoop line inval store) s = .next t ∧ t.outward = s.outward ++ [.snoopMiss line])) ∧
    (∀ port addr bytes pa, s.inHdm port addr bytes.length = some pa →
      (s.hostMemHeld pa = true → ∃ t, exec (.hostCxlMemWrite ⟨port, addr⟩ bytes) s = .next t ∧
        t.memory.heldReqs = s.memory.heldReqs ++ [⟨true, addr, bytes, bytes.length, port⟩] ∧ t.memory.mem = s.memory.mem) ∧
      (s.hostMemHeld pa = false → s.memoryWf → s.memory.remaps = [] → (∀ l ∈ lineParts pa bytes.length, s.entry l.1 = none) →
        ∃ t, exec (.hostCxlMemWrite ⟨port, addr⟩ bytes) s = .next t ∧ t.outward = s.outward ++ [.hostDone addr true] ∧
          (∀ i, i < bytes.length → t.memory.mem.get (pa + i) = bytes.getD i 0) ∧
          (∀ a, a < pa ∨ pa + bytes.length ≤ a → t.memory.mem.get a = s.memory.mem.get a)) ∧
      (∀ d, s.hostMemHeld pa = false → lineParts pa bytes.length = [(pa / 128, pa % 128, bytes.length)] → s.entry (pa / 128) = some d →
        d.fan = none → (∃ a ∈ d.sharers.agents, (s.stack (a / 11)).removed = false) →
        ∃ t, exec (.hostCxlMemWrite ⟨port, addr⟩ bytes) s = .next t ∧ t.memory.hostWrites = s.memory.hostWrites ++ [(addr, [s.memory.nextFan])] ∧
          t.fansRun [s.memory.nextFan] = true)) ∧
    (∀ port addr len pa, s.inHdm port addr len = some pa →
      (s.hostMemHeld pa = true → ∃ t, exec (.hostCxlMemRead ⟨port, addr⟩ len) s = .next t ∧
        t.memory.heldReqs = s.memory.heldReqs ++ [⟨false, addr, [], len, port⟩] ∧ t.memory.mem = s.memory.mem) ∧
      (s.hostMemHeld pa = false → s.hostReady pa len = true → ∃ t, exec (.hostCxlMemRead ⟨port, addr⟩ len) s = .next t ∧
        t.outward = s.outward ++ [.hostData addr (s.homeRead pa len) (s.poisoned pa len)] ∧ t.memory.mem = s.memory.mem)) ∧
    (∀ idx r, s.memory.heldReqs[idx]? = some r → ∃ t, exec (.cxlMemHeldTimeout idx) s = .next t ∧
      t.memory.heldReqs = s.memory.heldReqs.eraseIdx idx ∧
      (r.write = true → Outward.hostDone r.addr false ∈ t.outward) ∧
      (r.write = false → Outward.hostData r.addr (List.replicate r.len 0) true ∈ t.outward)) ∧
    (∀ port dec hpa size dpa two,
      let dev := if two then size / 2 else size
      (size ≠ 0 → (∃ w ∈ s.regs.lim.hdm.toList, w.1.getLsbD 0 = true ∧ fld w.1 16 36 * 65536 ≤ dpa ∧ dpa + dev ≤ (fld w.2 16 36 + 1) * 65536) →
        ∃ t, exec (.hdmDecoderCommit port dec ⟨hpa, dpa, two⟩ size) s = .next t ∧ (⟨port, dec, hpa, size, dpa, two⟩ : HdmDec) ∈ t.board.hdm) ∧
      (size = 0 ∨ (∀ w ∈ s.regs.lim.hdm.toList, w.1.getLsbD 0 = false ∨ dpa < fld w.1 16 36 * 65536 ∨ (fld w.2 16 36 + 1) * 65536 < dpa + dev) →
        ∃ t, exec (.hdmDecoderCommit port dec ⟨hpa, dpa, two⟩ size) s = .next t ∧ t.outward = s.outward ++ [.hdmError port dec] ∧ t.board = s.board)) ∧
    (∀ (e : HdmDec) (addr n : Nat), e.hpa ≤ addr → addr + n ≤ e.hpa + e.size →
      (e.two = false → e.map addr n = some (e.dpa + (addr - e.hpa))) ∧
      (e.two = true → (addr - e.hpa) / 256 % 2 ≠ e.port → e.map addr n = none))

/-- R141, R143, R144, R147, R148, R151 to R153, R155 to R157 and R159 to R161: the events of the node store and what each Crucible command
does as it completes; `kTurn` is the order of R164, `roomFor` and `reclaimTest` are R158's. GEN of a handle is never 0 (R145). The model's
readings: which statuses carry a handle, a demotion that happens as a whole at DEMOTE_COMPLETE, and a KSEAL below an OPEN parent that is NOTREADY
before it is INCOMPLETE (log 31); the name of a KOPEN that is tested before the right W (log 57). -/
def Obligations.StoreEvents : Prop :=
  ∀ s : State,
    let n := s.core.cnum
    let calm : Prop := s.crucible.walkHbm = false ∧ s.pressureAt false (markHigh s.regs.m.crmark) = false ∧
      s.pressureOver true (markCxl s.regs.m.crmark) = false
    (∀ slot nd p, s.node slot = some nd → nd.slot = slot → nd.st = .sealing → nd.repl = false →
      (∀ q, s.parent nd = some q → q.st.readable = true) → s.space nd.ns = some p →
      ∃ (u : State) (nd' : KNode), exec (.sealComplete slot) s = .next u.reclaimTest ∧ u.node slot = some nd' ∧
        nd'.st = .sealed ∧ nd'.name = nd.name ∧ nd'.gen = nd.gen ∧ nd'.owner = 0 ∧
        (s.dirMod nd.name = s.mid → ∃ d, u.kdir nd.name = some d ∧ d.home = s.mid ∧ d.handle = nd.handle s.mid)) ∧
    (∀ slot nd, s.node slot = some nd → nd.slot = slot → nd.st = .demoting →
      ∃ (u : State) (nd' : KNode), exec (.demoteComplete slot) s = .next u.reclaimTest ∧ u.node slot = some nd' ∧ nd'.st = .sealed ∧
        (nd.blocks.all (fun b => s.blockGood nd b) = true → nd'.cxl = true ∧ u.regs.telem.demote = s.regs.telem.demote + 1 ∧
          nd'.blocks.map (fun b => b.granules) = nd.blocks.map (fun b => b.next)) ∧
        (nd.blocks.all (fun b => s.blockGood nd b) = false → nd'.bad = true ∧ nd'.cxl = nd.cxl ∧ u.regs.telem.demote = s.regs.telem.demote ∧
          u.memory = s.memory)) ∧
    (∀ slot nd, s.node slot = some nd → nd.expiry ≠ 0 → nd.expiry.toNat ≤ s.regs.m.tbase.toNat →
      (∃ t, exec (.leaseExpire slot) s = .next t) ∧ (calm → exec (.leaseExpire slot) s = .next s)) ∧
    ((∀ i, i < 16 → (s.link i).failedAt = none) →
      ∃ t, exec .storeTick s = .next t ∧ t.regs.m.tbase = s.regs.m.tbase + 1 ∧ t.ticks = s.ticks + 1 ∧ t.memory = s.memory ∧ t.core = s.core ∧
        t.others = s.others ∧ t.crucible = s.crucible) ∧
    (∀ k, s.cmd k.seq = some k → k.asks = [] → k.err = 0 →
      (∀ h o p nd b c, k.ins = .krepl h o → k.stage = 2 → s.space k.last = some p → s.readableName p.ns k.image.name = none → k.gotN 0 1 = 1 →
        s.replicaOf p.ns k.image.name = some nd → s.node nd.slot = some nd → nd.owner = s.pinId k →
        k.image.blocks[nd.written.length]? = some b → nd.blocks[nd.written.length]? = some c →
        (b.check = (blockCheck k.image.name b.layer b.bytes).toNat →
          ∃ t, exec (.replicaBlockMoved n k.seq) s = .next t ∧ t.core = s.core ∧
            t.node nd.slot = some { nd with written := nd.written ++ [(nd.written.length, 0)] }) ∧
        (b.check ≠ (blockCheck k.image.name b.layer b.bytes).toNat →
          ∃ t, exec (.replicaBlockMoved n k.seq) s = .next t ∧ Ended s t k 3 ∧ t.node nd.slot = none)) ∧
      (s.kTurn k = true →
        let dst := (k.ops.getD 0 0).toNat
        let hnd := (k.ops.getD 1 0).toNat
        let arg := (k.ops.getD 2 0).toNat
        let blk := s.bankRead 0 arg 32
        let put (a : Nat) (bs : List Byte) : Regs := (s.putBank (s.bankCellsAll true a bs)).core.regs
        (∀ h o p, k.ins = .khash h o → k.spec = false → s.okBanks arg 32 = true → s.space (BitVec.ofNat 64 (numAt blk 0 8)) = some p →
          let m := numAt blk 24 1
          1 ≤ m → m ≤ 64 → zeroAt blk 25 7 = true → s.okBanks dst (16 * m) = true → s.okBanks hnd (4 * m * p.bt) = true →
          ∃ t, exec (.crucibleCommandComplete n k.seq) s = .next t ∧ Ended s t k 0 ∧ t.memory = s.memory ∧ t.crucible = s.crucible ∧
            t.core.regs = put dst ((hashNames p.ns p.bt (s.bankRead 0 hnd (4 * m * p.bt)) m (BitVec.ofNat 128 (numAt blk 8 16))).flatMap
              (fun a => leBytes 16 a.toNat))) ∧
        (∀ h o, k.ins = .kstat h o → dst % 32 = 0 → s.okBanks dst 32 = true → s.isRemote (k.ops.getD 1 0) = false →
          ∃ t, exec (.crucibleCommandComplete n k.seq) s = .next t ∧ Ended s t k 0 ∧ t.memory = s.memory ∧ t.crucible = s.crucible ∧
            t.core.regs = put dst (match s.current (k.ops.getD 1 0) with
              | some nd => s.statBytes nd
              | none => statNone)) ∧
        (∀ h o l, k.ins = .klook h o → k.stage = 0 → k.ops.getD 1 0 = 0 → s.lookBlock k = some l → o.flags = 0 →
          (l.p.right s.asid 0 = false → ∃ t, exec (.crucibleCommandComplete n k.seq) s = .next t ∧ Ended s t k 0 ∧
            t.core.regs = put dst (leBytes 8 0 ++ leBytes 8 10) ∧ t.memory = s.memory ∧ t.crucible = s.crucible) ∧
          (∀ depth, l.p.right s.asid 0 = true → depth ≤ l.names.length →
            (∀ d, d < l.names.length → ((s.readableName l.p.ns (l.names.getD d 0)).isSome = true ↔ d < depth)) →
            (∀ d nd, d < l.names.length → s.readableName l.p.ns (l.names.getD d 0) = some nd → nd.handle s.mid ≠ 0) →
            ∃ t probes, exec (.crucibleCommandComplete n k.seq) s = .next t ∧ Ended s t k 0 ∧ probes ≤ 8 ∧
              t.core.regs = put dst (leBytes 8 (match s.readableName l.p.ns (l.names.getD (depth - 1) 0) with
                | some nd => if depth = 0 then 0 else (nd.handle s.mid).toNat
                | none => 0) ++ leBytes 8 (depth * 2 ^ 8 + probes * 2 ^ 24)) ∧
              t.regs.telem.klookn = s.regs.telem.klookn + 1 ∧ t.regs.telem.klhit = s.regs.telem.klhit + BitVec.ofNat 64 depth ∧
              t.regs.telem.klmiss = s.regs.telem.klmiss + BitVec.ofNat 64 (l.names.length - depth) ∧
              t.memory = s.memory ∧ t.crucible = s.crucible)) ∧
        (∀ h o p, k.ins = .kopen h o → k.ops.getD 1 0 = 0 → s.okBanks arg 32 = true → s.space (BitVec.ofNat 64 (numAt blk 0 8)) = some p →
          numAt blk 24 4 < 2 ^ 20 → zeroAt blk 28 4 = true → s.okBanks (numAt blk 24 4) (4 * p.bt) = true → dst % 16 = 0 → s.okBanks dst 16 = true →
          let ts := s.bankRead 0 (numAt blk 24 4) (4 * p.bt)
          let name := BitVec.ofNat 128 (numAt blk 8 16)
          let w := s.caller
          let ends (t : State) : Prop := exec (.crucibleCommandComplete n k.seq) s = .next t
          let named := nodeName p.ns 0 ((List.range p.bt).map (fun i => BitVec.ofNat 32 (numAt ts (4 * i) 4))) = name
          (¬named → ∃ t, ends t ∧ Ended s t k 2 ∧ t.core.regs = s.core.regs ∧ t.crucible = s.crucible) ∧
          (named → p.right w.asid 1 = false → ends (s.kRecord k 0 10 0 0 0)) ∧
          (named → p.right w.asid 1 = true →
            (∀ nd u, s.named p.ns name = some nd → nd.ownedBy s.mid w = true → s.takeRef w nd = some u →
              ends (u.kRecord k (nd.handle s.mid) 0 nd.depth 0 0)) ∧
            (∀ nd u, s.named p.ns name = some nd → nd.ownedBy s.mid w = false → nd.st.readable = true → s.takeRef w nd = some u →
              ends (u.kRecord k (nd.handle s.mid) 1 nd.depth 0 0)) ∧
            (∀ nd, s.named p.ns name = some nd → nd.ownedBy s.mid w = false → nd.st.readable = false → ends (s.kRecord k 0 2 0 0 0)) ∧
            (∀ u a, s.named p.ns name = none → s.mayRef w.serial = true → s.roomFor p (4 * p.nlayer) = (.done, u) → u.headerPlace p = some a →
              ∃ (v : State) (nd : KNode), ends (v.reclaimTest.kRecord k (nd.handle s.mid) 0 1 0 0) ∧ v.crucible.nodes = u.crucible.nodes ++ [nd] ∧
                nd.st = .opened ∧ nd.ns = p.ns ∧ nd.name = name ∧ nd.parent = 0 ∧ nd.owner = w.serial ∧ nd.asid = w.asid ∧
                nd.refs = [(w.serial, 1)] ∧ nd.gen ≠ 0 ∧ nd.expiry = 0 ∧ nd.written = [] ∧ nd.hdr = a))) ∧
        (∀ nd p, s.current (k.ops.getD 1 0) = some nd → s.space nd.ns = some p → s.isRemote (k.ops.getD 1 0) = false →
          let A := k.ops.getD 2 0
          (∀ h o b, k.ins = .kwr h o → fld A 22 42 = 0 → nd.st = .opened → nd.frozen = false → nd.ownedBy s.mid s.caller = true →
            p.right s.asid 1 = true →
            let l := fld A 0 9
            let v := (A.getLsbD 9).toNat
            let m := fld A 10 6 + 1
            let r := fld A 16 6
            s.okBanks dst (m * p.rb) = true → l < p.nlayer → r + m ≤ p.bt → nd.blocks.find? (fun (b : Block) => b.layer == l) = some b →
            ∃ rows, exec (.crucibleCommandComplete n k.seq) s = .next ((((s.setNode { nd with written := nd.written ++ rows }).blockPut b
                (v * (p.bt * p.rb) + r * p.rb) (s.bankRead 0 dst (m * p.rb)))).finish k 0) ∧
              ∀ a c, (a, c) ∈ nd.written ++ rows ↔ (a, c) ∈ nd.written ∨ (a = 2 * l + v ∧ r ≤ c ∧ c < r + m)) ∧
          (∀ h o, k.ins = .kld h o → k.spec = false →
            let e := s.kldError k (some (s.info s.caller nd))
            (k.stage = 0 → e = 0 → ∃ t, exec (.crucibleCommandComplete n k.seq) s = .next t ∧
              t.cmd k.seq = some { k with stage := 1, pins := [nd.slot] } ∧ t.node nd.slot = some { nd with pins := nd.pins ++ [s.pinId k] } ∧
              t.core.regs = s.core.regs ∧ t.memory = s.memory) ∧
            (k.stage = 0 → e ≠ 0 → ∃ t, exec (.crucibleCommandComplete n k.seq) s = .next t ∧ Ended s t k e ∧
              t.core.regs = s.core.regs ∧ t.memory = s.memory ∧ t.crucible = s.crucible) ∧
            (∀ u : State, u = s.kldTouch (some (s.pinId k)) nd p A → s.node nd.slot = some nd → k.stage = 1 → k.pins = [nd.slot] → k.ring = none →
              (∀ q ∈ s.kldLens nd p A, u.okBanks (dst + q.1) q.2 = true) →
              let r := s.kldPieces (some (s.pinId k)) nd p A (o.flags.getLsbD 0)
              ∃ t, exec (.crucibleCommandComplete n k.seq) s = .next t ∧ Ended s t k (if r.2 then 3 else 0) ∧ t.memory.mem = s.memory.mem ∧
                t.core.regs = (r.1.foldl (fun (u : State) q => u.kPut (dst + q.1) q.2) u).core.regs))) ∧
        (s.current (k.ops.getD 1 0) = none → s.isRemote (k.ops.getD 1 0) = false → k.stage = 0 → dst % 16 = 0 → s.okBanks dst 16 = true →
          ∀ h o, (k.ins = .klease h o ∧ fld (k.ops.getD 2 0) 32 32 = 0) ∨ k.ins = .kref h o ∨ k.ins = .kunref h o ∨ k.ins = .kseal h o ∨
              k.ins = .kdrop h o ∨ k.ins = .krepl h o →
            ∃ t, exec (.crucibleCommandComplete n k.seq) s = .next t ∧ Ended s t k 0 ∧ t.core.regs = put dst (leBytes 8 0 ++ leBytes 8 7) ∧
              t.memory = s.memory ∧ t.crucible = s.crucible) ∧
        (∀ nd p, s.current (k.ops.getD 1 0) = some nd → s.space nd.ns = some p → dst % 16 = 0 → s.okBanks dst 16 = true →
          s.isRemote (k.ops.getD 1 0) = false → k.stage = 0 →
          let record (status hi : Nat) : Regs := put dst (leBytes 8 (k.ops.getD 1 0).toNat ++
            leBytes 8 (status + nd.depth % 65536 * 2 ^ 8 + hi % 2 ^ 32 * 2 ^ 32))
          (∀ h o, k.ins = .kref h o → p.right s.asid 0 = true → nd.refCount < 65535 → s.mayRef s.serialOf = true →
            ∃ t, exec (.crucibleCommandComplete n k.seq) s = .next t ∧ Ended s t k 0 ∧ t.core.regs = record 0 0 ∧ t.memory = s.memory ∧
              (t.node nd.slot).map (fun m => m.refsOf s.mid s.caller) = some (nd.refsOf s.mid s.caller + 1)) ∧
          (∀ h o, k.ins = .kunref h o → nd.refsOf s.mid s.caller = 0 →
            ∃ t, exec (.crucibleCommandComplete n k.seq) s = .next t ∧ Ended s t k 0 ∧ t.core.regs = record 8 0 ∧ t.crucible = s.crucible) ∧
          (∀ h o, k.ins = .kunref h o → nd.refsOf s.mid s.caller ≠ 0 → ∃ u : State,
            exec (.crucibleCommandComplete n k.seq) s = .next (u.reclaimTest.kRecord k (k.ops.getD 1 0) 0 nd.depth 0 0) ∧ u.memory = s.memory ∧
              (u.node nd.slot).map (fun m => m.refsOf s.mid s.caller) = some (nd.refsOf s.mid s.caller - 1)) ∧
          (∀ h o, k.ins = .kseal h o → p.right s.asid 1 = true →
            (nd.st = .opened → nd.ownedBy s.mid s.caller = true →
              ((s.parent nd).map KNode.st = some .opened →
                ∃ t, exec (.crucibleCommandComplete n k.seq) s = .next t ∧ Ended s t k 0 ∧ t.core.regs = record 5 0 ∧ t.crucible = s.crucible) ∧
              ((s.parent nd).map KNode.st ≠ some .opened → nd.complete p = false →
                ∃ t, exec (.crucibleCommandComplete n k.seq) s = .next t ∧ Ended s t k 0 ∧ t.core.regs = record 4 0 ∧ t.crucible = s.crucible) ∧
              ((s.parent nd).map KNode.st = some .sealing → nd.complete p = true → nd.frozen = false →
                ∃ t, exec (.crucibleCommandComplete n k.seq) s = .next t ∧ t.node nd.slot = some { nd with frozen := true } ∧ t.core = s.core) ∧
              ((s.parent nd).map KNode.st ≠ some .opened → (s.parent nd).map KNode.st ≠ some .sealing → nd.complete p = true →
                ∃ t, exec (.crucibleCommandComplete n k.seq) s = .next t ∧ t.node nd.slot = some { nd with st := .sealing } ∧
                  t.cmd k.seq = some { k with stage := 4, last := BitVec.ofNat 64 nd.depth, limit := some nd.slot } ∧
                  t.core.regs = s.core.regs ∧ t.memory = s.memory)) ∧
            (nd.st = .opened → nd.ownedBy s.mid s.caller = false →
              ∃ t, exec (.crucibleCommandComplete n k.seq) s = .next t ∧ Ended s t k 0 ∧ t.core.regs = put dst (leBytes 8 0 ++ leBytes 8 10)) ∧
            (nd.st.readable = true →
              ∃ t, exec (.crucibleCommandComplete n k.seq) s = .next t ∧ Ended s t k 0 ∧ t.core.regs = record 0 0 ∧ t.crucible = s.crucible)) ∧
          (∀ h o, k.ins = .kdrop h o →
            (nd.ownedBy s.mid s.caller = true → 1 ≤ nd.depth → ∃ u : State,
              exec (.crucibleCommandComplete n k.seq) s = .next (u.reclaimTest.kRecord k (k.ops.getD 1 0) 0 nd.depth 0 0) ∧ u.memory = s.memory ∧
                nd ∉ u.crucible.nodes ∧ ∀ m ∈ s.crucible.nodes, m.st ≠ .opened → m ∈ u.crucible.nodes) ∧
            (nd.st.readable = true → p.right s.asid 3 = true → ∃ u : State,
              exec (.crucibleCommandComplete n k.seq) s = .next (u.reclaimTest.kRecord k (k.ops.getD 1 0) 0 nd.depth 0 0) ∧ u.memory = s.memory ∧
                u.node nd.slot = some { nd with expiry := 0 })) ∧
          (∀ h o m, k.ins = .krepl h o → p.right s.asid 0 = true → s.holds s.caller nd = true → nd.st.readable = true →
            s.readableName nd.ns nd.name = some m →
            ∃ t, exec (.crucibleCommandComplete n k.seq) s = .next t ∧ Ended s t k 0 ∧ t.memory = s.memory ∧ t.crucible = s.crucible ∧
              t.core.regs = put dst (leBytes 8 (m.handle s.mid).toNat ++ leBytes 8 (m.depth % 65536 * 2 ^ 8))) ∧
          (∀ h o, k.ins = .klease h o → p.right s.asid 2 = true → fld (k.ops.getD 2 0) 32 32 = 0 →
            let d := fld (k.ops.getD 2 0) 0 32
            let e := if d = 0 then nd.expiry else BitVec.ofNat 64 (max nd.expiry.toNat (s.regs.m.tbase.toNat + d))
            ∃ t, exec (.crucibleCommandComplete n k.seq) s = .next t ∧ Ended s t k 0 ∧ t.core.regs = record 0 e.toNat ∧ t.memory = s.memory ∧
              (t.node nd.slot).map (fun m => m.expiry) = some e))))

/-- R346, R348, R349 and R351 to R354 with Table 16.8: CCTL, XLRESP, TOKCLR and the context area. `refill` brings the overlays of the task back
(02 R55). The model's choices: STATE stands until the boundary at which a FORCE acts, and what the area has no place for is restored as it was
kept beside it (log 21). -/
def Obligations.ContextEvents : Prop :=
  ∀ s : State,
    let n := s.core.cnum
    let still (t : State) : Prop := s.core.sameRegs t.core ∧ t.core.front = s.core.front ∧ t.memory = s.memory
    (s.core.cstate ∈ [0, 1, 2, 5] → ∃ t, exec (.cctlPhase n) s = .next t ∧ t.core.pend = true ∧ t.core.cstate = s.core.cstate ∧ still t) ∧
    (s.core.cstate ∈ [3, 4, 6, 7] → exec (.cctlPhase n) s = .next s) ∧
    (s.core.cstate ∈ [0, 1, 2, 3, 5] → ∃ t, exec (.cctlCancel n) s = .next t ∧ t.core.pend = false ∧ t.core.cstate = s.core.cstate ∧ still t) ∧
    (s.core.cstate ∈ [4, 6, 7] → exec (.cctlCancel n) s = .next s ∧ exec (.cctlResume n) s = .next s ∧ exec (.cctlEnd n) s = .next s) ∧
    (s.core.task = none ∨ s.core.cstate ∉ [1, 2, 3] → exec (.cctlForce n) s = .next s) ∧
    (s.core.task ≠ none → s.core.cstate ∈ [1, 2, 3] →
      ∀ u : State, u = { s with core := { s.core with drv := { s.core.drv with force := true } } } →
        (u.forceDue = false → ∃ t, exec (.cctlForce n) s = .next t ∧ t.core.drv.force = true ∧ t.core.cstate = s.core.cstate ∧ still t) ∧
        (u.forceDue = true → ∃ t, exec (.cctlForce n) s = .next t ∧ t.core.cstate = 4 ∧ fld t.core.drv.cctl 4 4 = 2 ∧
          t.core.drv.force = false ∧ t.core.regs = s.core.regs ∧ t.memory = s.memory)) ∧
    (∀ k, s.core.task = some k → s.core.cstate = 3 → ∃ t, exec (.cctlResume n) s = .next t ∧
      t.core.cstate = (if k.started then 1 else 0) ∧ t.core.front.stat = .ready ∧ t.core.regs = s.core.regs ∧ t.memory = s.memory) ∧
    (s.core.cstate ∈ [0, 1, 2, 5] → s.core.drv.saved ≠ none → ∃ t, exec (.cctlResume n) s = .next t ∧ t.core.drv.cctl.getLsbD 58 = true ∧
      t.core.drv.saved = s.core.drv.saved ∧ t.core.cstate = s.core.cstate ∧ still t) ∧
    (s.core.task ≠ none → s.core.cstate = 3 → ∃ t, exec (.cctlEnd n) s = .next t ∧ t.core.front.departed = true ∧ t.core.front.ended = true ∧
      t.core.lockm = 0 ∧ t.core.cstate = 1 ∧ t.memory = s.memory) ∧
    (∀ mask, s.core.cstate = 3 → ∃ t, exec (.tokclr n mask) s = .next t ∧
      (∀ k : KTok, (t.core.token k).cnt = (s.core.token k).cnt ∧
        (mask.getLsbD k.toNat = true → (t.core.token k).err = 0 ∧ (t.core.token k).defErr = 0) ∧
        (mask.getLsbD k.toNat = false → t.core.token k = s.core.token k)) ∧ t.core.regs = s.core.regs ∧ t.memory = s.memory) ∧
    (∀ mask, s.core.cstate ≠ 3 → exec (.tokclr n mask) s = .next s) ∧
    (∀ unit, s.parkedOn unit = none → exec (.xlrespRetry n unit) s = .next s ∧ exec (.xlrespRefuse n unit) s = .next s) ∧
    (∀ unit k, s.parkedOn unit = some k → s.cmd k.seq = some k →
      (∃ t, exec (.xlrespRetry n unit) s = .next t ∧ t.cmd k.seq = some { k with parked := none } ∧ t.core.regs = s.core.regs ∧
        t.core.units.tokens = s.core.units.tokens ∧ t.memory = s.memory) ∧
      (∃ t, exec (.xlrespRefuse n unit) s = .next t ∧ Ended s t k 2 ∧ t.core.regs = s.core.regs ∧ t.memory = s.memory)) ∧
    (∀ k, s.core.task = some k → s.saveReady = true → (s.cbindOf s.core).getLsbD 63 = false →
      ∃ t u : State, exec (.contextSaveDone n) s = .next t ∧ t = u.ovlSettle.regate.hearthRun ∧
        u.core.cstate = 5 ∧ u.core.task = none ∧ u.core.drv.saved.map (fun v => v.task) = some k ∧ u.core.units.cmds = [] ∧
        u.core.front.ended = true ∧ u.core.regs = s.core.regs ∧
        u.regs.telem.forced = s.regs.telem.forced + (if fld s.core.drv.cctl 4 4 = 2 then 1 else 0)) ∧
    (s.core.cstate = 5 → s.core.drv.cctl.getLsbD 58 = true → s.core.task = none → s.core.drv.saved ≠ none →
      ∃ t, exec (.contextRestore n) s = .next t ∧ t.core.cstate = 6 ∧ t.core.drv.cctl.getLsbD 58 = false ∧ still t) ∧
    (∀ v u, s.core.cstate = 6 → s.core.drv.saved = some v → s.readWaits (.entry n) = false → s.areaFree = true →
      s.refill (s.areaTask v) = .ok u →
      u.core = s.core → u.stackv = s.stackv → u.regs = s.regs → u.memory.mem = s.memory.mem → u.memory.remaps = s.memory.remaps →
      (s.restoreArea v).contextOk = true →
      ∃ t, exec (.contextRestoreDone n) s = .next t ∧ t.core.cstate = 1 ∧
        t.core.task = some { s.areaTask v with started := true } ∧ t.core.drv.saved = none ∧
        t.core.regs = s.areaRegs ∧ t.core.ctl = s.areaCtl v ∧ t.core.units = s.areaUnits v ∧
        t.core.front.pc = BitVec.ofNat 56 (s.homeNum (s.core.areaBase + 8) 8))

/-- R134, R344, R347, R355, R358 and R360. The model's readings: the frames that FRAME_MIGRATE answers with RANGE (log 29), and a KILL that clears
EN of the queues of its ASID (log 30). -/
def Obligations.DriverEvents : Prop :=
  ∀ s : State,
    let n := s.core.cnum
    (∀ bank unit kind addr, bank < 65 →
      ∃ t, exec (.ueDetected n bank unit kind addr) s = .next t ∧ t.bank bank = (s.bank bank).ue (BitVec.ofNat 16 n) unit kind addr ∧
        t.core.regs = s.core.regs ∧ t.core.units = s.core.units ∧
        (s.core.hasTask = true → t.core.cstate = 7 ∧ t.core.front.stat = .stopped ∧ t.core.drv.finfo = addr ∧
          t.core.drv.fpc = s.core.front.pc.zeroExtend 64 ∧ fld t.core.drv.frec 56 4 = 3 ∧ fld t.core.drv.frec 0 8 = cUE) ∧
        (s.core.hasTask = false → t.core = s.core)) ∧
    (∀ bank synd unit kind addr, bank < 65 → ∃ t, exec (.ceDetected bank synd unit kind addr) s = .next t ∧
      ((s.bank bank).ece.getLsbD 63 = false → (t.bank bank).ece.getLsbD 63 = true ∧ (t.bank bank).ecea = addr ∧ fld (t.bank bank).ece 32 31 = 1 ∧
        fld (t.bank bank).ece 16 16 = synd.toNat) ∧
      ((s.bank bank).ece.getLsbD 63 = true → (t.bank bank).ecea = (s.bank bank).ecea ∧
        fld (t.bank bank).ece 32 31 = min (fld (s.bank bank).ece 32 31 + 1) 0x7FFFFFFF) ∧
      (t.bank bank).eue = (s.bank bank).eue ∧ t.core = s.core ∧ (s.memoryWf → s.sameMemory t)) ∧
    (∀ bank cev uev, bank < 65 → ∃ t, exec (.errorBankClear bank cev uev) s = .next t ∧
      t.bank bank = ⟨if cev then 0 else (s.bank bank).ece, if cev then 0 else (s.bank bank).ecea,
        if uev then 0 else (s.bank bank).eue, if uev then 0 else (s.bank bank).euea⟩ ∧ t.memory = s.memory ∧ t.core = s.core) ∧
    (∀ v, ∃ t, exec (.evheadWrite v) s = .next t ∧ t.regs.ev.evhead = v ∧ t.core = s.core ∧
      (s.regs.waiting = [] → t.memory = s.memory ∧ t.regs.ev.evtail = s.regs.ev.evtail)) ∧
    (∀ a, (s.regs.ev.kill.getLsbD 62 = true ∨ a = 0 → exec (.kill a) s = .next s) ∧
      (s.regs.ev.kill.getLsbD 62 = false → a ≠ 0 → ∃ t, exec (.kill a) s = .next t ∧ t.regs.ev.kill = BitVec.ofNat 64 (2 ^ 62 + a.toNat) ∧
        (∀ q, (s.queue q).asid = a → (t.queue q).on = false) ∧
        (∀ k, s.core.task = some k → k.asid = a → t.core.front.departed = true ∧ t.core.units.cmds = []))) ∧
    (s.regs.ev.kill.getLsbD 62 = true → (∀ c ∈ s.cores, ∀ k, c.task = some k → k.asid ≠ s.regs.ev.kill.extractLsb' 0 12) →
      (∀ l : Launch, l ∈ s.hearth.launches → l.asid ≠ s.regs.ev.kill.extractLsb' 0 12) → s.domain.killTags = [] →
      (∀ e ∈ s.hearth.writes, e.2 ≠ s.regs.ev.kill.extractLsb' 0 12) → (∀ e ∈ s.domain.killFlits, (s.link e.1).state ≠ 2) →
      ∃ t, exec .killDone s = .next t ∧ t.regs.ev.kill.getLsbD 62 = false ∧ t.core = s.core ∧
        (∀ l ∈ t.memory.host, l.asid = s.regs.ev.kill.extractLsb' 0 12 → l.owned = false) ∧
        (s.memoryWf → ∀ a, a < hostBase → a < s.eventSlot ∨ s.eventSlot + 32 ≤ a → t.memory.mem.get a = s.memory.mem.get a)) ∧
    (∀ old new, s.regs.ev.fretn.getLsbD 61 = true → exec (.frameMigrate old new) s = .next s) ∧
    (∀ old new, s.regs.ev.fretn.getLsbD 61 = false →
      let told (busy stat : Nat) (t : State) : Prop := exec (.frameMigrate old new) s = .next t ∧ t.regs.ev.fretn = fretnWord busy stat new.toNat ∧
        fld t.regs.ev.freto 16 36 = old.toNat ∧ t.memory.mem = s.memory.mem ∧ t.core = s.core
      (64 ≤ s.memory.remaps.length → ∃ t, told 0 1 t ∧ t.memory = s.memory) ∧
      (s.memory.remaps.length < 64 →
        s.memory.badFrames.contains new.toNat = true ∨ old = new ∨ (lookupN new.toNat s.memory.remaps).isSome = true ∨
          (s.tierFrame new.toNat = true ∧ (s.tierFrame old.toNat = false ∨ s.frameGranules new.toNat ≠ [])) →
        ∃ t, told 0 2 t ∧ t.memory = s.memory) ∧
      (s.memory.remaps.length < 64 → s.tierFrame new.toNat = false ∨ (s.tierFrame old.toNat = true ∧ s.frameGranules new.toNat = []) → lookupN new.toNat s.memory.remaps = none →
        s.memory.badFrames.contains new.toNat = false → old ≠ new →
        ∃ t, told 1 0 t ∧ t.memory.busyFrame = some (old.toNat, new.toNat))) ∧
    (∀ old new, s.memory.busyFrame = some (old, new) → s.memory.poison = [] → s.memory.heldReqs = [] → s.memoryWf → s.tierFrame old = false →
      lookupN old s.memory.remaps = none →
      ∃ u : State, exec .frameMigrateDone s = .next (u.post ⟨14, 0xFFFF, 0, BitVec.ofNat 64 (old * 65536), 0⟩) ∧
        lookupN old u.memory.remaps = some new ∧ u.memory.busyFrame = none ∧ u.regs.ev.fretn = fretnWord 0 0 new ∧ u.core = s.core ∧
        (∀ i, i < 65536 → u.memory.mem.get (new * 65536 + i) = s.memory.mem.get (old * 65536 + i)) ∧
        (∀ a, a < new * 65536 ∨ new * 65536 + 65536 ≤ a → u.memory.mem.get a = s.memory.mem.get a)) ∧
    (s.regs.ev.fretn.getLsbD 61 = false →
      (lookupN (fld s.regs.ev.freto 16 36) s.memory.remaps = none →
        ∃ t, exec .frameReleaseRemap s = .next t ∧ t.regs.ev.fretn = fretnWord 0 4 (fld s.regs.ev.fretn 16 36) ∧ t.memory = s.memory) ∧
      (∀ m, lookupN (fld s.regs.ev.freto 16 36) s.memory.remaps = some m → s.memory.badFrames.length < 510 →
        ∃ t, exec .frameReleaseRemap s = .next t ∧ lookupN (fld s.regs.ev.freto 16 36) t.memory.remaps = none ∧
          t.memory.badFrames = s.memory.badFrames ++ [fld s.regs.ev.freto 16 36] ∧ t.memory.mem = s.memory.mem)) ∧
    (∀ stk, stk < 8 → (s.stack stk).removed = false → (∀ c ∈ s.cores, c.stk ≠ stk) →
      ∃ t u : State, exec (.stackRemoval stk) s = .next t ∧ t = u.hearthRun ∧ (u.stack stk).removed = true ∧
        (u.stack stk).inc = (s.stack stk).inc + 1 ∧ (∀ l : CLine, l ∈ u.memory.lines → l.agent / 11 ≠ stk) ∧ u.core = s.core) ∧
    (∀ k, s.core.task = some k → s.core.stk < 8 → (s.stack s.core.stk).removed = false → (∀ c ∈ s.others, c.stk ≠ s.core.stk) →
      s.core.drv.saved = none →
      ∃ t u : State, exec (.stackRemoval s.core.stk) s = .next t ∧ t = u.hearthRun ∧ u.core.front.departed = true ∧ u.core.units.cmds = []) ∧
    (∀ m, m ≠ s.mid → m ≤ s.nmod → s.isRemoved m = false →
      ∃ t, exec (.moduleRemoval m) s = .next t ∧ lookupN m t.domain.removed = some (s.incOf m + 1) ∧ t.incOf m = s.incOf m + 1)
end

