-- ==== Sys2Proof/Laws/Decode.lean ====
section
/-! SUPPORT. Reading back what the encoder writes, operand form by operand form. -/
namespace Sys2Proof

theorem exHi {v w s n : Nat} {x : BitVec v} {y : BitVec w} (h : w ≤ s) : (x ++ y).extractLsb' s n = x.extractLsb' (s - w) n :=
  BitVec.extractLsb'_append_eq_of_le h

theorem exLo {v w s n : Nat} {x : BitVec v} {y : BitVec w} (h : s + n ≤ w) : (x ++ y).extractLsb' s n = y.extractLsb' s n :=
  BitVec.extractLsb'_append_eq_of_add_le h

@[simp] theorem ElemType.ofCode_code (t : ElemType) : ElemType.ofCode t.code = some t := by cases t <;> rfl
@[simp] theorem Cond.ofCode_code (c : Cond) : Cond.ofCode c.code = some c := by cases c <;> rfl
@[simp] theorem Scope.ofCode_code (s : Scope) : Scope.ofCode s.code = some s := by cases s <;> rfl
@[simp] theorem Order.ofCode_code (o : Order) : Order.ofCode o.code = some o := by cases o <;> rfl

@[simp] theorem SR.bits_d (o : SR) : o.bits.extractLsb' 30 6 = o.d := by
  unfold SR.bits
  rw [exHi, exHi, exHi, exHi] <;> first | decide | simp
@[simp] theorem SR.bits_a (o : SR) : o.bits.extractLsb' 24 6 = o.a := by
  unfold SR.bits
  rw [exHi, exHi, exHi, exLo] <;> first | decide | simp
@[simp] theorem SR.bits_b (o : SR) : o.bits.extractLsb' 18 6 = o.b := by
  unfold SR.bits
  rw [exHi, exHi, exLo] <;> first | decide | simp
@[simp] theorem SR.bits_c (o : SR) : o.bits.extractLsb' 12 6 = o.c := by
  unfold SR.bits
  rw [exHi, exLo] <;> first | decide | simp
@[simp] theorem SR.bits_rsv (o : SR) : o.bits.extractLsb' 0 12 = 0 := by
  unfold SR.bits
  rw [exLo] <;> first | decide | simp

@[simp] theorem SP.bits_d (o : SP) : o.bits.extractLsb' 30 6 = o.d := by
  unfold SP.bits
  rw [exHi, exHi, exHi] <;> first | decide | simp
@[simp] theorem SP.bits_a (o : SP) : o.bits.extractLsb' 24 6 = o.a := by
  unfold SP.bits
  rw [exHi, exHi, exLo] <;> first | decide | simp
@[simp] theorem SP.bits_sz (o : SP) : o.bits.extractLsb' 21 3 = o.sz := by
  unfold SP.bits
  rw [exHi, exLo] <;> first | decide | simp
@[simp] theorem SP.bits_off (o : SP) : o.bits.extractLsb' 0 21 = o.off := by
  unfold SP.bits
  rw [exLo] <;> first | decide | simp

@[simp] theorem SM.bits_fa (o : SM) : o.bits.extractLsb' 32 4 = o.fa := by
  unfold SM.bits
  rw [exHi, exHi, exHi, exHi, exHi] <;> first | decide | simp
@[simp] theorem SM.bits_fb (o : SM) : o.bits.extractLsb' 28 4 = o.fb := by
  unfold SM.bits
  rw [exHi, exHi, exHi, exHi, exLo] <;> first | decide | simp
@[simp] theorem SM.bits_fc (o : SM) : o.bits.extractLsb' 24 4 = o.fc := by
  unfold SM.bits
  rw [exHi, exHi, exHi, exLo] <;> first | decide | simp
@[simp] theorem SM.bits_fd (o : SM) : o.bits.extractLsb' 20 4 = o.fd := by
  unfold SM.bits
  rw [exHi, exHi, exLo] <;> first | decide | simp
@[simp] theorem SM.bits_n (o : SM) : o.bits.extractLsb' 16 4 = o.n := by
  unfold SM.bits
  rw [exHi, exLo] <;> first | decide | simp
@[simp] theorem SM.bits_rsv (o : SM) : o.bits.extractLsb' 0 16 = 0 := by
  unfold SM.bits
  rw [exLo] <;> first | decide | simp

@[simp] theorem SJ.bits_off (o : SJ) : o.bits.extractLsb' 6 30 = o.off := by
  unfold SJ.bits
  rw [exHi] <;> first | decide | simp
@[simp] theorem SJ.bits_byte (o : SJ) : o.bits.extractLsb' 0 6 = o.byte := by
  unfold SJ.bits
  rw [exLo] <;> first | decide | simp

@[simp] theorem VR.bits_d (o : VR) : o.bits.extractLsb' 26 10 = o.d := by
  unfold VR.bits
  rw [exHi, exHi, exHi, exHi, exHi] <;> first | decide | simp
@[simp] theorem VR.bits_a (o : VR) : o.bits.extractLsb' 16 10 = o.a := by
  unfold VR.bits
  rw [exHi, exHi, exHi, exHi, exLo] <;> first | decide | simp
@[simp] theorem VR.bits_b (o : VR) : o.bits.extractLsb' 6 10 = o.b := by
  unfold VR.bits
  rw [exHi, exHi, exHi, exLo] <;> first | decide | simp
@[simp] theorem VR.bits_ty_code (o : VR) : o.bits.extractLsb' 2 4 = o.ty.code := by
  unfold VR.bits
  rw [exHi, exHi, exLo] <;> first | decide | simp
@[simp] theorem VR.bits_i (o : VR) : bit o.bits 1 = o.i := by
  unfold VR.bits bit
  rw [BitVec.getLsbD_append, BitVec.getLsbD_append]
  simp
@[simp] theorem VR.bits_md (o : VR) : bit o.bits 0 = o.md := by
  unfold VR.bits bit
  rw [BitVec.getLsbD_append]
  simp

@[simp] theorem VC.bits_pt (o : VC) : o.bits.extractLsb' 32 4 = o.pt := by
  unfold VC.bits
  rw [exHi, exHi, exHi, exHi, exHi, exHi] <;> first | decide | simp
@[simp] theorem VC.bits_pf (o : VC) : o.bits.extractLsb' 28 4 = o.pf := by
  unfold VC.bits
  rw [exHi, exHi, exHi, exHi, exHi, exLo] <;> first | decide | simp
@[simp] theorem VC.bits_a (o : VC) : o.bits.extractLsb' 18 10 = o.a := by
  unfold VC.bits
  rw [exHi, exHi, exHi, exHi, exLo] <;> first | decide | simp
@[simp] theorem VC.bits_b (o : VC) : o.bits.extractLsb' 8 10 = o.b := by
  unfold VC.bits
  rw [exHi, exHi, exHi, exLo] <;> first | decide | simp
@[simp] theorem VC.bits_cc_code (o : VC) : o.bits.extractLsb' 5 3 = o.cc.code := by
  unfold VC.bits
  rw [exHi, exHi, exLo] <;> first | decide | simp
@[simp] theorem VC.bits_ty_code (o : VC) : o.bits.extractLsb' 1 4 = o.ty.code := by
  unfold VC.bits
  rw [exHi, exLo] <;> first | decide | simp
@[simp] theorem VC.bits_i (o : VC) : bit o.bits 0 = o.i := by
  unfold VC.bits bit
  rw [BitVec.getLsbD_append]
  simp

@[simp] theorem VM.bits_v (o : VM) : o.bits.extractLsb' 26 10 = o.v := by
  unfold VM.bits
  rw [exHi, exHi, exHi, exHi, exHi, exHi] <;> first | decide | simp
@[simp] theorem VM.bits_base (o : VM) : o.bits.extractLsb' 20 6 = o.base := by
  unfold VM.bits
  rw [exHi, exHi, exHi, exHi, exHi, exLo] <;> first | decide | simp
@[simp] theorem VM.bits_idx (o : VM) : o.bits.extractLsb' 10 10 = o.idx := by
  unfold VM.bits
  rw [exHi, exHi, exHi, exHi, exLo] <;> first | decide | simp
@[simp] theorem VM.bits_iw (o : VM) : o.bits.extractLsb' 8 2 = o.iw := by
  unfold VM.bits
  rw [exHi, exHi, exHi, exLo] <;> first | decide | simp
@[simp] theorem VM.bits_sx (o : VM) : bit o.bits 7 = o.sx := by
  unfold VM.bits bit
  rw [BitVec.getLsbD_append, BitVec.getLsbD_append, BitVec.getLsbD_append]
  simp
@[simp] theorem VM.bits_scale (o : VM) : o.bits.extractLsb' 4 3 = o.scale := by
  unfold VM.bits
  rw [exHi, exLo] <;> first | decide | simp
@[simp] theorem VM.bits_ty_code (o : VM) : o.bits.extractLsb' 0 4 = o.ty.code := by
  unfold VM.bits
  rw [exLo] <;> first | decide | simp

@[simp] theorem MA.bits_ra (o : MA) : bit o.bits 35 = o.ra := by
  unfold MA.bits bit
  rw [BitVec.getLsbD_append, BitVec.getLsbD_append, BitVec.getLsbD_append, BitVec.getLsbD_append, BitVec.getLsbD_append, BitVec.getLsbD_append, BitVec.getLsbD_append, BitVec.getLsbD_append]
  simp
@[simp] theorem MA.bits_a (o : MA) : o.bits.extractLsb' 29 6 = o.a := by
  unfold MA.bits
  rw [exHi, exHi, exHi, exHi, exHi, exHi, exHi, exLo] <;> first | decide | simp
@[simp] theorem MA.bits_rb (o : MA) : bit o.bits 28 = o.rb := by
  unfold MA.bits bit
  rw [BitVec.getLsbD_append, BitVec.getLsbD_append, BitVec.getLsbD_append, BitVec.getLsbD_append, BitVec.getLsbD_append, BitVec.getLsbD_append, BitVec.getLsbD_append]
  simp
@[simp] theorem MA.bits_b (o : MA) : o.bits.extractLsb' 22 6 = o.b := by
  unfold MA.bits
  rw [exHi, exHi, exHi, exHi, exHi, exLo] <;> first | decide | simp
@[simp] theorem MA.bits_q (o : MA) : o.bits.extractLsb' 18 4 = o.q := by
  unfold MA.bits
  rw [exHi, exHi, exHi, exHi, exLo] <;> first | decide | simp
@[simp] theorem MA.bits_wait (o : MA) : o.bits.extractLsb' 12 6 = o.wait := by
  unfold MA.bits
  rw [exHi, exHi, exHi, exLo] <;> first | decide | simp
@[simp] theorem MA.bits_pop (o : MA) : bit o.bits 11 = o.pop := by
  unfold MA.bits bit
  rw [BitVec.getLsbD_append, BitVec.getLsbD_append, BitVec.getLsbD_append]
  simp
@[simp] theorem MA.bits_sp (o : MA) : o.bits.extractLsb' 8 3 = o.sp := by
  unfold MA.bits
  rw [exHi, exLo] <;> first | decide | simp
@[simp] theorem MA.bits_rsv (o : MA) : o.bits.extractLsb' 0 8 = 0 := by
  unfold MA.bits
  rw [exLo] <;> first | decide | simp

@[simp] theorem MT.bits_m (o : MT) : o.bits.extractLsb' 30 6 = o.m := by
  unfold MT.bits
  rw [exHi, exHi, exHi, exHi, exHi, exHi, exHi, exHi, exHi, exHi] <;> first | decide | simp
@[simp] theorem MT.bits_base (o : MT) : o.bits.extractLsb' 24 6 = o.base := by
  unfold MT.bits
  rw [exHi, exHi, exHi, exHi, exHi, exHi, exHi, exHi, exHi, exLo] <;> first | decide | simp
@[simp] theorem MT.bits_stride (o : MT) : o.bits.extractLsb' 18 6 = o.stride := by
  unfold MT.bits
  rw [exHi, exHi, exHi, exHi, exHi, exHi, exHi, exHi, exLo] <;> first | decide | simp
@[simp] theorem MT.bits_t (o : MT) : bit o.bits 17 = o.t := by
  unfold MT.bits bit
  rw [BitVec.getLsbD_append, BitVec.getLsbD_append, BitVec.getLsbD_append, BitVec.getLsbD_append, BitVec.getLsbD_append, BitVec.getLsbD_append, BitVec.getLsbD_append, BitVec.getLsbD_append]
  simp
@[simp] theorem MT.bits_ty_code (o : MT) : o.bits.extractLsb' 13 4 = o.ty.code := by
  unfold MT.bits
  rw [exHi, exHi, exHi, exHi, exHi, exHi, exLo] <;> first | decide | simp
@[simp] theorem MT.bits_r (o : MT) : bit o.bits 12 = o.r := by
  unfold MT.bits bit
  rw [BitVec.getLsbD_append, BitVec.getLsbD_append, BitVec.getLsbD_append, BitVec.getLsbD_append, BitVec.getLsbD_append, BitVec.getLsbD_append]
  simp
@[simp] theorem MT.bits_ring (o : MT) : o.bits.extractLsb' 9 3 = o.ring := by
  unfold MT.bits
  rw [exHi, exHi, exHi, exHi, exLo] <;> first | decide | simp
@[simp] theorem MT.bits_wait (o : MT) : o.bits.extractLsb' 3 6 = o.wait := by
  unfold MT.bits
  rw [exHi, exHi, exHi, exLo] <;> first | decide | simp
@[simp] theorem MT.bits_pop (o : MT) : bit o.bits 2 = o.pop := by
  unfold MT.bits bit
  rw [BitVec.getLsbD_append, BitVec.getLsbD_append, BitVec.getLsbD_append]
  simp
@[simp] theorem MT.bits_rep (o : MT) : bit o.bits 1 = o.rep := by
  unfold MT.bits bit
  rw [BitVec.getLsbD_append, BitVec.getLsbD_append]
  simp
@[simp] theorem MT.bits_rsv (o : MT) : bit o.bits 0 = false := by
  unfold MT.bits bit
  rw [BitVec.getLsbD_append]
  simp

@[simp] theorem ML.bits_d (o : ML) : o.bits.extractLsb' 30 6 = o.d := by
  unfold ML.bits
  rw [exHi, exHi, exHi, exHi, exHi] <;> first | decide | simp
@[simp] theorem ML.bits_a (o : ML) : o.bits.extractLsb' 24 6 = o.a := by
  unfold ML.bits
  rw [exHi, exHi, exHi, exHi, exLo] <;> first | decide | simp
@[simp] theorem ML.bits_b (o : ML) : o.bits.extractLsb' 18 6 = o.b := by
  unfold ML.bits
  rw [exHi, exHi, exHi, exLo] <;> first | decide | simp
@[simp] theorem ML.bits_q (o : ML) : o.bits.extractLsb' 14 4 = o.q := by
  unfold ML.bits
  rw [exHi, exHi, exLo] <;> first | decide | simp
@[simp] theorem ML.bits_md (o : ML) : o.bits.extractLsb' 10 4 = o.md := by
  unfold ML.bits
  rw [exHi, exLo] <;> first | decide | simp
@[simp] theorem ML.bits_rsv (o : ML) : o.bits.extractLsb' 0 10 = 0 := by
  unfold ML.bits
  rw [exLo] <;> first | decide | simp

@[simp] theorem CB.bits_dst (o : CB) : o.bits.extractLsb' 30 6 = o.dst := by
  unfold CB.bits
  rw [exHi, exHi, exHi, exHi, exHi, exHi, exHi, exHi] <;> first | decide | simp
@[simp] theorem CB.bits_src (o : CB) : o.bits.extractLsb' 24 6 = o.src := by
  unfold CB.bits
  rw [exHi, exHi, exHi, exHi, exHi, exHi, exHi, exLo] <;> first | decide | simp
@[simp] theorem CB.bits_shape (o : CB) : o.bits.extractLsb' 18 6 = o.shape := by
  unfold CB.bits
  rw [exHi, exHi, exHi, exHi, exHi, exHi, exLo] <;> first | decide | simp
@[simp] theorem CB.bits_token (o : CB) : o.bits.extractLsb' 15 3 = o.token := by
  unfold CB.bits
  rw [exHi, exHi, exHi, exHi, exHi, exLo] <;> first | decide | simp
@[simp] theorem CB.bits_order (o : CB) : o.bits.extractLsb' 13 2 = o.order := by
  unfold CB.bits
  rw [exHi, exHi, exHi, exHi, exLo] <;> first | decide | simp
@[simp] theorem CB.bits_scope_code (o : CB) : o.bits.extractLsb' 10 3 = o.scope.code := by
  unfold CB.bits
  rw [exHi, exHi, exHi, exLo] <;> first | decide | simp
@[simp] theorem CB.bits_ringed (o : CB) : bit o.bits 9 = o.ringed := by
  unfold CB.bits bit
  rw [BitVec.getLsbD_append, BitVec.getLsbD_append, BitVec.getLsbD_append]
  simp
@[simp] theorem CB.bits_ring (o : CB) : o.bits.extractLsb' 6 3 = o.ring := by
  unfold CB.bits
  rw [exHi, exLo] <;> first | decide | simp
@[simp] theorem CB.bits_flags (o : CB) : o.bits.extractLsb' 0 6 = o.flags := by
  unfold CB.bits
  rw [exLo] <;> first | decide | simp

@[simp] theorem CA.bits_d (o : CA) : o.bits.extractLsb' 30 6 = o.d := by
  unfold CA.bits
  rw [exHi, exHi, exHi, exHi, exHi, exHi, exHi, exHi] <;> first | decide | simp
@[simp] theorem CA.bits_addr (o : CA) : o.bits.extractLsb' 24 6 = o.addr := by
  unfold CA.bits
  rw [exHi, exHi, exHi, exHi, exHi, exHi, exHi, exLo] <;> first | decide | simp
@[simp] theorem CA.bits_val (o : CA) : o.bits.extractLsb' 18 6 = o.val := by
  unfold CA.bits
  rw [exHi, exHi, exHi, exHi, exHi, exHi, exLo] <;> first | decide | simp
@[simp] theorem CA.bits_x (o : CA) : o.bits.extractLsb' 12 6 = o.x := by
  unfold CA.bits
  rw [exHi, exHi, exHi, exHi, exHi, exLo] <;> first | decide | simp
@[simp] theorem CA.bits_size (o : CA) : o.bits.extractLsb' 10 2 = o.size := by
  unfold CA.bits
  rw [exHi, exHi, exHi, exHi, exLo] <;> first | decide | simp
@[simp] theorem CA.bits_so_code (o : CA) : o.bits.extractLsb' 7 3 = o.so.code := by
  unfold CA.bits
  rw [exHi, exHi, exHi, exLo] <;> first | decide | simp
@[simp] theorem CA.bits_scope_code (o : CA) : o.bits.extractLsb' 4 3 = o.scope.code := by
  unfold CA.bits
  rw [exHi, exHi, exLo] <;> first | decide | simp
@[simp] theorem CA.bits_token (o : CA) : o.bits.extractLsb' 1 3 = o.token := by
  unfold CA.bits
  rw [exHi, exLo] <;> first | decide | simp
@[simp] theorem CA.bits_fo (o : CA) : bit o.bits 0 = o.fo := by
  unfold CA.bits bit
  rw [BitVec.getLsbD_append]
  simp

@[simp] theorem CV.bits_v (o : CV) : o.bits.extractLsb' 26 10 = o.v := by
  unfold CV.bits
  rw [exHi, exHi, exHi, exHi, exHi, exHi] <;> first | decide | simp
@[simp] theorem CV.bits_addr (o : CV) : o.bits.extractLsb' 20 6 = o.addr := by
  unfold CV.bits
  rw [exHi, exHi, exHi, exHi, exHi, exLo] <;> first | decide | simp
@[simp] theorem CV.bits_ty_code (o : CV) : o.bits.extractLsb' 16 4 = o.ty.code := by
  unfold CV.bits
  rw [exHi, exHi, exHi, exHi, exLo] <;> first | decide | simp
@[simp] theorem CV.bits_order_code (o : CV) : o.bits.extractLsb' 13 3 = o.order.code := by
  unfold CV.bits
  rw [exHi, exHi, exHi, exLo] <;> first | decide | simp
@[simp] theorem CV.bits_scope_code (o : CV) : o.bits.extractLsb' 10 3 = o.scope.code := by
  unfold CV.bits
  rw [exHi, exHi, exLo] <;> first | decide | simp
@[simp] theorem CV.bits_token (o : CV) : o.bits.extractLsb' 7 3 = o.token := by
  unfold CV.bits
  rw [exHi, exLo] <;> first | decide | simp
@[simp] theorem CV.bits_rsv (o : CV) : o.bits.extractLsb' 0 7 = 0 := by
  unfold CV.bits
  rw [exLo] <;> first | decide | simp

@[simp] theorem CK.bits_dst (o : CK) : o.bits.extractLsb' 30 6 = o.dst := by
  unfold CK.bits
  rw [exHi, exHi, exHi, exHi, exHi, exHi] <;> first | decide | simp
@[simp] theorem CK.bits_hnd (o : CK) : o.bits.extractLsb' 24 6 = o.hnd := by
  unfold CK.bits
  rw [exHi, exHi, exHi, exHi, exHi, exLo] <;> first | decide | simp
@[simp] theorem CK.bits_arg (o : CK) : o.bits.extractLsb' 18 6 = o.arg := by
  unfold CK.bits
  rw [exHi, exHi, exHi, exHi, exLo] <;> first | decide | simp
@[simp] theorem CK.bits_token (o : CK) : o.bits.extractLsb' 15 3 = o.token := by
  unfold CK.bits
  rw [exHi, exHi, exHi, exLo] <;> first | decide | simp
@[simp] theorem CK.bits_ringed (o : CK) : bit o.bits 14 = o.ringed := by
  unfold CK.bits bit
  rw [BitVec.getLsbD_append, BitVec.getLsbD_append, BitVec.getLsbD_append]
  simp
@[simp] theorem CK.bits_ring (o : CK) : o.bits.extractLsb' 11 3 = o.ring := by
  unfold CK.bits
  rw [exHi, exLo] <;> first | decide | simp
@[simp] theorem CK.bits_flags (o : CK) : o.bits.extractLsb' 0 11 = o.flags := by
  unfold CK.bits
  rw [exLo] <;> first | decide | simp

@[simp] theorem readSR_bits (o : SR) (k : SR → Instr) : readSR o.bits k = some (k o) := by
  simp [readSR]
@[simp] theorem readSP_bits (o : SP) (k : SP → Instr) : readSP o.bits k = some (k o) := by
  simp [readSP]
@[simp] theorem readSM_bits (o : SM) (k : SM → Instr) : readSM o.bits k = some (k o) := by
  simp [readSM]
@[simp] theorem readSJ_bits (o : SJ) (k : SJ → Instr) : readSJ o.bits k = some (k o) := by
  simp [readSJ]
@[simp] theorem readVR_bits (o : VR) (k : VR → Instr) : readVR o.bits k = some (k o) := by
  simp [readVR]
@[simp] theorem readVC_bits (o : VC) (k : VC → Instr) : readVC o.bits k = some (k o) := by
  simp [readVC]
@[simp] theorem readVM_bits (o : VM) (k : VM → Instr) : readVM o.bits k = some (k o) := by
  simp [readVM]
@[simp] theorem readMA_bits (o : MA) (k : MA → Instr) : readMA o.bits k = some (k o) := by
  simp [readMA]
@[simp] theorem readMT_bits (o : MT) (k : MT → Instr) : readMT o.bits k = some (k o) := by
  simp [readMT]
@[simp] theorem readML_bits (o : ML) (k : ML → Instr) : readML o.bits k = some (k o) := by
  simp [readML]
@[simp] theorem readCB_bits (o : CB) (k : CB → Instr) : readCB o.bits k = some (k o) := by
  simp [readCB]
@[simp] theorem readCA_bits (o : CA) (k : CA → Instr) : readCA o.bits k = some (k o) := by
  simp [readCA]
@[simp] theorem readCV_bits (o : CV) (k : CV → Instr) : readCV o.bits k = some (k o) := by
  simp [readCV]
@[simp] theorem readCK_bits (o : CK) (k : CK → Instr) : readCK o.bits k = some (k o) := by
  simp [readCK]

/-- With L = 0 nothing of the literal is read; with L = 1 it is the immediate. -/
theorem readSI_bits (o : SI) (lit : Word) (k : SI → Instr) (h : o.imm.literal = none ∨ o.imm.literal = some lit) :
    readSI o.bits lit k = some (k o) := by
  obtain ⟨d, a, i⟩ := o
  cases i with
  | imm v =>
    have h1 : bit (SI.bits ⟨d, a, .imm v⟩) 23 = false := by
      unfold SI.bits bit; dsimp only; rw [BitVec.getLsbD_append, BitVec.getLsbD_append]; simp
    have h2 : (SI.bits ⟨d, a, .imm v⟩).extractLsb' 0 23 = v := by
      unfold SI.bits; dsimp only; rw [exLo] <;> first | decide | simp
    have h3 : (SI.bits ⟨d, a, .imm v⟩).extractLsb' 30 6 = d := by
      unfold SI.bits; dsimp only; rw [exHi, exHi, exHi] <;> first | decide | simp
    have h4 : (SI.bits ⟨d, a, .imm v⟩).extractLsb' 24 6 = a := by
      unfold SI.bits; dsimp only; rw [exHi, exHi, exLo] <;> first | decide | simp
    simp only [readSI, h1, h2, h3, h4]
    rfl
  | lit v =>
    have hv : v = lit := by simpa [Imm.literal] using h
    subst hv
    have h1 : bit (SI.bits ⟨d, a, .lit v⟩) 23 = true := by
      unfold SI.bits bit; dsimp only; rw [BitVec.getLsbD_append, BitVec.getLsbD_append]; simp
    have h2 : (SI.bits ⟨d, a, .lit v⟩).extractLsb' 0 23 = 0 := by
      unfold SI.bits; dsimp only; rw [exLo] <;> first | decide | simp
    have h3 : (SI.bits ⟨d, a, .lit v⟩).extractLsb' 30 6 = d := by
      unfold SI.bits; dsimp only; rw [exHi, exHi, exHi] <;> first | decide | simp
    have h4 : (SI.bits ⟨d, a, .lit v⟩).extractLsb' 24 6 = a := by
      unfold SI.bits; dsimp only; rw [exHi, exHi, exLo] <;> first | decide | simp
    simp only [readSI, h1, h2, h3, h4]
    rfl

@[simp] theorem readSC_bits (o : SC) (k : SC → Instr) : readSC o.bits k = some (k o) := by
  obtain ⟨ft, ff, cc, z, a, src⟩ := o
  cases src with
  | reg b =>
    have h1 : bit (SC.bits ⟨ft, ff, cc, z, a, .reg b⟩) 17 = false := by
      unfold SC.bits bit; dsimp only; rw [BitVec.getLsbD_append, BitVec.getLsbD_append, BitVec.getLsbD_append]; simp
    have h2 : (SC.bits ⟨ft, ff, cc, z, a, .reg b⟩).extractLsb' 0 11 = 0 := by
      unfold SC.bits; dsimp only; rw [exLo] <;> first | decide | simp
    have h3 : (SC.bits ⟨ft, ff, cc, z, a, .reg b⟩).extractLsb' 32 4 = ft := by
      unfold SC.bits; dsimp only; rw [exHi, exHi, exHi, exHi, exHi, exHi, exHi] <;> first | decide | simp
    have h4 : (SC.bits ⟨ft, ff, cc, z, a, .reg b⟩).extractLsb' 28 4 = ff := by
      unfold SC.bits; dsimp only; rw [exHi, exHi, exHi, exHi, exHi, exHi, exLo] <;> first | decide | simp
    have h5 : (SC.bits ⟨ft, ff, cc, z, a, .reg b⟩).extractLsb' 25 3 = cc.code := by
      unfold SC.bits; dsimp only; rw [exHi, exHi, exHi, exHi, exHi, exLo] <;> first | decide | simp
    have h6 : bit (SC.bits ⟨ft, ff, cc, z, a, .reg b⟩) 24 = z := by
      unfold SC.bits bit; dsimp only
      rw [BitVec.getLsbD_append, BitVec.getLsbD_append, BitVec.getLsbD_append, BitVec.getLsbD_append, BitVec.getLsbD_append]; simp
    have h7 : (SC.bits ⟨ft, ff, cc, z, a, .reg b⟩).extractLsb' 18 6 = a := by
      unfold SC.bits; dsimp only; rw [exHi, exHi, exHi, exLo] <;> first | decide | simp
    have h8 : (SC.bits ⟨ft, ff, cc, z, a, .reg b⟩).extractLsb' 11 6 = b := by
      unfold SC.bits; dsimp only; rw [exHi, exLo] <;> first | decide | simp
    simp only [readSC, h1, h2, h3, h4, h5, h6, h7, h8, Cond.ofCode_code]
    rfl
  | imm v =>
    have h1 : bit (SC.bits ⟨ft, ff, cc, z, a, .imm v⟩) 17 = true := by
      unfold SC.bits bit; dsimp only; rw [BitVec.getLsbD_append, BitVec.getLsbD_append]; simp
    have h2 : (SC.bits ⟨ft, ff, cc, z, a, .imm v⟩).extractLsb' 0 17 = v := by
      unfold SC.bits; dsimp only; rw [exLo] <;> first | decide | simp
    have h3 : (SC.bits ⟨ft, ff, cc, z, a, .imm v⟩).extractLsb' 32 4 = ft := by
      unfold SC.bits; dsimp only; rw [exHi, exHi, exHi, exHi, exHi, exHi] <;> first | decide | simp
    have h4 : (SC.bits ⟨ft, ff, cc, z, a, .imm v⟩).extractLsb' 28 4 = ff := by
      unfold SC.bits; dsimp only; rw [exHi, exHi, exHi, exHi, exHi, exLo] <;> first | decide | simp
    have h5 : (SC.bits ⟨ft, ff, cc, z, a, .imm v⟩).extractLsb' 25 3 = cc.code := by
      unfold SC.bits; dsimp only; rw [exHi, exHi, exHi, exHi, exLo] <;> first | decide | simp
    have h6 : bit (SC.bits ⟨ft, ff, cc, z, a, .imm v⟩) 24 = z := by
      unfold SC.bits bit; dsimp only
      rw [BitVec.getLsbD_append, BitVec.getLsbD_append, BitVec.getLsbD_append, BitVec.getLsbD_append]; simp
    have h7 : (SC.bits ⟨ft, ff, cc, z, a, .imm v⟩).extractLsb' 18 6 = a := by
      unfold SC.bits; dsimp only; rw [exHi, exHi, exLo] <;> first | decide | simp
    simp only [readSC, h1, h2, h3, h4, h5, h6, h7, Cond.ofCode_code]
    rfl

@[simp] theorem readZ_zero (k : Instr) : readZ 0 k = some k := rfl

/-! ### The slot word -/

@[simp] theorem Enc.word_opr (e : Enc) : e.word.extractLsb' 0 36 = e.opr := by
  unfold Enc.word; rw [exLo] <;> first | decide | simp
@[simp] theorem Enc.word_op (e : Enc) : e.word.extractLsb' 36 7 = e.op := by
  unfold Enc.word; rw [exHi, exLo] <;> first | decide | simp
@[simp] theorem Enc.word_gt (e : Enc) : e.word.extractLsb' 44 8 = e.head.gt := by
  unfold Enc.word; rw [exHi, exHi, exHi, exLo] <;> first | decide | simp
@[simp] theorem Enc.word_gc (e : Enc) : e.word.extractLsb' 52 4 = e.head.gc := by
  unfold Enc.word; rw [exHi, exHi, exHi, exHi, exLo] <;> first | decide | simp
@[simp] theorem Enc.word_gb (e : Enc) : e.word.extractLsb' 56 4 = e.head.gb := by
  unfold Enc.word; rw [exHi, exHi, exHi, exHi, exHi, exLo] <;> first | decide | simp
@[simp] theorem Enc.word_ga (e : Enc) : e.word.extractLsb' 60 4 = e.head.ga := by
  unfold Enc.word; rw [exHi, exHi, exHi, exHi, exHi, exHi] <;> first | decide | simp
@[simp] theorem Enc.word_tri (e : Enc) : e.word.getLsbD 43 = e.head.tri := by
  unfold Enc.word; rw [BitVec.getLsbD_append, BitVec.getLsbD_append, BitVec.getLsbD_append]; simp
@[simp] theorem Enc.word_bit43 (e : Enc) : e.word[43] = e.head.tri := by rw [← BitVec.getLsbD_eq_getElem]; exact e.word_tri

/-- The class of the slot of an encoded instruction. -/
theorem Enc.slotClass_slot (e : Enc) : slotClass e.slot = e.cls := by
  obtain ⟨c, ⟨u, sp, ga, gb, gc, gt, tri⟩, op, opr, l⟩ := e
  cases c <;> cases u <;> rfl

end Sys2Proof
end

