-- ==== Sys2Proof/Laws/State.lean ====
section
/-! SUPPORT. What the named updates of the state leave alone and what they put in place: one lemma for each field and update. -/
namespace Sys2Proof.Machine
open Sys2Proof

/-! `setStack` writes a stack. -/
@[simp] theorem State.setStack_core (s : State) (k : Nat) (st : StackS) : (s.setStack k st).core = s.core := rfl
@[simp] theorem State.setStack_others (s : State) (k : Nat) (st : StackS) : (s.setStack k st).others = s.others := rfl
@[simp] theorem State.setStack_regs (s : State) (k : Nat) (st : StackS) : (s.setStack k st).regs = s.regs := rfl
@[simp] theorem State.setStack_memory (s : State) (k : Nat) (st : StackS) : (s.setStack k st).memory = s.memory := rfl
@[simp] theorem State.setStack_hearth (s : State) (k : Nat) (st : StackS) : (s.setStack k st).hearth = s.hearth := rfl
@[simp] theorem State.setStack_groups (s : State) (k : Nat) (st : StackS) : (s.setStack k st).groups = s.groups := rfl
@[simp] theorem State.setStack_channels (s : State) (k : Nat) (st : StackS) : (s.setStack k st).channels = s.channels := rfl
@[simp] theorem State.setStack_buses (s : State) (k : Nat) (st : StackS) : (s.setStack k st).buses = s.buses := rfl
@[simp] theorem State.setStack_crucible (s : State) (k : Nat) (st : StackS) : (s.setStack k st).crucible = s.crucible := rfl
@[simp] theorem State.setStack_links (s : State) (k : Nat) (st : StackS) : (s.setStack k st).links = s.links := rfl
@[simp] theorem State.setStack_domain (s : State) (k : Nat) (st : StackS) : (s.setStack k st).domain = s.domain := rfl
@[simp] theorem State.setStack_board (s : State) (k : Nat) (st : StackS) : (s.setStack k st).board = s.board := rfl
@[simp] theorem State.setStack_outward (s : State) (k : Nat) (st : StackS) : (s.setStack k st).outward = s.outward := rfl
@[simp] theorem State.setStack_agenda (s : State) (k : Nat) (st : StackS) : (s.setStack k st).agenda = s.agenda := rfl
@[simp] theorem State.setStack_turns (s : State) (k : Nat) (st : StackS) : (s.setStack k st).turns = s.turns := rfl
@[simp] theorem State.setStack_ticks (s : State) (k : Nat) (st : StackS) : (s.setStack k st).ticks = s.ticks := rfl
@[simp] theorem State.setStack_free (s : State) (k : Nat) (st : StackS) : (s.setStack k st).free = s.free := rfl
/-! `boundary` adds a boundary change of the bundle in issue. -/
@[simp] theorem State.boundary_others (s : State) (b : Bnd) : (s.boundary b).others = s.others := rfl
@[simp] theorem State.boundary_regs (s : State) (b : Bnd) : (s.boundary b).regs = s.regs := rfl
@[simp] theorem State.boundary_stacks (s : State) (b : Bnd) : (s.boundary b).stackv = s.stackv := rfl
@[simp] theorem State.boundary_memory (s : State) (b : Bnd) : (s.boundary b).memory = s.memory := rfl
@[simp] theorem State.boundary_hearth (s : State) (b : Bnd) : (s.boundary b).hearth = s.hearth := rfl
@[simp] theorem State.boundary_groups (s : State) (b : Bnd) : (s.boundary b).groups = s.groups := rfl
@[simp] theorem State.boundary_channels (s : State) (b : Bnd) : (s.boundary b).channels = s.channels := rfl
@[simp] theorem State.boundary_buses (s : State) (b : Bnd) : (s.boundary b).buses = s.buses := rfl
@[simp] theorem State.boundary_crucible (s : State) (b : Bnd) : (s.boundary b).crucible = s.crucible := rfl
@[simp] theorem State.boundary_links (s : State) (b : Bnd) : (s.boundary b).links = s.links := rfl
@[simp] theorem State.boundary_domain (s : State) (b : Bnd) : (s.boundary b).domain = s.domain := rfl
@[simp] theorem State.boundary_board (s : State) (b : Bnd) : (s.boundary b).board = s.board := rfl
@[simp] theorem State.boundary_outward (s : State) (b : Bnd) : (s.boundary b).outward = s.outward := rfl
@[simp] theorem State.boundary_agenda (s : State) (b : Bnd) : (s.boundary b).agenda = s.agenda := rfl
@[simp] theorem State.boundary_turns (s : State) (b : Bnd) : (s.boundary b).turns = s.turns := rfl
@[simp] theorem State.boundary_ticks (s : State) (b : Bnd) : (s.boundary b).ticks = s.ticks := rfl
@[simp] theorem State.boundary_free (s : State) (b : Bnd) : (s.boundary b).free = s.free := rfl
@[simp] theorem State.boundary_core_cnum (s : State) (b : Bnd) : (s.boundary b).core.cnum = s.core.cnum := rfl
@[simp] theorem State.boundary_core_g (s : State) (b : Bnd) : (s.boundary b).core.g = s.core.g := rfl
@[simp] theorem State.boundary_core_regs (s : State) (b : Bnd) : (s.boundary b).core.regs = s.core.regs := rfl
@[simp] theorem State.boundary_core_ident (s : State) (b : Bnd) : (s.boundary b).core.ident = s.core.ident := rfl
@[simp] theorem State.boundary_core_ctl (s : State) (b : Bnd) : (s.boundary b).core.ctl = s.core.ctl := rfl
@[simp] theorem State.boundary_core_pipe (s : State) (b : Bnd) : (s.boundary b).core.pipe = s.core.pipe := rfl
@[simp] theorem State.boundary_core_units (s : State) (b : Bnd) : (s.boundary b).core.units = s.core.units := rfl
@[simp] theorem State.boundary_core_phase (s : State) (b : Bnd) : (s.boundary b).core.phase = s.core.phase := rfl
@[simp] theorem State.boundary_core_ovl (s : State) (b : Bnd) : (s.boundary b).core.ovl = s.core.ovl := rfl
@[simp] theorem State.boundary_core_task (s : State) (b : Bnd) : (s.boundary b).core.task = s.core.task := rfl
@[simp] theorem State.boundary_core_drv (s : State) (b : Bnd) : (s.boundary b).core.drv = s.core.drv := rfl
@[simp] theorem State.boundary_bnd (s : State) (b : Bnd) : (s.boundary b).core.front.bnd = s.core.front.bnd ++ [b] := rfl
@[simp] theorem State.boundary_pc (s : State) (b : Bnd) : (s.boundary b).core.front.pc = s.core.front.pc := rfl
@[simp] theorem State.boundary_stat (s : State) (b : Bnd) : (s.boundary b).core.front.stat = s.core.front.stat := rfl
/-! `irrevocable` marks the phase. -/
@[simp] theorem State.irrevocable_others (s : State)  : (s.irrevocable).others = s.others := rfl
@[simp] theorem State.irrevocable_regs (s : State)  : (s.irrevocable).regs = s.regs := rfl
@[simp] theorem State.irrevocable_stacks (s : State)  : (s.irrevocable).stackv = s.stackv := rfl
@[simp] theorem State.irrevocable_memory (s : State)  : (s.irrevocable).memory = s.memory := rfl
@[simp] theorem State.irrevocable_hearth (s : State)  : (s.irrevocable).hearth = s.hearth := rfl
@[simp] theorem State.irrevocable_groups (s : State)  : (s.irrevocable).groups = s.groups := rfl
@[simp] theorem State.irrevocable_channels (s : State)  : (s.irrevocable).channels = s.channels := rfl
@[simp] theorem State.irrevocable_buses (s : State)  : (s.irrevocable).buses = s.buses := rfl
@[simp] theorem State.irrevocable_crucible (s : State)  : (s.irrevocable).crucible = s.crucible := rfl
@[simp] theorem State.irrevocable_links (s : State)  : (s.irrevocable).links = s.links := rfl
@[simp] theorem State.irrevocable_domain (s : State)  : (s.irrevocable).domain = s.domain := rfl
@[simp] theorem State.irrevocable_board (s : State)  : (s.irrevocable).board = s.board := rfl
@[simp] theorem State.irrevocable_outward (s : State)  : (s.irrevocable).outward = s.outward := rfl
@[simp] theorem State.irrevocable_agenda (s : State)  : (s.irrevocable).agenda = s.agenda := rfl
@[simp] theorem State.irrevocable_turns (s : State)  : (s.irrevocable).turns = s.turns := rfl
@[simp] theorem State.irrevocable_ticks (s : State)  : (s.irrevocable).ticks = s.ticks := rfl
@[simp] theorem State.irrevocable_free (s : State)  : (s.irrevocable).free = s.free := rfl
@[simp] theorem State.irrevocable_core_cnum (s : State)  : (s.irrevocable).core.cnum = s.core.cnum := rfl
@[simp] theorem State.irrevocable_core_g (s : State)  : (s.irrevocable).core.g = s.core.g := rfl
@[simp] theorem State.irrevocable_core_regs (s : State)  : (s.irrevocable).core.regs = s.core.regs := rfl
@[simp] theorem State.irrevocable_core_ident (s : State)  : (s.irrevocable).core.ident = s.core.ident := rfl
@[simp] theorem State.irrevocable_core_ctl (s : State)  : (s.irrevocable).core.ctl = s.core.ctl := rfl
@[simp] theorem State.irrevocable_core_front (s : State)  : (s.irrevocable).core.front = s.core.front := rfl
@[simp] theorem State.irrevocable_core_pipe (s : State)  : (s.irrevocable).core.pipe = s.core.pipe := rfl
@[simp] theorem State.irrevocable_core_units (s : State)  : (s.irrevocable).core.units = s.core.units := rfl
@[simp] theorem State.irrevocable_core_ovl (s : State)  : (s.irrevocable).core.ovl = s.core.ovl := rfl
@[simp] theorem State.irrevocable_core_task (s : State)  : (s.irrevocable).core.task = s.core.task := rfl
@[simp] theorem State.irrevocable_core_drv (s : State)  : (s.irrevocable).core.drv = s.core.drv := rfl
/-! `putBank` writes bank cells of the core in focus. -/
@[simp] theorem State.putBank_others (s : State) (cells : List Host.Cell) : (s.putBank cells).others = s.others := rfl
@[simp] theorem State.putBank_regs (s : State) (cells : List Host.Cell) : (s.putBank cells).regs = s.regs := rfl
@[simp] theorem State.putBank_stacks (s : State) (cells : List Host.Cell) : (s.putBank cells).stackv = s.stackv := rfl
@[simp] theorem State.putBank_memory (s : State) (cells : List Host.Cell) : (s.putBank cells).memory = s.memory := rfl
@[simp] theorem State.putBank_hearth (s : State) (cells : List Host.Cell) : (s.putBank cells).hearth = s.hearth := rfl
@[simp] theorem State.putBank_groups (s : State) (cells : List Host.Cell) : (s.putBank cells).groups = s.groups := rfl
@[simp] theorem State.putBank_channels (s : State) (cells : List Host.Cell) : (s.putBank cells).channels = s.channels := rfl
@[simp] theorem State.putBank_buses (s : State) (cells : List Host.Cell) : (s.putBank cells).buses = s.buses := rfl
@[simp] theorem State.putBank_crucible (s : State) (cells : List Host.Cell) : (s.putBank cells).crucible = s.crucible := rfl
@[simp] theorem State.putBank_links (s : State) (cells : List Host.Cell) : (s.putBank cells).links = s.links := rfl
@[simp] theorem State.putBank_domain (s : State) (cells : List Host.Cell) : (s.putBank cells).domain = s.domain := rfl
@[simp] theorem State.putBank_board (s : State) (cells : List Host.Cell) : (s.putBank cells).board = s.board := rfl
@[simp] theorem State.putBank_outward (s : State) (cells : List Host.Cell) : (s.putBank cells).outward = s.outward := rfl
@[simp] theorem State.putBank_agenda (s : State) (cells : List Host.Cell) : (s.putBank cells).agenda = s.agenda := rfl
@[simp] theorem State.putBank_turns (s : State) (cells : List Host.Cell) : (s.putBank cells).turns = s.turns := rfl
@[simp] theorem State.putBank_ticks (s : State) (cells : List Host.Cell) : (s.putBank cells).ticks = s.ticks := rfl
@[simp] theorem State.putBank_free (s : State) (cells : List Host.Cell) : (s.putBank cells).free = s.free := rfl
@[simp] theorem State.putBank_core_cnum (s : State) (cells : List Host.Cell) : (s.putBank cells).core.cnum = s.core.cnum := rfl
@[simp] theorem State.putBank_core_g (s : State) (cells : List Host.Cell) : (s.putBank cells).core.g = s.core.g := rfl
@[simp] theorem State.putBank_core_ident (s : State) (cells : List Host.Cell) : (s.putBank cells).core.ident = s.core.ident := rfl
@[simp] theorem State.putBank_core_ctl (s : State) (cells : List Host.Cell) : (s.putBank cells).core.ctl = s.core.ctl := rfl
@[simp] theorem State.putBank_core_front (s : State) (cells : List Host.Cell) : (s.putBank cells).core.front = s.core.front := rfl
@[simp] theorem State.putBank_core_pipe (s : State) (cells : List Host.Cell) : (s.putBank cells).core.pipe = s.core.pipe := rfl
@[simp] theorem State.putBank_core_units (s : State) (cells : List Host.Cell) : (s.putBank cells).core.units = s.core.units := rfl
@[simp] theorem State.putBank_core_phase (s : State) (cells : List Host.Cell) : (s.putBank cells).core.phase = s.core.phase := rfl
@[simp] theorem State.putBank_core_ovl (s : State) (cells : List Host.Cell) : (s.putBank cells).core.ovl = s.core.ovl := rfl
@[simp] theorem State.putBank_core_task (s : State) (cells : List Host.Cell) : (s.putBank cells).core.task = s.core.task := rfl
@[simp] theorem State.putBank_core_drv (s : State) (cells : List Host.Cell) : (s.putBank cells).core.drv = s.core.drv := rfl
@[simp] theorem State.putBank_x (s : State) (cells : List Host.Cell) : (s.putBank cells).core.regs.x = s.core.regs.x := rfl
@[simp] theorem State.putBank_f (s : State) (cells : List Host.Cell) : (s.putBank cells).core.regs.f = s.core.regs.f := rfl
@[simp] theorem State.putBank_p (s : State) (cells : List Host.Cell) : (s.putBank cells).core.regs.p = s.core.regs.p := rfl
@[simp] theorem State.putBank_rf (s : State) (cells : List Host.Cell) : (s.putBank cells).core.regs.rf = s.core.regs.rf := rfl
@[simp] theorem State.putBank_bank (s : State) (cells : List Host.Cell) :
    (s.putBank cells).core.regs.bank = s.core.regs.bank.setCells cells := rfl
/-! `setMem` replaces the bytes of memory. -/
@[simp] theorem State.setMem_core (s : State) (m : Memory) : (s.setMem m).core = s.core := rfl
@[simp] theorem State.setMem_others (s : State) (m : Memory) : (s.setMem m).others = s.others := rfl
@[simp] theorem State.setMem_regs (s : State) (m : Memory) : (s.setMem m).regs = s.regs := rfl
@[simp] theorem State.setMem_stacks (s : State) (m : Memory) : (s.setMem m).stackv = s.stackv := rfl
@[simp] theorem State.setMem_hearth (s : State) (m : Memory) : (s.setMem m).hearth = s.hearth := rfl
@[simp] theorem State.setMem_groups (s : State) (m : Memory) : (s.setMem m).groups = s.groups := rfl
@[simp] theorem State.setMem_channels (s : State) (m : Memory) : (s.setMem m).channels = s.channels := rfl
@[simp] theorem State.setMem_buses (s : State) (m : Memory) : (s.setMem m).buses = s.buses := rfl
@[simp] theorem State.setMem_crucible (s : State) (m : Memory) : (s.setMem m).crucible = s.crucible := rfl
@[simp] theorem State.setMem_links (s : State) (m : Memory) : (s.setMem m).links = s.links := rfl
@[simp] theorem State.setMem_domain (s : State) (m : Memory) : (s.setMem m).domain = s.domain := rfl
@[simp] theorem State.setMem_board (s : State) (m : Memory) : (s.setMem m).board = s.board := rfl
@[simp] theorem State.setMem_outward (s : State) (m : Memory) : (s.setMem m).outward = s.outward := rfl
@[simp] theorem State.setMem_agenda (s : State) (m : Memory) : (s.setMem m).agenda = s.agenda := rfl
@[simp] theorem State.setMem_turns (s : State) (m : Memory) : (s.setMem m).turns = s.turns := rfl
@[simp] theorem State.setMem_ticks (s : State) (m : Memory) : (s.setMem m).ticks = s.ticks := rfl
@[simp] theorem State.setMem_free (s : State) (m : Memory) : (s.setMem m).free = s.free := rfl
@[simp] theorem State.setMem_mem (s : State) (m : Memory) : (s.setMem m).memory.mem = m := rfl
/-! `setM` replaces the module registers. -/
@[simp] theorem State.setM_core (s : State) (m : Regs0) : (s.setM m).core = s.core := rfl
@[simp] theorem State.setM_others (s : State) (m : Regs0) : (s.setM m).others = s.others := rfl
@[simp] theorem State.setM_stacks (s : State) (m : Regs0) : (s.setM m).stackv = s.stackv := rfl
@[simp] theorem State.setM_memory (s : State) (m : Regs0) : (s.setM m).memory = s.memory := rfl
@[simp] theorem State.setM_hearth (s : State) (m : Regs0) : (s.setM m).hearth = s.hearth := rfl
@[simp] theorem State.setM_groups (s : State) (m : Regs0) : (s.setM m).groups = s.groups := rfl
@[simp] theorem State.setM_channels (s : State) (m : Regs0) : (s.setM m).channels = s.channels := rfl
@[simp] theorem State.setM_buses (s : State) (m : Regs0) : (s.setM m).buses = s.buses := rfl
@[simp] theorem State.setM_crucible (s : State) (m : Regs0) : (s.setM m).crucible = s.crucible := rfl
@[simp] theorem State.setM_links (s : State) (m : Regs0) : (s.setM m).links = s.links := rfl
@[simp] theorem State.setM_domain (s : State) (m : Regs0) : (s.setM m).domain = s.domain := rfl
@[simp] theorem State.setM_board (s : State) (m : Regs0) : (s.setM m).board = s.board := rfl
@[simp] theorem State.setM_outward (s : State) (m : Regs0) : (s.setM m).outward = s.outward := rfl
@[simp] theorem State.setM_agenda (s : State) (m : Regs0) : (s.setM m).agenda = s.agenda := rfl
@[simp] theorem State.setM_turns (s : State) (m : Regs0) : (s.setM m).turns = s.turns := rfl
@[simp] theorem State.setM_ticks (s : State) (m : Regs0) : (s.setM m).ticks = s.ticks := rfl
@[simp] theorem State.setM_free (s : State) (m : Regs0) : (s.setM m).free = s.free := rfl
@[simp] theorem State.setM_m (s : State) (m : Regs0) : (s.setM m).regs.m = m := rfl
@[simp] theorem State.setM_ev (s : State) (m : Regs0) : (s.setM m).regs.ev = s.regs.ev := rfl
/-! `calm` clears what a slot met. -/
@[simp] theorem State.calm_others (s : State)  : (s.calm).others = s.others := rfl
@[simp] theorem State.calm_regs (s : State)  : (s.calm).regs = s.regs := rfl
@[simp] theorem State.calm_stacks (s : State)  : (s.calm).stackv = s.stackv := rfl
@[simp] theorem State.calm_memory (s : State)  : (s.calm).memory = s.memory := rfl
@[simp] theorem State.calm_hearth (s : State)  : (s.calm).hearth = s.hearth := rfl
@[simp] theorem State.calm_groups (s : State)  : (s.calm).groups = s.groups := rfl
@[simp] theorem State.calm_channels (s : State)  : (s.calm).channels = s.channels := rfl
@[simp] theorem State.calm_buses (s : State)  : (s.calm).buses = s.buses := rfl
@[simp] theorem State.calm_crucible (s : State)  : (s.calm).crucible = s.crucible := rfl
@[simp] theorem State.calm_links (s : State)  : (s.calm).links = s.links := rfl
@[simp] theorem State.calm_domain (s : State)  : (s.calm).domain = s.domain := rfl
@[simp] theorem State.calm_board (s : State)  : (s.calm).board = s.board := rfl
@[simp] theorem State.calm_outward (s : State)  : (s.calm).outward = s.outward := rfl
@[simp] theorem State.calm_agenda (s : State)  : (s.calm).agenda = s.agenda := rfl
@[simp] theorem State.calm_turns (s : State)  : (s.calm).turns = s.turns := rfl
@[simp] theorem State.calm_ticks (s : State)  : (s.calm).ticks = s.ticks := rfl
@[simp] theorem State.calm_free (s : State)  : (s.calm).free = s.free := rfl
@[simp] theorem State.calm_core_cnum (s : State)  : (s.calm).core.cnum = s.core.cnum := rfl
@[simp] theorem State.calm_core_g (s : State)  : (s.calm).core.g = s.core.g := rfl
@[simp] theorem State.calm_core_regs (s : State)  : (s.calm).core.regs = s.core.regs := rfl
@[simp] theorem State.calm_core_ident (s : State)  : (s.calm).core.ident = s.core.ident := rfl
@[simp] theorem State.calm_core_ctl (s : State)  : (s.calm).core.ctl = s.core.ctl := rfl
@[simp] theorem State.calm_core_pipe (s : State)  : (s.calm).core.pipe = s.core.pipe := rfl
@[simp] theorem State.calm_core_units (s : State)  : (s.calm).core.units = s.core.units := rfl
@[simp] theorem State.calm_core_phase (s : State)  : (s.calm).core.phase = s.core.phase := rfl
@[simp] theorem State.calm_core_ovl (s : State)  : (s.calm).core.ovl = s.core.ovl := rfl
@[simp] theorem State.calm_core_task (s : State)  : (s.calm).core.task = s.core.task := rfl
@[simp] theorem State.calm_core_drv (s : State)  : (s.calm).core.drv = s.core.drv := rfl
/-! `atBundle` puts the core in focus at a bundle. -/
@[simp] theorem State.atBundle_others (s : State) (pc : BitVec 56) (len : Nat) : (s.atBundle pc len).others = s.others := rfl
@[simp] theorem State.atBundle_regs (s : State) (pc : BitVec 56) (len : Nat) : (s.atBundle pc len).regs = s.regs := rfl
@[simp] theorem State.atBundle_stacks (s : State) (pc : BitVec 56) (len : Nat) : (s.atBundle pc len).stackv = s.stackv := rfl
@[simp] theorem State.atBundle_memory (s : State) (pc : BitVec 56) (len : Nat) : (s.atBundle pc len).memory = s.memory := rfl
@[simp] theorem State.atBundle_hearth (s : State) (pc : BitVec 56) (len : Nat) : (s.atBundle pc len).hearth = s.hearth := rfl
@[simp] theorem State.atBundle_groups (s : State) (pc : BitVec 56) (len : Nat) : (s.atBundle pc len).groups = s.groups := rfl
@[simp] theorem State.atBundle_channels (s : State) (pc : BitVec 56) (len : Nat) :
    (s.atBundle pc len).channels = s.channels := rfl
@[simp] theorem State.atBundle_buses (s : State) (pc : BitVec 56) (len : Nat) : (s.atBundle pc len).buses = s.buses := rfl
@[simp] theorem State.atBundle_crucible (s : State) (pc : BitVec 56) (len : Nat) :
    (s.atBundle pc len).crucible = s.crucible := rfl
@[simp] theorem State.atBundle_links (s : State) (pc : BitVec 56) (len : Nat) : (s.atBundle pc len).links = s.links := rfl
@[simp] theorem State.atBundle_domain (s : State) (pc : BitVec 56) (len : Nat) : (s.atBundle pc len).domain = s.domain := rfl
@[simp] theorem State.atBundle_board (s : State) (pc : BitVec 56) (len : Nat) : (s.atBundle pc len).board = s.board := rfl
@[simp] theorem State.atBundle_outward (s : State) (pc : BitVec 56) (len : Nat) : (s.atBundle pc len).outward = s.outward := rfl
@[simp] theorem State.atBundle_agenda (s : State) (pc : BitVec 56) (len : Nat) : (s.atBundle pc len).agenda = s.agenda := rfl
@[simp] theorem State.atBundle_turns (s : State) (pc : BitVec 56) (len : Nat) : (s.atBundle pc len).turns = s.turns := rfl
@[simp] theorem State.atBundle_ticks (s : State) (pc : BitVec 56) (len : Nat) : (s.atBundle pc len).ticks = s.ticks := rfl
@[simp] theorem State.atBundle_free (s : State) (pc : BitVec 56) (len : Nat) : (s.atBundle pc len).free = s.free := rfl
@[simp] theorem State.atBundle_core_cnum (s : State) (pc : BitVec 56) (len : Nat) :
    (s.atBundle pc len).core.cnum = s.core.cnum := rfl
@[simp] theorem State.atBundle_core_g (s : State) (pc : BitVec 56) (len : Nat) : (s.atBundle pc len).core.g = s.core.g := rfl
@[simp] theorem State.atBundle_core_regs (s : State) (pc : BitVec 56) (len : Nat) :
    (s.atBundle pc len).core.regs = s.core.regs := rfl
@[simp] theorem State.atBundle_core_ident (s : State) (pc : BitVec 56) (len : Nat) :
    (s.atBundle pc len).core.ident = s.core.ident := rfl
@[simp] theorem State.atBundle_core_ctl (s : State) (pc : BitVec 56) (len : Nat) :
    (s.atBundle pc len).core.ctl = s.core.ctl := rfl
@[simp] theorem State.atBundle_core_pipe (s : State) (pc : BitVec 56) (len : Nat) :
    (s.atBundle pc len).core.pipe = s.core.pipe := rfl
@[simp] theorem State.atBundle_core_units (s : State) (pc : BitVec 56) (len : Nat) :
    (s.atBundle pc len).core.units = s.core.units := rfl
@[simp] theorem State.atBundle_core_phase (s : State) (pc : BitVec 56) (len : Nat) :
    (s.atBundle pc len).core.phase = s.core.phase := rfl
@[simp] theorem State.atBundle_core_ovl (s : State) (pc : BitVec 56) (len : Nat) :
    (s.atBundle pc len).core.ovl = s.core.ovl := rfl
@[simp] theorem State.atBundle_core_task (s : State) (pc : BitVec 56) (len : Nat) :
    (s.atBundle pc len).core.task = s.core.task := rfl
@[simp] theorem State.atBundle_core_drv (s : State) (pc : BitVec 56) (len : Nat) :
    (s.atBundle pc len).core.drv = s.core.drv := rfl
@[simp] theorem State.atBundle_pc (s : State) (pc : BitVec 56) (len : Nat) : (s.atBundle pc len).core.front.pc = pc := rfl
@[simp] theorem State.atBundle_stat (s : State) (pc : BitVec 56) (len : Nat) : (s.atBundle pc len).core.front.stat = .ready := rfl
/-! `push` queues a result. -/
@[simp] theorem Core.push_cnum (c : Core) (slot lat : Nat) (v : PVal) : (c.push slot lat v).cnum = c.cnum := rfl
@[simp] theorem Core.push_g (c : Core) (slot lat : Nat) (v : PVal) : (c.push slot lat v).g = c.g := rfl
@[simp] theorem Core.push_regs (c : Core) (slot lat : Nat) (v : PVal) : (c.push slot lat v).regs = c.regs := rfl
@[simp] theorem Core.push_ident (c : Core) (slot lat : Nat) (v : PVal) : (c.push slot lat v).ident = c.ident := rfl
@[simp] theorem Core.push_ctl (c : Core) (slot lat : Nat) (v : PVal) : (c.push slot lat v).ctl = c.ctl := rfl
@[simp] theorem Core.push_front (c : Core) (slot lat : Nat) (v : PVal) : (c.push slot lat v).front = c.front := rfl
@[simp] theorem Core.push_units (c : Core) (slot lat : Nat) (v : PVal) : (c.push slot lat v).units = c.units := rfl
@[simp] theorem Core.push_phase (c : Core) (slot lat : Nat) (v : PVal) : (c.push slot lat v).phase = c.phase := rfl
@[simp] theorem Core.push_ovl (c : Core) (slot lat : Nat) (v : PVal) : (c.push slot lat v).ovl = c.ovl := rfl
@[simp] theorem Core.push_task (c : Core) (slot lat : Nat) (v : PVal) : (c.push slot lat v).task = c.task := rfl
@[simp] theorem Core.push_drv (c : Core) (slot lat : Nat) (v : PVal) : (c.push slot lat v).drv = c.drv := rfl
/-! `pushBank` queues a scratchpad write. -/
@[simp] theorem Core.pushBank_cnum (c : Core) (lat : Nat) (cells : List Host.Cell) : (c.pushBank lat cells).cnum = c.cnum := rfl
@[simp] theorem Core.pushBank_g (c : Core) (lat : Nat) (cells : List Host.Cell) : (c.pushBank lat cells).g = c.g := rfl
@[simp] theorem Core.pushBank_regs (c : Core) (lat : Nat) (cells : List Host.Cell) : (c.pushBank lat cells).regs = c.regs := rfl
@[simp] theorem Core.pushBank_ident (c : Core) (lat : Nat) (cells : List Host.Cell) :
    (c.pushBank lat cells).ident = c.ident := rfl
@[simp] theorem Core.pushBank_ctl (c : Core) (lat : Nat) (cells : List Host.Cell) : (c.pushBank lat cells).ctl = c.ctl := rfl
@[simp] theorem Core.pushBank_front (c : Core) (lat : Nat) (cells : List Host.Cell) :
    (c.pushBank lat cells).front = c.front := rfl
@[simp] theorem Core.pushBank_units (c : Core) (lat : Nat) (cells : List Host.Cell) :
    (c.pushBank lat cells).units = c.units := rfl
@[simp] theorem Core.pushBank_phase (c : Core) (lat : Nat) (cells : List Host.Cell) :
    (c.pushBank lat cells).phase = c.phase := rfl
@[simp] theorem Core.pushBank_ovl (c : Core) (lat : Nat) (cells : List Host.Cell) : (c.pushBank lat cells).ovl = c.ovl := rfl
@[simp] theorem Core.pushBank_task (c : Core) (lat : Nat) (cells : List Host.Cell) : (c.pushBank lat cells).task = c.task := rfl
@[simp] theorem Core.pushBank_drv (c : Core) (lat : Nat) (cells : List Host.Cell) : (c.pushBank lat cells).drv = c.drv := rfl
/-! `setRing` writes a ring. -/
@[simp] theorem Core.setRing_cnum (c : Core) (n : HRing) (r : Ring) : (c.setRing n r).cnum = c.cnum := rfl
@[simp] theorem Core.setRing_g (c : Core) (n : HRing) (r : Ring) : (c.setRing n r).g = c.g := rfl
@[simp] theorem Core.setRing_regs (c : Core) (n : HRing) (r : Ring) : (c.setRing n r).regs = c.regs := rfl
@[simp] theorem Core.setRing_ident (c : Core) (n : HRing) (r : Ring) : (c.setRing n r).ident = c.ident := rfl
@[simp] theorem Core.setRing_ctl (c : Core) (n : HRing) (r : Ring) : (c.setRing n r).ctl = c.ctl := rfl
@[simp] theorem Core.setRing_front (c : Core) (n : HRing) (r : Ring) : (c.setRing n r).front = c.front := rfl
@[simp] theorem Core.setRing_pipe (c : Core) (n : HRing) (r : Ring) : (c.setRing n r).pipe = c.pipe := rfl
@[simp] theorem Core.setRing_phase (c : Core) (n : HRing) (r : Ring) : (c.setRing n r).phase = c.phase := rfl
@[simp] theorem Core.setRing_ovl (c : Core) (n : HRing) (r : Ring) : (c.setRing n r).ovl = c.ovl := rfl
@[simp] theorem Core.setRing_task (c : Core) (n : HRing) (r : Ring) : (c.setRing n r).task = c.task := rfl
@[simp] theorem Core.setRing_drv (c : Core) (n : HRing) (r : Ring) : (c.setRing n r).drv = c.drv := rfl
/-! `setToken` writes a token. -/
@[simp] theorem Core.setToken_cnum (c : Core) (k : KTok) (t : Token) : (c.setToken k t).cnum = c.cnum := rfl
@[simp] theorem Core.setToken_g (c : Core) (k : KTok) (t : Token) : (c.setToken k t).g = c.g := rfl
@[simp] theorem Core.setToken_regs (c : Core) (k : KTok) (t : Token) : (c.setToken k t).regs = c.regs := rfl
@[simp] theorem Core.setToken_ident (c : Core) (k : KTok) (t : Token) : (c.setToken k t).ident = c.ident := rfl
@[simp] theorem Core.setToken_ctl (c : Core) (k : KTok) (t : Token) : (c.setToken k t).ctl = c.ctl := rfl
@[simp] theorem Core.setToken_front (c : Core) (k : KTok) (t : Token) : (c.setToken k t).front = c.front := rfl
@[simp] theorem Core.setToken_pipe (c : Core) (k : KTok) (t : Token) : (c.setToken k t).pipe = c.pipe := rfl
@[simp] theorem Core.setToken_phase (c : Core) (k : KTok) (t : Token) : (c.setToken k t).phase = c.phase := rfl
@[simp] theorem Core.setToken_ovl (c : Core) (k : KTok) (t : Token) : (c.setToken k t).ovl = c.ovl := rfl
@[simp] theorem Core.setToken_task (c : Core) (k : KTok) (t : Token) : (c.setToken k t).task = c.task := rfl
@[simp] theorem Core.setToken_drv (c : Core) (k : KTok) (t : Token) : (c.setToken k t).drv = c.drv := rfl
/-! `clearUpset` ends the upsets of an operation. -/
@[simp] theorem Core.clearUpset_cnum (c : Core)  : (c.clearUpset).cnum = c.cnum := rfl
@[simp] theorem Core.clearUpset_g (c : Core)  : (c.clearUpset).g = c.g := rfl
@[simp] theorem Core.clearUpset_regs (c : Core)  : (c.clearUpset).regs = c.regs := rfl
@[simp] theorem Core.clearUpset_ident (c : Core)  : (c.clearUpset).ident = c.ident := rfl
@[simp] theorem Core.clearUpset_ctl (c : Core)  : (c.clearUpset).ctl = c.ctl := rfl
@[simp] theorem Core.clearUpset_pipe (c : Core)  : (c.clearUpset).pipe = c.pipe := rfl
@[simp] theorem Core.clearUpset_units (c : Core)  : (c.clearUpset).units = c.units := rfl
@[simp] theorem Core.clearUpset_phase (c : Core)  : (c.clearUpset).phase = c.phase := rfl
@[simp] theorem Core.clearUpset_ovl (c : Core)  : (c.clearUpset).ovl = c.ovl := rfl
@[simp] theorem Core.clearUpset_task (c : Core)  : (c.clearUpset).task = c.task := rfl
@[simp] theorem Core.clearUpset_drv (c : Core)  : (c.clearUpset).drv = c.drv := rfl
/-! `age` brings every result one issue cycle nearer. -/
@[simp] theorem Core.age_cnum (c : Core)  : (c.age).cnum = c.cnum := rfl
@[simp] theorem Core.age_g (c : Core)  : (c.age).g = c.g := rfl
@[simp] theorem Core.age_regs (c : Core)  : (c.age).regs = c.regs := rfl
@[simp] theorem Core.age_ident (c : Core)  : (c.age).ident = c.ident := rfl
@[simp] theorem Core.age_ctl (c : Core)  : (c.age).ctl = c.ctl := rfl
@[simp] theorem Core.age_front (c : Core)  : (c.age).front = c.front := rfl
@[simp] theorem Core.age_units (c : Core)  : (c.age).units = c.units := rfl
@[simp] theorem Core.age_phase (c : Core)  : (c.age).phase = c.phase := rfl
@[simp] theorem Core.age_ovl (c : Core)  : (c.age).ovl = c.ovl := rfl
@[simp] theorem Core.age_task (c : Core)  : (c.age).task = c.task := rfl
@[simp] theorem Core.age_drv (c : Core)  : (c.age).drv = c.drv := rfl
/-! `setVec` writes vector bytes. -/
@[simp] theorem Core.setVec_cnum (c : Core) (addr : Nat) (bytes : List (Nat × Byte)) : (c.setVec addr bytes).cnum = c.cnum := rfl
@[simp] theorem Core.setVec_g (c : Core) (addr : Nat) (bytes : List (Nat × Byte)) : (c.setVec addr bytes).g = c.g := rfl
@[simp] theorem Core.setVec_ident (c : Core) (addr : Nat) (bytes : List (Nat × Byte)) :
    (c.setVec addr bytes).ident = c.ident := rfl
@[simp] theorem Core.setVec_ctl (c : Core) (addr : Nat) (bytes : List (Nat × Byte)) : (c.setVec addr bytes).ctl = c.ctl := rfl
@[simp] theorem Core.setVec_front (c : Core) (addr : Nat) (bytes : List (Nat × Byte)) :
    (c.setVec addr bytes).front = c.front := rfl
@[simp] theorem Core.setVec_pipe (c : Core) (addr : Nat) (bytes : List (Nat × Byte)) : (c.setVec addr bytes).pipe = c.pipe := rfl
@[simp] theorem Core.setVec_units (c : Core) (addr : Nat) (bytes : List (Nat × Byte)) :
    (c.setVec addr bytes).units = c.units := rfl
@[simp] theorem Core.setVec_phase (c : Core) (addr : Nat) (bytes : List (Nat × Byte)) :
    (c.setVec addr bytes).phase = c.phase := rfl
@[simp] theorem Core.setVec_ovl (c : Core) (addr : Nat) (bytes : List (Nat × Byte)) : (c.setVec addr bytes).ovl = c.ovl := rfl
@[simp] theorem Core.setVec_task (c : Core) (addr : Nat) (bytes : List (Nat × Byte)) : (c.setVec addr bytes).task = c.task := rfl
@[simp] theorem Core.setVec_drv (c : Core) (addr : Nat) (bytes : List (Nat × Byte)) : (c.setVec addr bytes).drv = c.drv := rfl
@[simp] theorem Core.setVec_x (c : Core) (addr : Nat) (bytes : List (Nat × Byte)) : (c.setVec addr bytes).regs.x = c.regs.x := rfl
@[simp] theorem Core.setVec_f (c : Core) (addr : Nat) (bytes : List (Nat × Byte)) : (c.setVec addr bytes).regs.f = c.regs.f := rfl
@[simp] theorem Core.setVec_p (c : Core) (addr : Nat) (bytes : List (Nat × Byte)) : (c.setVec addr bytes).regs.p = c.regs.p := rfl
@[simp] theorem Core.setVec_bank (c : Core) (addr : Nat) (bytes : List (Nat × Byte)) :
    (c.setVec addr bytes).regs.bank = c.regs.bank := rfl
/-! `setF` writes scalar predicates; f0 is never written. -/
@[simp] theorem Core.setF_cnum (c : Core) (mask val : BitVec 16) : (c.setF mask val).cnum = c.cnum := rfl
@[simp] theorem Core.setF_g (c : Core) (mask val : BitVec 16) : (c.setF mask val).g = c.g := rfl
@[simp] theorem Core.setF_ident (c : Core) (mask val : BitVec 16) : (c.setF mask val).ident = c.ident := rfl
@[simp] theorem Core.setF_ctl (c : Core) (mask val : BitVec 16) : (c.setF mask val).ctl = c.ctl := rfl
@[simp] theorem Core.setF_front (c : Core) (mask val : BitVec 16) : (c.setF mask val).front = c.front := rfl
@[simp] theorem Core.setF_pipe (c : Core) (mask val : BitVec 16) : (c.setF mask val).pipe = c.pipe := rfl
@[simp] theorem Core.setF_units (c : Core) (mask val : BitVec 16) : (c.setF mask val).units = c.units := rfl
@[simp] theorem Core.setF_phase (c : Core) (mask val : BitVec 16) : (c.setF mask val).phase = c.phase := rfl
@[simp] theorem Core.setF_ovl (c : Core) (mask val : BitVec 16) : (c.setF mask val).ovl = c.ovl := rfl
@[simp] theorem Core.setF_task (c : Core) (mask val : BitVec 16) : (c.setF mask val).task = c.task := rfl
@[simp] theorem Core.setF_drv (c : Core) (mask val : BitVec 16) : (c.setF mask val).drv = c.drv := rfl
@[simp] theorem Core.setF_x (c : Core) (mask val : BitVec 16) : (c.setF mask val).regs.x = c.regs.x := rfl
@[simp] theorem Core.setF_p (c : Core) (mask val : BitVec 16) : (c.setF mask val).regs.p = c.regs.p := rfl
@[simp] theorem Core.setF_rf (c : Core) (mask val : BitVec 16) : (c.setF mask val).regs.rf = c.regs.rf := rfl
@[simp] theorem Core.setF_bank (c : Core) (mask val : BitVec 16) : (c.setF mask val).regs.bank = c.regs.bank := rfl
/-! `setX` writes a scalar register; a write to x0 is discarded. -/
@[simp] theorem Core.setX_cnum (c : Core) (r : XReg) (v : Word) : (c.setX r v).cnum = c.cnum := by unfold Core.setX; split <;> rfl
@[simp] theorem Core.setX_g (c : Core) (r : XReg) (v : Word) : (c.setX r v).g = c.g := by unfold Core.setX; split <;> rfl
@[simp] theorem Core.setX_ident (c : Core) (r : XReg) (v : Word) : (c.setX r v).ident = c.ident := by unfold Core.setX; split <;> rfl
@[simp] theorem Core.setX_ctl (c : Core) (r : XReg) (v : Word) : (c.setX r v).ctl = c.ctl := by unfold Core.setX; split <;> rfl
@[simp] theorem Core.setX_front (c : Core) (r : XReg) (v : Word) : (c.setX r v).front = c.front := by unfold Core.setX; split <;> rfl
@[simp] theorem Core.setX_pipe (c : Core) (r : XReg) (v : Word) : (c.setX r v).pipe = c.pipe := by unfold Core.setX; split <;> rfl
@[simp] theorem Core.setX_units (c : Core) (r : XReg) (v : Word) : (c.setX r v).units = c.units := by unfold Core.setX; split <;> rfl
@[simp] theorem Core.setX_phase (c : Core) (r : XReg) (v : Word) : (c.setX r v).phase = c.phase := by unfold Core.setX; split <;> rfl
@[simp] theorem Core.setX_ovl (c : Core) (r : XReg) (v : Word) : (c.setX r v).ovl = c.ovl := by unfold Core.setX; split <;> rfl
@[simp] theorem Core.setX_task (c : Core) (r : XReg) (v : Word) : (c.setX r v).task = c.task := by unfold Core.setX; split <;> rfl
@[simp] theorem Core.setX_drv (c : Core) (r : XReg) (v : Word) : (c.setX r v).drv = c.drv := by unfold Core.setX; split <;> rfl
@[simp] theorem Core.setX_f (c : Core) (r : XReg) (v : Word) : (c.setX r v).regs.f = c.regs.f := by unfold Core.setX; split <;> rfl
@[simp] theorem Core.setX_p (c : Core) (r : XReg) (v : Word) : (c.setX r v).regs.p = c.regs.p := by unfold Core.setX; split <;> rfl
@[simp] theorem Core.setX_rf (c : Core) (r : XReg) (v : Word) : (c.setX r v).regs.rf = c.regs.rf := by unfold Core.setX; split <;> rfl
@[simp] theorem Core.setX_bank (c : Core) (r : XReg) (v : Word) : (c.setX r v).regs.bank = c.regs.bank := by unfold Core.setX; split <;> rfl
/-! `setP` writes a lane predicate; a write to p0 is discarded. -/
@[simp] theorem Core.setP_cnum (c : Core) (r : PReg) (mask val : Vector (BitVec 256) 4) : (c.setP r mask val).cnum = c.cnum := by unfold Core.setP; split <;> rfl
@[simp] theorem Core.setP_g (c : Core) (r : PReg) (mask val : Vector (BitVec 256) 4) : (c.setP r mask val).g = c.g := by unfold Core.setP; split <;> rfl
@[simp] theorem Core.setP_ident (c : Core) (r : PReg) (mask val : Vector (BitVec 256) 4) :
    (c.setP r mask val).ident = c.ident := by unfold Core.setP; split <;> rfl
@[simp] theorem Core.setP_ctl (c : Core) (r : PReg) (mask val : Vector (BitVec 256) 4) : (c.setP r mask val).ctl = c.ctl := by unfold Core.setP; split <;> rfl
@[simp] theorem Core.setP_front (c : Core) (r : PReg) (mask val : Vector (BitVec 256) 4) :
    (c.setP r mask val).front = c.front := by unfold Core.setP; split <;> rfl
@[simp] theorem Core.setP_pipe (c : Core) (r : PReg) (mask val : Vector (BitVec 256) 4) : (c.setP r mask val).pipe = c.pipe := by unfold Core.setP; split <;> rfl
@[simp] theorem Core.setP_units (c : Core) (r : PReg) (mask val : Vector (BitVec 256) 4) :
    (c.setP r mask val).units = c.units := by unfold Core.setP; split <;> rfl
@[simp] theorem Core.setP_phase (c : Core) (r : PReg) (mask val : Vector (BitVec 256) 4) :
    (c.setP r mask val).phase = c.phase := by unfold Core.setP; split <;> rfl
@[simp] theorem Core.setP_ovl (c : Core) (r : PReg) (mask val : Vector (BitVec 256) 4) : (c.setP r mask val).ovl = c.ovl := by unfold Core.setP; split <;> rfl
@[simp] theorem Core.setP_task (c : Core) (r : PReg) (mask val : Vector (BitVec 256) 4) : (c.setP r mask val).task = c.task := by unfold Core.setP; split <;> rfl
@[simp] theorem Core.setP_drv (c : Core) (r : PReg) (mask val : Vector (BitVec 256) 4) : (c.setP r mask val).drv = c.drv := by unfold Core.setP; split <;> rfl
@[simp] theorem Core.setP_x (c : Core) (r : PReg) (mask val : Vector (BitVec 256) 4) :
    (c.setP r mask val).regs.x = c.regs.x := by unfold Core.setP; split <;> rfl
@[simp] theorem Core.setP_f (c : Core) (r : PReg) (mask val : Vector (BitVec 256) 4) :
    (c.setP r mask val).regs.f = c.regs.f := by unfold Core.setP; split <;> rfl
@[simp] theorem Core.setP_rf (c : Core) (r : PReg) (mask val : Vector (BitVec 256) 4) :
    (c.setP r mask val).regs.rf = c.regs.rf := by unfold Core.setP; split <;> rfl
@[simp] theorem Core.setP_bank (c : Core) (r : PReg) (mask val : Vector (BitVec 256) 4) :
    (c.setP r mask val).regs.bank = c.regs.bank := by unfold Core.setP; split <;> rfl
/-! `setLate` writes FMT or TOL. -/
@[simp] theorem Core.setLate_cnum (c : Core) (n : BitVec 12) (v : Word) : (c.setLate n v).cnum = c.cnum := by unfold Core.setLate; split <;> first | rfl | (split <;> rfl)
@[simp] theorem Core.setLate_g (c : Core) (n : BitVec 12) (v : Word) : (c.setLate n v).g = c.g := by unfold Core.setLate; split <;> first | rfl | (split <;> rfl)
@[simp] theorem Core.setLate_regs (c : Core) (n : BitVec 12) (v : Word) : (c.setLate n v).regs = c.regs := by unfold Core.setLate; split <;> first | rfl | (split <;> rfl)
@[simp] theorem Core.setLate_ident (c : Core) (n : BitVec 12) (v : Word) : (c.setLate n v).ident = c.ident := by unfold Core.setLate; split <;> first | rfl | (split <;> rfl)
@[simp] theorem Core.setLate_front (c : Core) (n : BitVec 12) (v : Word) : (c.setLate n v).front = c.front := by unfold Core.setLate; split <;> first | rfl | (split <;> rfl)
@[simp] theorem Core.setLate_pipe (c : Core) (n : BitVec 12) (v : Word) : (c.setLate n v).pipe = c.pipe := by unfold Core.setLate; split <;> first | rfl | (split <;> rfl)
@[simp] theorem Core.setLate_units (c : Core) (n : BitVec 12) (v : Word) : (c.setLate n v).units = c.units := by unfold Core.setLate; split <;> first | rfl | (split <;> rfl)
@[simp] theorem Core.setLate_phase (c : Core) (n : BitVec 12) (v : Word) : (c.setLate n v).phase = c.phase := by unfold Core.setLate; split <;> first | rfl | (split <;> rfl)
@[simp] theorem Core.setLate_ovl (c : Core) (n : BitVec 12) (v : Word) : (c.setLate n v).ovl = c.ovl := by unfold Core.setLate; split <;> first | rfl | (split <;> rfl)
@[simp] theorem Core.setLate_task (c : Core) (n : BitVec 12) (v : Word) : (c.setLate n v).task = c.task := by unfold Core.setLate; split <;> first | rfl | (split <;> rfl)
@[simp] theorem Core.setLate_drv (c : Core) (n : BitVec 12) (v : Word) : (c.setLate n v).drv = c.drv := by unfold Core.setLate; split <;> first | rfl | (split <;> rfl)

/-! `setReading` and `endRead` keep and forget what Hearth reads for one reader. -/
@[simp] theorem State.setReading_core (s : State) (r : HRead) : (s.setReading r).core = s.core := rfl
@[simp] theorem State.setReading_others (s : State) (r : HRead) : (s.setReading r).others = s.others := rfl
@[simp] theorem State.setReading_regs (s : State) (r : HRead) : (s.setReading r).regs = s.regs := rfl
@[simp] theorem State.setReading_stackv (s : State) (r : HRead) : (s.setReading r).stackv = s.stackv := rfl
@[simp] theorem State.setReading_memory (s : State) (r : HRead) : (s.setReading r).memory = s.memory := rfl
@[simp] theorem State.setReading_groups (s : State) (r : HRead) : (s.setReading r).groups = s.groups := rfl
@[simp] theorem State.setReading_channels (s : State) (r : HRead) : (s.setReading r).channels = s.channels := rfl
@[simp] theorem State.setReading_buses (s : State) (r : HRead) : (s.setReading r).buses = s.buses := rfl
@[simp] theorem State.setReading_crucible (s : State) (r : HRead) : (s.setReading r).crucible = s.crucible := rfl
@[simp] theorem State.setReading_links (s : State) (r : HRead) : (s.setReading r).links = s.links := rfl
@[simp] theorem State.setReading_domain (s : State) (r : HRead) : (s.setReading r).domain = s.domain := rfl
@[simp] theorem State.setReading_board (s : State) (r : HRead) : (s.setReading r).board = s.board := rfl
@[simp] theorem State.setReading_outward (s : State) (r : HRead) : (s.setReading r).outward = s.outward := rfl
@[simp] theorem State.setReading_agenda (s : State) (r : HRead) : (s.setReading r).agenda = s.agenda := rfl
@[simp] theorem State.setReading_turns (s : State) (r : HRead) : (s.setReading r).turns = s.turns := rfl
@[simp] theorem State.setReading_ticks (s : State) (r : HRead) : (s.setReading r).ticks = s.ticks := rfl
@[simp] theorem State.setReading_free (s : State) (r : HRead) : (s.setReading r).free = s.free := rfl
@[simp] theorem State.endRead_core (s : State) (w : Reader) : (s.endRead w).core = s.core := rfl
@[simp] theorem State.endRead_others (s : State) (w : Reader) : (s.endRead w).others = s.others := rfl
@[simp] theorem State.endRead_regs (s : State) (w : Reader) : (s.endRead w).regs = s.regs := rfl
@[simp] theorem State.endRead_stackv (s : State) (w : Reader) : (s.endRead w).stackv = s.stackv := rfl
@[simp] theorem State.endRead_memory (s : State) (w : Reader) : (s.endRead w).memory = s.memory := rfl
@[simp] theorem State.endRead_groups (s : State) (w : Reader) : (s.endRead w).groups = s.groups := rfl
@[simp] theorem State.endRead_channels (s : State) (w : Reader) : (s.endRead w).channels = s.channels := rfl
@[simp] theorem State.endRead_buses (s : State) (w : Reader) : (s.endRead w).buses = s.buses := rfl
@[simp] theorem State.endRead_crucible (s : State) (w : Reader) : (s.endRead w).crucible = s.crucible := rfl
@[simp] theorem State.endRead_links (s : State) (w : Reader) : (s.endRead w).links = s.links := rfl
@[simp] theorem State.endRead_domain (s : State) (w : Reader) : (s.endRead w).domain = s.domain := rfl
@[simp] theorem State.endRead_board (s : State) (w : Reader) : (s.endRead w).board = s.board := rfl
@[simp] theorem State.endRead_outward (s : State) (w : Reader) : (s.endRead w).outward = s.outward := rfl
@[simp] theorem State.endRead_agenda (s : State) (w : Reader) : (s.endRead w).agenda = s.agenda := rfl
@[simp] theorem State.endRead_turns (s : State) (w : Reader) : (s.endRead w).turns = s.turns := rfl
@[simp] theorem State.endRead_ticks (s : State) (w : Reader) : (s.endRead w).ticks = s.ticks := rfl
@[simp] theorem State.endRead_free (s : State) (w : Reader) : (s.endRead w).free = s.free := rfl
/-! Landing one result. -/
@[simp] theorem Core.landVal_x (c : Core) (r : XReg) (v : Word) : c.landVal (.x r v) = c.setX r v := rfl
@[simp] theorem Core.landVal_f (c : Core) (m v : BitVec 16) : c.landVal (.f m v) = c.setF m v := rfl
@[simp] theorem Core.landVal_v (c : Core) (a : Nat) (bs : List (Nat × Byte)) : c.landVal (.v a bs) = c.setVec a bs := rfl
@[simp] theorem Core.landVal_ctl (c : Core) (n : BitVec 12) (v : Word) : c.landVal (.ctl n v) = c.setLate n v := rfl
@[simp] theorem Core.landVal_vote3 (c : Core) : c.landVal .vote3 = c := rfl

/-! Reading what was written. -/
@[simp] theorem Core.x_zero (c : Core) : c.x 0 = 0 := rfl
@[simp] theorem Core.f_zero (c : Core) : c.f 0 = true := rfl
@[simp] theorem Core.setX_zero (c : Core) (v : Word) : c.setX 0 v = c := rfl

theorem vget_vset_same {α : Type} {n : Nat} (v : Vector α n) (i : Nat) (a d : α) (h : i < n) : vget (vset v i a) i d = a := by
  simp [vget, vset, h]

theorem vget_vset_other {α : Type} {n : Nat} (v : Vector α n) (i j : Nat) (a d : α) (h : i ≠ j) :
    vget (vset v i a) j d = vget v j d := by
  unfold vget vset
  by_cases hi : i < n <;> by_cases hj : j < n <;> simp [hi, hj, Vector.getElem_set_ne, h]

/-- A register reads what was written to it, x0 apart. -/
theorem Core.x_setX_same (c : Core) (r : XReg) (v : Word) (h : r ≠ 0) : (c.setX r v).x r = v := by
  simp only [Core.setX, Core.x, h, if_false]
  exact vget_vset_same _ _ _ _ r.isLt

/-- Another register reads as before. -/
theorem Core.x_setX_other (c : Core) (r q : XReg) (v : Word) (h : q ≠ r) : (c.setX r v).x q = c.x q := by
  unfold Core.setX
  split
  · rfl
  · by_cases hq : q = 0
    · simp [Core.x, hq]
    · have hn : r.toNat ≠ q.toNat := fun e => h (BitVec.eq_of_toNat_eq e).symm
      simp only [Core.x, hq, if_false]
      exact vget_vset_other _ _ _ _ _ hn

end Sys2Proof.Machine
end

