-- ==== Sys2Proof/Laws/Fields.lean ====
section
/-! SUPPORT. Bit fields of words, association lists, stacks and launch queues by number, and what reading through an ASID and
the power limits leave alone. -/
namespace Sys2Proof.Machine
open Sys2Proof

/-! ### Association lists -/

/-- A key just set is found. -/
theorem lookupN_insertN {α : Type} (k : Nat) (v : α) (l : List (Nat × α)) : lookupN k (insertN k v l) = some v := by
  induction l with
  | nil => simp [insertN, lookupN]
  | cons a l ih => obtain ⟨a, w⟩ := a; simp only [insertN]; split_ifs with h1 h2 <;> simp [lookupN, h1, ih]

/-- A field of a number kept in a word. -/
theorem fld_ofNat (a lo n : Nat) (h : lo + n ≤ 64) : fld (BitVec.ofNat 64 a) lo n = a / 2 ^ lo % 2 ^ n := by
  unfold fld
  rw [BitVec.toNat_ofNat]
  apply Nat.eq_of_testBit_eq; intro i
  simp only [Nat.testBit_mod_two_pow, Nat.testBit_div_two_pow]
  by_cases hi : i < n <;> simp [hi] <;> omega

/-- A field of a masked word. -/
theorem fld_and (v m : Word) (lo n : Nat) : fld (v &&& m) lo n = fld v lo n &&& fld m lo n := by
  unfold fld; apply Nat.eq_of_testBit_eq; intro i
  simp only [Nat.testBit_mod_two_pow, Nat.testBit_div_two_pow, BitVec.toNat_and, Nat.testBit_and]
  by_cases hi : i < n <;> simp [hi]

/-- A field bit by bit. -/
theorem fld_testBit (v : Word) (lo n i : Nat) : (fld v lo n).testBit i = (decide (i < n) && v.getLsbD (i + lo)) := by
  unfold fld; simp [Nat.testBit_mod_two_pow, Nat.testBit_div_two_pow, BitVec.getLsbD]

/-- A field is below its bound. -/
theorem fld_lt (v : Word) (lo n : Nat) : fld v lo n < 2 ^ n := Nat.mod_lt _ (by positivity)

/-- A field that the mask keeps whole. -/
theorem fld_and_ones (v m : Word) (lo n : Nat) (h : fld m lo n = 2 ^ n - 1) : fld (v &&& m) lo n = fld v lo n := by
  rw [fld_and, h, Nat.and_two_pow_sub_one_eq_mod, Nat.mod_eq_of_lt (fld_lt _ _ _)]

/-- A word with a field replaced, bit by bit. -/
theorem putFld_bit (w : Word) (lo n v i : Nat) (h : lo + n ≤ 64) (hi : i < 64) :
    (putFld w lo n v).getLsbD i = if lo ≤ i ∧ i < lo + n then v.testBit (i - lo) else w.getLsbD i := by
  have key : w.toNat - fld w lo n * 2 ^ lo + (v % 2 ^ n) * 2 ^ lo = w.toNat / 2 ^ (lo + n) * 2 ^ (lo + n) + (v % 2 ^ n) * 2 ^ lo + w.toNat % 2 ^ lo := by
    have h1 : w.toNat = w.toNat / 2 ^ (lo + n) * 2 ^ (lo + n) + fld w lo n * 2 ^ lo + w.toNat % 2 ^ lo := by
      unfold fld
      have a := Nat.div_add_mod w.toNat (2 ^ lo)
      have b := Nat.div_add_mod (w.toNat / 2 ^ lo) (2 ^ n)
      rw [Nat.div_div_eq_div_mul] at b
      rw [pow_add]
      have c : 2 ^ lo * (2 ^ n * (w.toNat / (2 ^ lo * 2 ^ n)) + w.toNat / 2 ^ lo % 2 ^ n) = 2 ^ lo * (w.toNat / 2 ^ lo) := by rw [b]
      have d : w.toNat / (2 ^ lo * 2 ^ n) * (2 ^ lo * 2 ^ n) + w.toNat / 2 ^ lo % 2 ^ n * 2 ^ lo = 2 ^ lo * (2 ^ n * (w.toNat / (2 ^ lo * 2 ^ n)) + w.toNat / 2 ^ lo % 2 ^ n) := by ring
      omega
    omega
  unfold putFld
  rw [key]
  have hm : w.toNat % 2 ^ lo < 2 ^ lo := Nat.mod_lt _ (by positivity)
  have hv : v % 2 ^ n < 2 ^ n := Nat.mod_lt _ (by positivity)
  have e : w.toNat / 2 ^ (lo + n) * 2 ^ (lo + n) + v % 2 ^ n * 2 ^ lo + w.toNat % 2 ^ lo =
      2 ^ (lo) * (2 ^ n * (w.toNat / 2 ^ (lo + n)) + v % 2 ^ n) + w.toNat % 2 ^ lo := by rw [pow_add]; ring
  rw [e, BitVec.getLsbD_ofNat]
  rw [Nat.testBit_two_pow_mul_add _ hm]
  simp only [hi, decide_true, Bool.true_and]
  by_cases h1 : i < lo
  · have : ¬ (lo ≤ i ∧ i < lo + n) := by omega
    simp [h1, this, Nat.testBit_mod_two_pow, BitVec.getLsbD]
  · rw [if_neg h1, Nat.testBit_two_pow_mul_add _ hv]
    by_cases h2 : i - lo < n
    · have : lo ≤ i ∧ i < lo + n := by omega
      simp [h2, this, Nat.testBit_mod_two_pow]
    · have : ¬ (lo ≤ i ∧ i < lo + n) := by omega
      rw [if_neg h2, if_neg this, Nat.testBit_div_two_pow, BitVec.getLsbD]
      congr 1; omega

/-- A field just replaced. -/
theorem fld_putFld (w : Word) (lo n v : Nat) (h : lo + n ≤ 64) : fld (putFld w lo n v) lo n = v % 2 ^ n := by
  apply Nat.eq_of_testBit_eq; intro i
  rw [fld_testBit, Nat.testBit_mod_two_pow]
  by_cases hi : i < n
  · rw [putFld_bit _ _ _ _ _ h (by omega)]
    have : lo ≤ i + lo ∧ i + lo < lo + n := by omega
    simp [hi, this]
  · simp [hi]


/-! ### Stacks, launch queues, limits -/

/-- A key just removed is not found. -/
theorem lookupN_eraseN {α : Type} (k : Nat) (l : List (Nat × α)) : lookupN k (eraseN k l) = none := by
  induction l with
  | nil => rfl
  | cons a l ih =>
    obtain ⟨a, w⟩ := a
    by_cases h : a = k
    · simpa [eraseN, h] using ih
    · simpa [eraseN, h, lookupN] using ih

/-- The stack just written. -/
theorem State.stack_setStack (s : State) (k : Nat) (st : StackS) (h : k < 8) : (s.setStack k st).stack k = st := by
  simp [State.stack, State.setStack, vget, vset, h]

/-- The launch queue just written. -/
theorem State.queue_setQueue (s : State) (q : Nat) (k : LQueue) : (s.setQueue q k).queue q = k := by
  simp [State.queue, State.setQueue, lookupN_insertN]

/-- Only PWR changes with the limits: said through a state with any PWR, so that no check evaluates the word. -/
theorem State.withPwr_rest (s : State) (w : Word) :
    let t : State := { s with regs := { s.regs with telem := { s.regs.telem with pwr := w } } }
    t.core = s.core ∧ t.others = s.others ∧ t.memory = s.memory ∧ t.hearth = s.hearth ∧ t.board = s.board ∧ t.stackv = s.stackv ∧
    t.regs.m = s.regs.m ∧ t.regs.lim = s.regs.lim ∧ t.regs.telem.temp = s.regs.telem.temp := ⟨rfl, rfl, rfl, rfl, rfl, rfl, rfl, rfl, rfl⟩

/-- What following the caps leaves alone (17 R364). -/
theorem State.relimit_rest (s : State) :
    s.relimit.core = s.core ∧ s.relimit.others = s.others ∧ s.relimit.memory = s.memory ∧ s.relimit.hearth = s.hearth ∧
    s.relimit.board = s.board ∧ s.relimit.stackv = s.stackv ∧ s.relimit.regs.m = s.regs.m ∧ s.relimit.regs.lim = s.regs.lim ∧
    s.relimit.regs.telem.temp = s.regs.telem.temp := s.withPwr_rest _

/-! ### Reading through an ASID -/

/-- A fold keeps what each of its steps keeps. -/
theorem foldl_keeps {α β γ : Type} (f : α → γ) (g : α → β → α) (h : ∀ a b, f (g a b) = f a) (l : List β) (a : α) :
    f (l.foldl g a) = f a := by
  induction l generalizing a with
  | nil => rfl
  | cons b l ih => rw [List.foldl_cons, ih, h]

/-- Reading a table entry leaves the core in focus alone. -/
theorem State.pte_core (s : State) (t i) : (s.pte t i).2.core = s.core := by
  unfold State.pte; dsimp only; split <;> rfl
/-- A step of a walk leaves the core alone if what follows it does. -/
theorem State.walkStep_core (s : State) (t i) (f : Word → State → Walk × State) (h : ∀ e s', (f e s').2.core = s'.core) :
    (s.walkStep t i f).2.core = s.core := by
  unfold State.walkStep
  split
  · rfl
  · dsimp only; split
    · exact s.pte_core t i
    · rw [h]; exact s.pte_core t i
/-- So does a whole walk. -/
theorem State.walk_core (s : State) (asid va) : (s.walk asid va).2.core = s.core := by
  unfold State.walk
  dsimp only
  refine State.walkStep_core _ _ _ _ (fun _ s => State.walkStep_core s _ _ _ (fun _ s => ?_))
  split
  · rfl
  · refine State.walkStep_core _ _ _ _ (fun _ s => ?_)
    split
    · rfl
    · split
      · rfl
      · split
        · rfl
        · refine State.walkStep_core _ _ _ _ (fun _ s => ?_)
          split
          · rfl
          · split
            · rfl
            · split
              · rfl
              · exact State.walkStep_core _ _ _ _ (fun _ _ => rfl)
/-- So does a translation. -/
theorem State.translate_core (s : State) (asid va k) : (s.translate asid va k).2.core = s.core := by
  unfold State.translate
  split
  · rfl
  · have h := s.walk_core asid va
    dsimp only
    split <;> exact h
/-- Looking an address up leaves the core in focus alone. -/
theorem State.look_core (s : State) (asid va k) : (s.look asid va k).2.core = s.core := by
  have h := s.translate_core asid va k
  unfold State.look
  split
  · rfl
  · dsimp only
    repeat' (first | exact h | split)
/-- So does looking up a whole access. -/
theorem State.resolve_core (asid k) : ∀ (f : Nat) (s : State) va n acc, (State.resolve asid k f s va n acc).2.core = s.core := by
  intro f
  induction f with
  | zero => intros; rfl
  | succ f ih =>
    intro s va n acc
    unfold State.resolve
    split
    · rfl
    · dsimp only
      split
      · exact State.look_core _ _ _ _
      · exact State.look_core _ _ _ _
      · exact State.look_core _ _ _ _
      · rw [ih]; exact State.look_core _ _ _ _
/-- And the pieces of an access. -/
theorem State.segments_core (s : State) (asid k va n) : (s.segments asid k va n).2.core = s.core := State.resolve_core _ _ _ _ _ _ _
/-- Making room for a host line leaves the core alone. -/
theorem State.hostRoom_core (s : State) : s.hostRoom.core = s.core := by
  unfold State.hostRoom
  repeat' (first | rfl | split | dsimp only)
/-- Filling a host line leaves the core alone. -/
theorem State.hostFill_core (s : State) (l) : (s.hostFill l).core = s.core := by
  unfold State.hostFill
  split
  · rfl
  · exact State.hostRoom_core s
/-- Reading at the homes leaves the core alone. -/
theorem State.homeFetch_core (s : State) (pa n) : (s.homeFetch pa n).2.core = s.core := by
  unfold State.homeFetch
  refine foldl_keeps State.core (fun s (l : Nat × Nat × Nat) => s.touchL2 l.1 false) (fun _ _ => rfl) _ s
/-- Sending a message leaves the core alone. -/
theorem State.emit_core (s : State) (n m) : (s.emit n m).core = s.core := by
  unfold State.emit
  dsimp only
  apply foldl_keeps State.core
  intros; rfl
theorem State.sendMsg_core (s : State) (m) : (s.sendMsg m).core = s.core := by
  unfold State.sendMsg
  split
  · rfl
  · dsimp only; split
    · exact State.emit_core _ _ _
    · rfl
/-- Asking other modules for bytes leaves the core alone. -/
theorem State.askSegs_core (s : State) (born segs) : (s.askSegs born segs).2.core = s.core := by
  unfold State.askSegs
  refine foldl_keeps (fun (a : List (BitVec 32 × Nat × Nat) × State) => a.2.core) _ (fun a g => ?_) segs ([], s)
  dsimp only
  split
  · exact foldl_keeps (fun (a : List (BitVec 32 × Nat × Nat) × State) => a.2.core) _ (fun a p => State.sendMsg_core _ _) _ a
  · rfl
/-- Hearth's reads leave the core alone. -/
theorem State.hearthRead_core (s : State) (who asid k va n) : (s.hearthRead who asid k va n).2.core = s.core := by
  have h := s.segments_core asid k va n
  unfold State.hearthRead
  dsimp only
  split
  · exact h
  · rfl
  · exact h
  · split
    · rfl
    · split
      · split
        · exact h
        · exact (State.askSegs_core _ _ _).trans h
      · refine (foldl_keeps (fun (a : HRes × State) => a.2.core) _ (fun a g => ?_) _ _).trans h
        split
        · split
          · split
            · rfl
            · exact State.homeFetch_core _ _ _
          · exact foldl_keeps State.core _ (fun s (l : Nat × Nat × Nat) => State.hostFill_core s l.1) _ a.2
          · rfl
        · rfl
/-- Reading a word of a launch queue leaves the core alone. -/
theorem State.queueWord_core (s : State) (q k va old) : (s.queueWord q k va old).2.core = s.core := by
  unfold State.queueWord; dsimp only; split <;> exact State.hearthRead_core _ _ _ _ _ _

end Sys2Proof.Machine
end

