-- ==== Sys2Proof/Laws/Issue.lean ====
section
/-! SUPPORT. What the shared operations of issue can do, said once: a slot, its outcome, a scalar result, events. -/
namespace Sys2Proof.Machine
open Sys2Proof

/-- A slot that is suppressed has no effect (03 R74). -/
theorem issue_off {h : Head} {slot : Nat} {s : State} {body : SlotRes} (he : s.core.enabled h = false) :
    issue h slot s body = .next s := by
  simp [issue, he]

/-- An enabled slot is settled. -/
theorem issue_on {h : Head} {slot : Nat} {s : State} {body : SlotRes} (he : s.core.enabled h = true) :
    issue h slot s body = settle slot s body := by
  simp [issue, he]

/-- Issue always answers a next state: its own effect, a system fault taken, or a hold noted. -/
theorem issue_next (h : Head) (slot : Nat) (s : State) (body : SlotRes) : ∃ t, issue h slot s body = .next t := by
  unfold issue
  split
  · cases body <;> exact ⟨_, rfl⟩
  · exact ⟨_, rfl⟩

theorem settle_next (slot : Nat) (s : State) (body : SlotRes) : ∃ t, settle slot s body = .next t := by
  cases body <;> exact ⟨_, rfl⟩

/-- A vector slot always answers a next state. -/
theorem vissue_next (h : Head) (es : List Nat) (s : State) (body : SlotRes) : ∃ t, vissue h es s body = .next t := by
  unfold vissue
  split
  · exact ⟨_, rfl⟩
  · exact settle_next _ _ _

/-- A vector slot with an enabled element is settled. -/
theorem vissue_on {h : Head} {es : List Nat} {s : State} {body : SlotRes} (he : es.isEmpty = false) :
    vissue h es s body = settle (vslot h) s body := by
  simp [vissue, he]

/-- An event that can come about answers its next state. -/
@[simp] theorem enabledOr_some (name : String) (t : State) : enabledOr name (some t) = .next t := rfl
@[simp] theorem enabledOr_none (name : String) : enabledOr name none = .refused (.notEnabled name) := rfl

/-- Without TRI a scalar register result is one entry of the pending-write queue. -/
theorem xResult_plain {h : Head} {lat : Nat} {s : State} {d : XReg} {v : Word} (ht : h.tri = false) :
    xResult h lat s d v = .ok { s with core := s.core.push 0 lat (.x d v) } := by
  simp [xResult, scalarResult, ht]

/-- Under TRI with no upset the result lands one cycle later and nothing is logged. -/
theorem triCopies_calm (c : Core) (v : Word) (hu : c.front.upset = Vector.replicate 3 0) : triCopies c v = (v, v, v) := by
  simp [triCopies, hu, vget]

theorem vote_same (v : Word) : vote v v v = some v := by simp [vote]

/-- The core in focus keeps its place when something is done in it. -/
theorem State.focus_self (s : State) : s.focus s.core.cnum = some s := by simp [State.focus]

/-- What is done in the core in focus, whose number it keeps. -/
theorem State.atCore_self (s : State) (f : State → State) (hf : (f s).core.cnum = s.core.cnum) : s.atCore s.core.cnum f = f s := by
  simp [State.atCore, State.focus, hf]

theorem State.atCore?_self (s t : State) (f : State → Option State) (ht : f s = some t) (hc : t.core.cnum = s.core.cnum) :
    s.atCore? s.core.cnum f = some t := by
  simp [State.atCore?, State.focus, ht, hc]

/-- Ageing brings each result one issue cycle nearer. -/
theorem Core.age_pwq (c : Core) : c.age.pipe.pwq = c.pipe.pwq.map (fun e => { e with dist := e.dist - 1 }) := rfl

end Sys2Proof.Machine
end

