-- ==== Sys2Proof/Laws/Memory.lean ====
section
/-! SUPPORT. Byte storage: a read after a write, and that every operation keeps the canonical form. -/
namespace Sys2Proof.Machine
open Sys2Proof

/-! ### Reading below the listed addresses -/

/-- An address below every listed one reads zero. -/
theorem Memory.get_below {lo k : Nat} {m : Memory} (h : Memory.wfAbove (some lo) m = true) (hk : k ≤ lo) : m.get k = 0 := by
  cases m with
  | nil => rfl
  | cons c m =>
    obtain ⟨a, b⟩ := c
    simp only [Memory.wfAbove, Bool.and_eq_true, decide_eq_true_eq] at h
    have h1 : ¬a = k := by omega
    have h2 : k < a := by omega
    simp [Memory.get, h1, h2]

/-- Storage that lies above an address lies above every lower one. -/
theorem Memory.wfAbove_mono {lo hi : Nat} {m : Memory} (h : Memory.wfAbove (some hi) m = true) (hl : lo ≤ hi) :
    Memory.wfAbove (some lo) m = true := by
  cases m with
  | nil => rfl
  | cons c m =>
    simp only [Memory.wfAbove, Bool.and_eq_true, decide_eq_true_eq] at h ⊢
    exact ⟨⟨by omega, h.1.2⟩, h.2⟩

theorem Memory.wf_of_wfAbove {lo : Nat} {m : Memory} (h : Memory.wfAbove (some lo) m = true) : m.wf = true := by
  cases m with
  | nil => rfl
  | cons c m =>
    simp only [Memory.wf, Memory.wfAbove, Bool.and_eq_true, decide_eq_true_eq] at h ⊢
    exact ⟨⟨trivial, h.1.2⟩, h.2⟩

/-! ### The canonical form is kept -/

theorem Memory.set_wfAbove {lo : Option Nat} {m : Memory} {k : Nat} {v : Byte} (h : Memory.wfAbove lo m = true)
    (hk : ∀ l, lo = some l → l < k) : Memory.wfAbove lo (m.set k v) = true := by
  induction m generalizing lo with
  | nil =>
    by_cases hv : v = 0#8
    · simp [Memory.set, hv, Memory.wfAbove]
    · cases lo with
      | none => simp [Memory.set, hv, Memory.wfAbove]
      | some l => simp [Memory.set, hv, Memory.wfAbove, hk l rfl]
  | cons c m ih =>
    obtain ⟨a, b⟩ := c
    have hm : Memory.wfAbove (some a) m = true := by
      simp only [Memory.wfAbove, Bool.and_eq_true] at h; exact h.2
    have hb : ¬b = 0#8 := by
      simp only [Memory.wfAbove, Bool.and_eq_true, bne_iff_ne, ne_eq] at h; exact h.1.2
    unfold Memory.set
    by_cases ha : a = k
    · subst ha
      by_cases hv : v = 0#8
      · cases lo with
        | none => simpa [hv, Memory.wf] using Memory.wf_of_wfAbove hm
        | some l => simpa [hv] using Memory.wfAbove_mono hm (Nat.le_of_lt (hk l rfl))
      · cases lo with
        | none => simp [hv, Memory.wfAbove, hm]
        | some l => simp [hv, Memory.wfAbove, hm, hk l rfl]
    · by_cases hlt : k < a
      · by_cases hv : v = 0#8
        · simp [ha, hlt, hv, h]
        · cases lo with
          | none => simp [ha, hlt, hv, Memory.wfAbove, hm, hb]
          | some l => simp [ha, hlt, hv, Memory.wfAbove, hm, hb, hk l rfl]
      · have hr := ih (lo := some a) hm (fun l hl => by cases hl; omega)
        simp only [ha, hlt, if_false]
        simp only [Memory.wfAbove, Bool.and_eq_true] at h ⊢
        exact ⟨h.1, hr⟩

/-- A write of one byte keeps the canonical form. -/
@[simp] theorem Memory.set_wf {m : Memory} {k : Nat} {v : Byte} (h : m.wf = true) : (m.set k v).wf = true :=
  Memory.set_wfAbove h (fun _ hl => by cases hl)

@[simp] theorem Memory.setN_wf {m : Memory} {k : Nat} {bs : List Byte} (h : m.wf = true) : (m.setN k bs).wf = true := by
  induction bs generalizing m k with
  | nil => exact h
  | cons b bs ih => exact ih (Memory.set_wf h)

@[simp] theorem Memory.setCells_wf {m : Memory} {cs : List Host.Cell} (h : m.wf = true) : (m.setCells cs).wf = true := by
  induction cs generalizing m with
  | nil => exact h
  | cons c cs ih => exact ih (Memory.set_wf h)

theorem Memory.filter_wfAbove {lo : Option Nat} {m : Memory} (p : Host.Cell → Bool) (h : Memory.wfAbove lo m = true) :
    Memory.wfAbove lo (m.filter p) = true := by
  induction m generalizing lo with
  | nil => exact h
  | cons c m ih =>
    obtain ⟨a, b⟩ := c
    have hm : Memory.wfAbove (some a) m = true := by
      simp only [Memory.wfAbove, Bool.and_eq_true] at h; exact h.2
    rw [List.filter_cons]
    split
    · simp only [Memory.wfAbove, Bool.and_eq_true] at h ⊢
      exact ⟨h.1, ih hm⟩
    · cases lo with
      | none => exact Memory.wf_of_wfAbove (ih hm)
      | some l =>
        have hl : l < a := by
          simp only [Memory.wfAbove, Bool.and_eq_true, decide_eq_true_eq] at h; exact h.1.1
        exact Memory.wfAbove_mono (ih hm) (Nat.le_of_lt hl)

/-- Dropping cells keeps the canonical form. -/
@[simp] theorem Memory.filter_wf {m : Memory} (p : Host.Cell → Bool) (h : m.wf = true) : Memory.wf (m.filter p) = true :=
  Memory.filter_wfAbove p h

/-! ### Reads after writes -/

theorem Memory.get_set_same_above {lo : Option Nat} {m : Memory} {k : Nat} {v : Byte} (h : Memory.wfAbove lo m = true) :
    (m.set k v).get k = v := by
  induction m generalizing lo with
  | nil => by_cases hv : v = 0#8 <;> simp [Memory.set, Memory.get, hv]
  | cons c m ih =>
    obtain ⟨a, b⟩ := c
    have hm : Memory.wfAbove (some a) m = true := by
      simp only [Memory.wfAbove, Bool.and_eq_true] at h; exact h.2
    unfold Memory.set
    by_cases ha : a = k
    · subst ha
      by_cases hv : v = 0#8
      · simpa [hv] using Memory.get_below hm (Nat.le_refl a)
      · simp [hv, Memory.get]
    · by_cases hlt : k < a
      · by_cases hv : v = 0#8 <;> simp [ha, hlt, hv, Memory.get]
      · simp [ha, hlt, Memory.get, ih hm]

/-- A read after a write to the same address gives the byte written. -/
@[simp] theorem Memory.get_set_same {m : Memory} {k : Nat} {v : Byte} (h : m.wf = true) : (m.set k v).get k = v :=
  Memory.get_set_same_above h

theorem Memory.get_set_other_above {lo : Option Nat} {m : Memory} {k j : Nat} {v : Byte} (h : Memory.wfAbove lo m = true)
    (hj : j ≠ k) : (m.set k v).get j = m.get j := by
  induction m generalizing lo with
  | nil =>
    by_cases hv : v = 0#8
    · simp [Memory.set, hv]
    · have hn : ¬k = j := fun e => hj e.symm
      simp [Memory.set, Memory.get, hv, hn]
  | cons c m ih =>
    obtain ⟨a, b⟩ := c
    have hm : Memory.wfAbove (some a) m = true := by
      simp only [Memory.wfAbove, Bool.and_eq_true] at h; exact h.2
    unfold Memory.set
    by_cases ha : a = k
    · subst ha
      have hn : ¬a = j := fun e => hj e.symm
      by_cases hv : v = 0#8
      · by_cases hja : j < a
        · simp [hv, Memory.get, hn, hja, Memory.get_below hm (Nat.le_of_lt hja)]
        · simp [hv, Memory.get, hn, hja]
      · simp [hv, Memory.get, hn]
    · by_cases hlt : k < a
      · by_cases hv : v = 0#8
        · simp [ha, hlt, hv]
        · have hn : ¬k = j := fun e => hj e.symm
          by_cases hjk : j < k
          · have h1 : ¬a = j := by omega
            have h2 : j < a := by omega
            simp [ha, hlt, hv, Memory.get, hn, hjk, h1, h2]
          · simp [ha, hlt, hv, Memory.get, hn, hjk]
      · simp [ha, hlt, Memory.get, ih hm]

/-- A write leaves every other address alone. -/
@[simp] theorem Memory.get_set_other {m : Memory} {k j : Nat} {v : Byte} (h : m.wf = true) (hj : j ≠ k) :
    (m.set k v).get j = m.get j :=
  Memory.get_set_other_above h hj

theorem Memory.get_setN_other {m : Memory} {k j : Nat} {bs : List Byte} (h : m.wf = true) (hj : j < k ∨ k + bs.length ≤ j) :
    (m.setN k bs).get j = m.get j := by
  induction bs generalizing m k with
  | nil => rfl
  | cons b bs ih =>
    simp only [List.length_cons] at hj
    simp only [Memory.setN]
    rw [ih (Memory.set_wf h) (by omega), Memory.get_set_other h (by omega)]

theorem Memory.get_setN_same {m : Memory} {k i : Nat} {bs : List Byte} (h : m.wf = true) (hi : i < bs.length) :
    (m.setN k bs).get (k + i) = bs[i] := by
  induction bs generalizing m k i with
  | nil => simp at hi
  | cons b bs ih =>
    simp only [Memory.setN]
    cases i with
    | zero =>
      have := Memory.get_setN_other (bs := bs) (Memory.set_wf (k := k) (v := b) h) (Or.inl (Nat.lt_succ_self k))
      simpa [Memory.get_set_same h] using this
    | succ i =>
      have := ih (m := m.set k b) (k := k + 1) (i := i) (Memory.set_wf h) (by simpa using hi)
      rw [show k + (i + 1) = k + 1 + i by omega, this]
      rfl

theorem Memory.get_setCells_other {m : Memory} {j : Nat} {cs : List Host.Cell} (h : m.wf = true)
    (hj : ∀ c ∈ cs, c.1 ≠ j) : (m.setCells cs).get j = m.get j := by
  induction cs generalizing m with
  | nil => rfl
  | cons c cs ih =>
    simp only [Memory.setCells]
    rw [ih (Memory.set_wf h) (fun d hd => hj d (List.mem_cons_of_mem _ hd)),
      Memory.get_set_other h (fun e => hj c (List.mem_cons_self ..) e.symm)]

end Sys2Proof.Machine
end

