-- ==== Sys2Proof/Laws/PerInstr.lean ====
section
/-! SUPPORT. For every instruction: the reader of its class gives it back from its opcode and operand bits. -/
namespace Sys2Proof

/-- What the reader of the class gives for the bits that the encoder writes; an event has none. -/
def Laws.ReadsBack.Statement (i : Instr) : Prop :=
  ∀ lit, match i.enc with
    | none => True
    | some e => e.lit = none ∨ e.lit = some lit → readClass e.cls e.head e.op.toNat e.opr lit = some i

theorem Laws.ReadsBack.nop (h : Head) : Laws.ReadsBack.Statement (.nop h) := fun _ _ => rfl
theorem Laws.ReadsBack.add (h : Head) (o : SR) : Laws.ReadsBack.Statement (.add h o) := fun _ _ => readSR_bits o _
theorem Laws.ReadsBack.addi (h : Head) (o : SI) : Laws.ReadsBack.Statement (.addi h o) := fun _ hl => readSI_bits o _ _ hl
theorem Laws.ReadsBack.sub (h : Head) (o : SR) : Laws.ReadsBack.Statement (.sub h o) := fun _ _ => readSR_bits o _
theorem Laws.ReadsBack.mul (h : Head) (o : SR) : Laws.ReadsBack.Statement (.mul h o) := fun _ _ => readSR_bits o _
theorem Laws.ReadsBack.mulh (h : Head) (o : SR) : Laws.ReadsBack.Statement (.mulh h o) := fun _ _ => readSR_bits o _
theorem Laws.ReadsBack.mulhz (h : Head) (o : SR) : Laws.ReadsBack.Statement (.mulhz h o) := fun _ _ => readSR_bits o _
theorem Laws.ReadsBack.div (h : Head) (o : SR) : Laws.ReadsBack.Statement (.div h o) := fun _ _ => readSR_bits o _
theorem Laws.ReadsBack.divz (h : Head) (o : SR) : Laws.ReadsBack.Statement (.divz h o) := fun _ _ => readSR_bits o _
theorem Laws.ReadsBack.rem (h : Head) (o : SR) : Laws.ReadsBack.Statement (.rem h o) := fun _ _ => readSR_bits o _
theorem Laws.ReadsBack.remz (h : Head) (o : SR) : Laws.ReadsBack.Statement (.remz h o) := fun _ _ => readSR_bits o _
theorem Laws.ReadsBack.and (h : Head) (o : SR) : Laws.ReadsBack.Statement (.and h o) := fun _ _ => readSR_bits o _
theorem Laws.ReadsBack.or (h : Head) (o : SR) : Laws.ReadsBack.Statement (.or h o) := fun _ _ => readSR_bits o _
theorem Laws.ReadsBack.xor (h : Head) (o : SR) : Laws.ReadsBack.Statement (.xor h o) := fun _ _ => readSR_bits o _
theorem Laws.ReadsBack.andn (h : Head) (o : SR) : Laws.ReadsBack.Statement (.andn h o) := fun _ _ => readSR_bits o _
theorem Laws.ReadsBack.andi (h : Head) (o : SI) : Laws.ReadsBack.Statement (.andi h o) := fun _ hl => readSI_bits o _ _ hl
theorem Laws.ReadsBack.ori (h : Head) (o : SI) : Laws.ReadsBack.Statement (.ori h o) := fun _ hl => readSI_bits o _ _ hl
theorem Laws.ReadsBack.xori (h : Head) (o : SI) : Laws.ReadsBack.Statement (.xori h o) := fun _ hl => readSI_bits o _ _ hl
theorem Laws.ReadsBack.shl (h : Head) (o : SR) : Laws.ReadsBack.Statement (.shl h o) := fun _ _ => readSR_bits o _
theorem Laws.ReadsBack.shr (h : Head) (o : SR) : Laws.ReadsBack.Statement (.shr h o) := fun _ _ => readSR_bits o _
theorem Laws.ReadsBack.shra (h : Head) (o : SR) : Laws.ReadsBack.Statement (.shra h o) := fun _ _ => readSR_bits o _
theorem Laws.ReadsBack.shli (h : Head) (o : SI) : Laws.ReadsBack.Statement (.shli h o) := fun _ hl => readSI_bits o _ _ hl
theorem Laws.ReadsBack.shri (h : Head) (o : SI) : Laws.ReadsBack.Statement (.shri h o) := fun _ hl => readSI_bits o _ _ hl
theorem Laws.ReadsBack.shrai (h : Head) (o : SI) : Laws.ReadsBack.Statement (.shrai h o) := fun _ hl => readSI_bits o _ _ hl
theorem Laws.ReadsBack.rot (h : Head) (o : SR) : Laws.ReadsBack.Statement (.rot h o) := fun _ _ => readSR_bits o _
theorem Laws.ReadsBack.clz (h : Head) (o : SR) : Laws.ReadsBack.Statement (.clz h o) := fun _ _ => readSR_bits o _
theorem Laws.ReadsBack.popc (h : Head) (o : SR) : Laws.ReadsBack.Statement (.popc h o) := fun _ _ => readSR_bits o _
theorem Laws.ReadsBack.min (h : Head) (o : SR) : Laws.ReadsBack.Statement (.min h o) := fun _ _ => readSR_bits o _
theorem Laws.ReadsBack.max (h : Head) (o : SR) : Laws.ReadsBack.Statement (.max h o) := fun _ _ => readSR_bits o _
theorem Laws.ReadsBack.minz (h : Head) (o : SR) : Laws.ReadsBack.Statement (.minz h o) := fun _ _ => readSR_bits o _
theorem Laws.ReadsBack.maxz (h : Head) (o : SR) : Laws.ReadsBack.Statement (.maxz h o) := fun _ _ => readSR_bits o _
theorem Laws.ReadsBack.mov (h : Head) (o : SR) : Laws.ReadsBack.Statement (.mov h o) := fun _ _ => readSR_bits o _
theorem Laws.ReadsBack.movi (h : Head) (o : SI) : Laws.ReadsBack.Statement (.movi h o) := fun _ hl => readSI_bits o _ _ hl
theorem Laws.ReadsBack.ext (h : Head) (o : SR) : Laws.ReadsBack.Statement (.ext h o) := fun _ _ => readSR_bits o _
theorem Laws.ReadsBack.ins (h : Head) (o : SR) : Laws.ReadsBack.Statement (.ins h o) := fun _ _ => readSR_bits o _
theorem Laws.ReadsBack.lea (h : Head) (o : SR) : Laws.ReadsBack.Statement (.lea h o) := fun _ _ => readSR_bits o _
theorem Laws.ReadsBack.sext (h : Head) (o : SR) : Laws.ReadsBack.Statement (.sext h o) := fun _ _ => readSR_bits o _
theorem Laws.ReadsBack.ldsp (h : Head) (o : SP) : Laws.ReadsBack.Statement (.ldsp h o) := fun _ _ => readSP_bits o _
theorem Laws.ReadsBack.stsp (h : Head) (o : SP) : Laws.ReadsBack.Statement (.stsp h o) := fun _ _ => readSP_bits o _
theorem Laws.ReadsBack.cmp (h : Head) (o : SC) : Laws.ReadsBack.Statement (.cmp h o) := fun _ _ => readSC_bits o _
theorem Laws.ReadsBack.cmpi (h : Head) (o : SC) (lit : Word) : Laws.ReadsBack.Statement (.cmpi h o lit) := by
  intro l hl
  have hh : lit = l := by simpa using hl
  subst hh
  exact readSC_bits o (fun o => .cmpi h o lit)
theorem Laws.ReadsBack.tbit (h : Head) (o : SC) : Laws.ReadsBack.Statement (.tbit h o) := fun _ _ => readSC_bits o _
theorem Laws.ReadsBack.pset (h : Head) (o : SR) : Laws.ReadsBack.Statement (.pset h o) := fun _ _ => readSR_bits o _
theorem Laws.ReadsBack.pget (h : Head) (o : SR) : Laws.ReadsBack.Statement (.pget h o) := fun _ _ => readSR_bits o _
theorem Laws.ReadsBack.pput (h : Head) (o : SR) : Laws.ReadsBack.Statement (.pput h o) := fun _ _ => readSR_bits o _
theorem Laws.ReadsBack.cmpt (h : Head) (o : SR) : Laws.ReadsBack.Statement (.cmpt h o) := fun _ _ => readSR_bits o _
theorem Laws.ReadsBack.br (h : Head) (o : SJ) : Laws.ReadsBack.Statement (.br h o) := fun _ _ => readSJ_bits o _
theorem Laws.ReadsBack.brm (h : Head) (o : SM) (lit : Word) : Laws.ReadsBack.Statement (.brm h o lit) := by
  intro l hl
  have hh : lit = l := by simpa using hl
  subst hh
  exact readSM_bits o (fun o => .brm h o lit)
theorem Laws.ReadsBack.jmp (h : Head) (o : SR) : Laws.ReadsBack.Statement (.jmp h o) := fun _ _ => readSR_bits o _
theorem Laws.ReadsBack.call (h : Head) (o : SJ) : Laws.ReadsBack.Statement (.call h o) := fun _ _ => readSJ_bits o _
theorem Laws.ReadsBack.ret (h : Head) (o : SR) : Laws.ReadsBack.Statement (.ret h o) := fun _ _ => readSR_bits o _
theorem Laws.ReadsBack.brloop (h : Head) (o : SJ) : Laws.ReadsBack.Statement (.brloop h o) := fun _ _ => readSJ_bits o _
theorem Laws.ReadsBack.endTask (h : Head) : Laws.ReadsBack.Statement (.endTask h) := fun _ _ => rfl
theorem Laws.ReadsBack.wait (h : Head) (o : SI) : Laws.ReadsBack.Statement (.wait h o) := fun _ hl => readSI_bits o _ _ hl
theorem Laws.ReadsBack.fmt (h : Head) (o : SI) : Laws.ReadsBack.Statement (.fmt h o) := fun _ hl => readSI_bits o _ _ hl
theorem Laws.ReadsBack.view (h : Head) (o : SI) : Laws.ReadsBack.Statement (.view h o) := fun _ hl => readSI_bits o _ _ hl
theorem Laws.ReadsBack.mvfc (h : Head) (o : SI) : Laws.ReadsBack.Statement (.mvfc h o) := fun _ hl => readSI_bits o _ _ hl
theorem Laws.ReadsBack.mvtc (h : Head) (o : SI) : Laws.ReadsBack.Statement (.mvtc h o) := fun _ hl => readSI_bits o _ _ hl
theorem Laws.ReadsBack.lock (h : Head) (o : SI) : Laws.ReadsBack.Statement (.lock h o) := fun _ hl => readSI_bits o _ _ hl
theorem Laws.ReadsBack.unlock (h : Head) : Laws.ReadsBack.Statement (.unlock h) := fun _ _ => rfl
theorem Laws.ReadsBack.bflip (h : Head) : Laws.ReadsBack.Statement (.bflip h) := fun _ _ => rfl
theorem Laws.ReadsBack.specx (h : Head) : Laws.ReadsBack.Statement (.specx h) := fun _ _ => rfl
theorem Laws.ReadsBack.trap (h : Head) (o : SI) : Laws.ReadsBack.Statement (.trap h o) := fun _ hl => readSI_bits o _ _ hl
theorem Laws.ReadsBack.eret (h : Head) : Laws.ReadsBack.Statement (.eret h) := fun _ _ => rfl
theorem Laws.ReadsBack.tick (h : Head) (o : SR) : Laws.ReadsBack.Statement (.tick h o) := fun _ _ => readSR_bits o _
theorem Laws.ReadsBack.vnop (h : Head) : Laws.ReadsBack.Statement (.vnop h) := fun _ _ => rfl
theorem Laws.ReadsBack.vadd (h : Head) (o : VR) : Laws.ReadsBack.Statement (.vadd h o) := fun _ _ => readVR_bits o _
theorem Laws.ReadsBack.vsub (h : Head) (o : VR) : Laws.ReadsBack.Statement (.vsub h o) := fun _ _ => readVR_bits o _
theorem Laws.ReadsBack.vmul (h : Head) (o : VR) : Laws.ReadsBack.Statement (.vmul h o) := fun _ _ => readVR_bits o _
theorem Laws.ReadsBack.vmad (h : Head) (o : VR) : Laws.ReadsBack.Statement (.vmad h o) := fun _ _ => readVR_bits o _
theorem Laws.ReadsBack.vmin (h : Head) (o : VR) : Laws.ReadsBack.Statement (.vmin h o) := fun _ _ => readVR_bits o _
theorem Laws.ReadsBack.vmax (h : Head) (o : VR) : Laws.ReadsBack.Statement (.vmax h o) := fun _ _ => readVR_bits o _
theorem Laws.ReadsBack.vabs (h : Head) (o : VR) : Laws.ReadsBack.Statement (.vabs h o) := fun _ _ => readVR_bits o _
theorem Laws.ReadsBack.vneg (h : Head) (o : VR) : Laws.ReadsBack.Statement (.vneg h o) := fun _ _ => readVR_bits o _
theorem Laws.ReadsBack.vand (h : Head) (o : VR) : Laws.ReadsBack.Statement (.vand h o) := fun _ _ => readVR_bits o _
theorem Laws.ReadsBack.vor (h : Head) (o : VR) : Laws.ReadsBack.Statement (.vor h o) := fun _ _ => readVR_bits o _
theorem Laws.ReadsBack.vxor (h : Head) (o : VR) : Laws.ReadsBack.Statement (.vxor h o) := fun _ _ => readVR_bits o _
theorem Laws.ReadsBack.vshl (h : Head) (o : VR) : Laws.ReadsBack.Statement (.vshl h o) := fun _ _ => readVR_bits o _
theorem Laws.ReadsBack.vshr (h : Head) (o : VR) : Laws.ReadsBack.Statement (.vshr h o) := fun _ _ => readVR_bits o _
theorem Laws.ReadsBack.vshra (h : Head) (o : VR) : Laws.ReadsBack.Statement (.vshra h o) := fun _ _ => readVR_bits o _
theorem Laws.ReadsBack.vclz (h : Head) (o : VR) : Laws.ReadsBack.Statement (.vclz h o) := fun _ _ => readVR_bits o _
theorem Laws.ReadsBack.vpopc (h : Head) (o : VR) : Laws.ReadsBack.Statement (.vpopc h o) := fun _ _ => readVR_bits o _
theorem Laws.ReadsBack.vwadd (h : Head) (o : VR) : Laws.ReadsBack.Statement (.vwadd h o) := fun _ _ => readVR_bits o _
theorem Laws.ReadsBack.vwmad (h : Head) (o : VR) : Laws.ReadsBack.Statement (.vwmad h o) := fun _ _ => readVR_bits o _
theorem Laws.ReadsBack.vsat (h : Head) (o : VR) : Laws.ReadsBack.Statement (.vsat h o) := fun _ _ => readVR_bits o _
theorem Laws.ReadsBack.vcvt (h : Head) (o : VR) : Laws.ReadsBack.Statement (.vcvt h o) := fun _ _ => readVR_bits o _
theorem Laws.ReadsBack.vrcp (h : Head) (o : VR) : Laws.ReadsBack.Statement (.vrcp h o) := fun _ _ => readVR_bits o _
theorem Laws.ReadsBack.vrsq (h : Head) (o : VR) : Laws.ReadsBack.Statement (.vrsq h o) := fun _ _ => readVR_bits o _
theorem Laws.ReadsBack.vexp2 (h : Head) (o : VR) : Laws.ReadsBack.Statement (.vexp2 h o) := fun _ _ => readVR_bits o _
theorem Laws.ReadsBack.vlog2 (h : Head) (o : VR) : Laws.ReadsBack.Statement (.vlog2 h o) := fun _ _ => readVR_bits o _
theorem Laws.ReadsBack.vcmp (h : Head) (o : VC) : Laws.ReadsBack.Statement (.vcmp h o) := fun _ _ => readVC_bits o _
theorem Laws.ReadsBack.vpset (h : Head) (o : VR) : Laws.ReadsBack.Statement (.vpset h o) := fun _ _ => readVR_bits o _
theorem Laws.ReadsBack.vpcnt (h : Head) (o : VR) : Laws.ReadsBack.Statement (.vpcnt h o) := fun _ _ => readVR_bits o _
theorem Laws.ReadsBack.vpany (h : Head) (o : VR) : Laws.ReadsBack.Statement (.vpany h o) := fun _ _ => readVR_bits o _
theorem Laws.ReadsBack.vrsum (h : Head) (o : VR) : Laws.ReadsBack.Statement (.vrsum h o) := fun _ _ => readVR_bits o _
theorem Laws.ReadsBack.vrmax (h : Head) (o : VR) : Laws.ReadsBack.Statement (.vrmax h o) := fun _ _ => readVR_bits o _
theorem Laws.ReadsBack.vrmin (h : Head) (o : VR) : Laws.ReadsBack.Statement (.vrmin h o) := fun _ _ => readVR_bits o _
theorem Laws.ReadsBack.vscan (h : Head) (o : VR) : Laws.ReadsBack.Statement (.vscan h o) := fun _ _ => readVR_bits o _
theorem Laws.ReadsBack.vperm (h : Head) (o : VR) : Laws.ReadsBack.Statement (.vperm h o) := fun _ _ => readVR_bits o _
theorem Laws.ReadsBack.vbcast (h : Head) (o : VR) : Laws.ReadsBack.Statement (.vbcast h o) := fun _ _ => readVR_bits o _
theorem Laws.ReadsBack.vslide (h : Head) (o : VR) : Laws.ReadsBack.Statement (.vslide h o) := fun _ _ => readVR_bits o _
theorem Laws.ReadsBack.viota (h : Head) (o : VR) : Laws.ReadsBack.Statement (.viota h o) := fun _ _ => readVR_bits o _
theorem Laws.ReadsBack.vmov (h : Head) (o : VR) : Laws.ReadsBack.Statement (.vmov h o) := fun _ _ => readVR_bits o _
theorem Laws.ReadsBack.vmovi (h : Head) (o : VR) : Laws.ReadsBack.Statement (.vmovi h o) := fun _ _ => readVR_bits o _
theorem Laws.ReadsBack.vgetl (h : Head) (o : VR) : Laws.ReadsBack.Statement (.vgetl h o) := fun _ _ => readVR_bits o _
theorem Laws.ReadsBack.vputl (h : Head) (o : VR) : Laws.ReadsBack.Statement (.vputl h o) := fun _ _ => readVR_bits o _
theorem Laws.ReadsBack.vld (h : Head) (o : VM) : Laws.ReadsBack.Statement (.vld h o) := fun _ _ => readVM_bits o _
theorem Laws.ReadsBack.vst (h : Head) (o : VM) : Laws.ReadsBack.Statement (.vst h o) := fun _ _ => readVM_bits o _
theorem Laws.ReadsBack.vgather (h : Head) (o : VM) : Laws.ReadsBack.Statement (.vgather h o) := fun _ _ => readVM_bits o _
theorem Laws.ReadsBack.vscatter (h : Head) (o : VM) : Laws.ReadsBack.Statement (.vscatter h o) := fun _ _ => readVM_bits o _
theorem Laws.ReadsBack.vlds (h : Head) (o : VM) : Laws.ReadsBack.Statement (.vlds h o) := fun _ _ => readVM_bits o _
theorem Laws.ReadsBack.vsts (h : Head) (o : VM) : Laws.ReadsBack.Statement (.vsts h o) := fun _ _ => readVM_bits o _
theorem Laws.ReadsBack.vcmpt (h : Head) (o : VR) : Laws.ReadsBack.Statement (.vcmpt h o) := fun _ _ => readVR_bits o _
theorem Laws.ReadsBack.mnop (h : Head) : Laws.ReadsBack.Statement (.mnop h) := fun _ _ => rfl
theorem Laws.ReadsBack.mld (h : Head) (o : MT) : Laws.ReadsBack.Statement (.mld h o) := fun _ _ => readMT_bits o _
theorem Laws.ReadsBack.mst (h : Head) (o : MT) : Laws.ReadsBack.Statement (.mst h o) := fun _ _ => readMT_bits o _
theorem Laws.ReadsBack.mzero (h : Head) (o : ML) : Laws.ReadsBack.Statement (.mzero h o) := fun _ _ => readML_bits o _
theorem Laws.ReadsBack.mma (h : Head) (o : MA) : Laws.ReadsBack.Statement (.mma h o) := fun _ _ => readMA_bits o _
theorem Laws.ReadsBack.mmas (h : Head) (o : MA) : Laws.ReadsBack.Statement (.mmas h o) := fun _ _ => readMA_bits o _
theorem Laws.ReadsBack.mnorm (h : Head) (o : ML) : Laws.ReadsBack.Statement (.mnorm h o) := fun _ _ => readML_bits o _
theorem Laws.ReadsBack.mout (h : Head) (o : ML) : Laws.ReadsBack.Statement (.mout h o) := fun _ _ => readML_bits o _
theorem Laws.ReadsBack.mcvt (h : Head) (o : ML) : Laws.ReadsBack.Statement (.mcvt h o) := fun _ _ => readML_bits o _
theorem Laws.ReadsBack.mtrn (h : Head) (o : ML) : Laws.ReadsBack.Statement (.mtrn h o) := fun _ _ => readML_bits o _
theorem Laws.ReadsBack.mfac (h : Head) (o : ML) : Laws.ReadsBack.Statement (.mfac h o) := fun _ _ => readML_bits o _
theorem Laws.ReadsBack.lrmul (h : Head) (o : ML) : Laws.ReadsBack.Statement (.lrmul h o) := fun _ _ => readML_bits o _
theorem Laws.ReadsBack.lradd (h : Head) (o : ML) : Laws.ReadsBack.Statement (.lradd h o) := fun _ _ => readML_bits o _
theorem Laws.ReadsBack.mtemper (h : Head) (o : ML) : Laws.ReadsBack.Statement (.mtemper h o) := fun _ _ => readML_bits o _
theorem Laws.ReadsBack.mdense (h : Head) (o : ML) : Laws.ReadsBack.Statement (.mdense h o) := fun _ _ => readML_bits o _
theorem Laws.ReadsBack.lrmma (h : Head) (o : MA) : Laws.ReadsBack.Statement (.lrmma h o) := fun _ _ => readMA_bits o _
theorem Laws.ReadsBack.mrank (h : Head) (o : ML) : Laws.ReadsBack.Statement (.mrank h o) := fun _ _ => readML_bits o _
theorem Laws.ReadsBack.cnop (h : Head) : Laws.ReadsBack.Statement (.cnop h) := fun _ _ => rfl
theorem Laws.ReadsBack.cpy (h : Head) (o : CB) : Laws.ReadsBack.Statement (.cpy h o) := fun _ _ => readCB_bits o _
theorem Laws.ReadsBack.cpyr (h : Head) (o : CB) : Laws.ReadsBack.Statement (.cpyr h o) := fun _ _ => readCB_bits o _
theorem Laws.ReadsBack.radv (h : Head) (o : CB) : Laws.ReadsBack.Statement (.radv h o) := fun _ _ => readCB_bits o _
theorem Laws.ReadsBack.ldg (h : Head) (o : CA) : Laws.ReadsBack.Statement (.ldg h o) := fun _ _ => readCA_bits o _
theorem Laws.ReadsBack.stg (h : Head) (o : CA) : Laws.ReadsBack.Statement (.stg h o) := fun _ _ => readCA_bits o _
theorem Laws.ReadsBack.vldg (h : Head) (o : CV) : Laws.ReadsBack.Statement (.vldg h o) := fun _ _ => readCV_bits o _
theorem Laws.ReadsBack.vstg (h : Head) (o : CV) : Laws.ReadsBack.Statement (.vstg h o) := fun _ _ => readCV_bits o _
theorem Laws.ReadsBack.amo (h : Head) (o : CA) : Laws.ReadsBack.Statement (.amo h o) := fun _ _ => readCA_bits o _
theorem Laws.ReadsBack.cas (h : Head) (o : CA) : Laws.ReadsBack.Statement (.cas h o) := fun _ _ => readCA_bits o _
theorem Laws.ReadsBack.fence (h : Head) (o : CA) : Laws.ReadsBack.Statement (.fence h o) := fun _ _ => readCA_bits o _
theorem Laws.ReadsBack.waitaddr (h : Head) (o : CA) : Laws.ReadsBack.Statement (.waitaddr h o) := fun _ _ => readCA_bits o _
theorem Laws.ReadsBack.bind (h : Head) (o : CA) : Laws.ReadsBack.Statement (.bind h o) := fun _ _ => readCA_bits o _
theorem Laws.ReadsBack.unbind (h : Head) (o : CA) : Laws.ReadsBack.Statement (.unbind h o) := fun _ _ => readCA_bits o _
theorem Laws.ReadsBack.bar (h : Head) (o : CB) : Laws.ReadsBack.Statement (.bar h o) := fun _ _ => readCB_bits o _
theorem Laws.ReadsBack.bara (h : Head) (o : CB) : Laws.ReadsBack.Statement (.bara h o) := fun _ _ => readCB_bits o _
theorem Laws.ReadsBack.barw (h : Head) (o : CB) : Laws.ReadsBack.Statement (.barw h o) := fun _ _ => readCB_bits o _
theorem Laws.ReadsBack.sstep (h : Head) (o : CB) : Laws.ReadsBack.Statement (.sstep h o) := fun _ _ => readCB_bits o _
theorem Laws.ReadsBack.bcast (h : Head) (o : CB) : Laws.ReadsBack.Statement (.bcast h o) := fun _ _ => readCB_bits o _
theorem Laws.ReadsBack.latch (h : Head) (o : CB) : Laws.ReadsBack.Statement (.latch h o) := fun _ _ => readCB_bits o _
theorem Laws.ReadsBack.lsend (h : Head) (o : CB) : Laws.ReadsBack.Statement (.lsend h o) := fun _ _ => readCB_bits o _
theorem Laws.ReadsBack.lrecv (h : Head) (o : CB) : Laws.ReadsBack.Statement (.lrecv h o) := fun _ _ => readCB_bits o _
theorem Laws.ReadsBack.khash (h : Head) (o : CK) : Laws.ReadsBack.Statement (.khash h o) := fun _ _ => readCK_bits o _
theorem Laws.ReadsBack.klook (h : Head) (o : CK) : Laws.ReadsBack.Statement (.klook h o) := fun _ _ => readCK_bits o _
theorem Laws.ReadsBack.kopen (h : Head) (o : CK) : Laws.ReadsBack.Statement (.kopen h o) := fun _ _ => readCK_bits o _
theorem Laws.ReadsBack.kwr (h : Head) (o : CK) : Laws.ReadsBack.Statement (.kwr h o) := fun _ _ => readCK_bits o _
theorem Laws.ReadsBack.kseal (h : Head) (o : CK) : Laws.ReadsBack.Statement (.kseal h o) := fun _ _ => readCK_bits o _
theorem Laws.ReadsBack.klease (h : Head) (o : CK) : Laws.ReadsBack.Statement (.klease h o) := fun _ _ => readCK_bits o _
theorem Laws.ReadsBack.kref (h : Head) (o : CK) : Laws.ReadsBack.Statement (.kref h o) := fun _ _ => readCK_bits o _
theorem Laws.ReadsBack.kunref (h : Head) (o : CK) : Laws.ReadsBack.Statement (.kunref h o) := fun _ _ => readCK_bits o _
theorem Laws.ReadsBack.kld (h : Head) (o : CK) : Laws.ReadsBack.Statement (.kld h o) := fun _ _ => readCK_bits o _
theorem Laws.ReadsBack.krepl (h : Head) (o : CK) : Laws.ReadsBack.Statement (.krepl h o) := fun _ _ => readCK_bits o _
theorem Laws.ReadsBack.kstat (h : Head) (o : CK) : Laws.ReadsBack.Statement (.kstat h o) := fun _ _ => readCK_bits o _
theorem Laws.ReadsBack.kdrop (h : Head) (o : CK) : Laws.ReadsBack.Statement (.kdrop h o) := fun _ _ => readCK_bits o _
theorem Laws.ReadsBack.resultLanding (c : Nat) : Laws.ReadsBack.Statement (.resultLanding c) := fun _ => trivial
theorem Laws.ReadsBack.heldBundleIssue (c : Nat) : Laws.ReadsBack.Statement (.heldBundleIssue c) := fun _ => trivial
theorem Laws.ReadsBack.gatherFreezeEnd (c : Nat) : Laws.ReadsBack.Statement (.gatherFreezeEnd c) := fun _ => trivial
theorem Laws.ReadsBack.bellowsFreezeEnd (c : Nat) : Laws.ReadsBack.Statement (.bellowsFreezeEnd c) := fun _ => trivial
theorem Laws.ReadsBack.programTrapEntry (c : Nat) : Laws.ReadsBack.Statement (.programTrapEntry c) := fun _ => trivial
theorem Laws.ReadsBack.eretResume (c : Nat) : Laws.ReadsBack.Statement (.eretResume c) := fun _ => trivial
theorem Laws.ReadsBack.matrixReadHoldClear (c : Nat) : Laws.ReadsBack.Statement (.matrixReadHoldClear c) := fun _ => trivial
theorem Laws.ReadsBack.matrixComplete (c : Nat) : Laws.ReadsBack.Statement (.matrixComplete c) := fun _ => trivial
theorem Laws.ReadsBack.copyComplete (c : Nat) (o : CopyEnd) : Laws.ReadsBack.Statement (.copyComplete c o) := fun _ => trivial
theorem Laws.ReadsBack.memoryAccessComplete (c seq : Nat) : Laws.ReadsBack.Statement (.memoryAccessComplete c seq) := fun _ => trivial
theorem Laws.ReadsBack.crucibleCommandComplete (c seq : Nat) : Laws.ReadsBack.Statement (.crucibleCommandComplete c seq) := fun _ => trivial
theorem Laws.ReadsBack.lsendDelivered (c seq : Nat) : Laws.ReadsBack.Statement (.lsendDelivered c seq) := fun _ => trivial
theorem Laws.ReadsBack.waitaddrPoll (c seq : Nat) : Laws.ReadsBack.Statement (.waitaddrPoll c seq) := fun _ => trivial
theorem Laws.ReadsBack.waitaddrTimeout (c seq : Nat) : Laws.ReadsBack.Statement (.waitaddrTimeout c seq) := fun _ => trivial
theorem Laws.ReadsBack.wsRefreshWindowEnd (stk grp : Nat) : Laws.ReadsBack.Statement (.wsRefreshWindowEnd stk grp) := fun _ => trivial
theorem Laws.ReadsBack.retryBackoffExpire (c seq : Nat) : Laws.ReadsBack.Statement (.retryBackoffExpire c seq) := fun _ => trivial
theorem Laws.ReadsBack.tailWordChange (q : Nat) : Laws.ReadsBack.Statement (.tailWordChange q) := fun _ => trivial
theorem Laws.ReadsBack.launchRecord (q : Nat) : Laws.ReadsBack.Statement (.launchRecord q) := fun _ => trivial
theorem Laws.ReadsBack.ageBoundary : Laws.ReadsBack.Statement (.ageBoundary) := fun _ => trivial
theorem Laws.ReadsBack.unplaceableReport (serial : Nat) : Laws.ReadsBack.Statement (.unplaceableReport serial) := fun _ => trivial
theorem Laws.ReadsBack.taskEntry (c : Nat) : Laws.ReadsBack.Statement (.taskEntry c) := fun _ => trivial
theorem Laws.ReadsBack.coreRetire (c : Nat) : Laws.ReadsBack.Statement (.coreRetire c) := fun _ => trivial
theorem Laws.ReadsBack.readMiss (agent line : Nat) : Laws.ReadsBack.Statement (.readMiss agent line) := fun _ => trivial
theorem Laws.ReadsBack.checkOut (agent line : Nat) : Laws.ReadsBack.Statement (.checkOut agent line) := fun _ => trivial
theorem Laws.ReadsBack.checkIn (agent line : Nat) : Laws.ReadsBack.Statement (.checkIn agent line) := fun _ => trivial
theorem Laws.ReadsBack.invalidation (agent line : Nat) : Laws.ReadsBack.Statement (.invalidation agent line) := fun _ => trivial
theorem Laws.ReadsBack.invalidationAck (agent line : Nat) : Laws.ReadsBack.Statement (.invalidationAck agent line) := fun _ => trivial
theorem Laws.ReadsBack.silentDrop (agent line : Nat) : Laws.ReadsBack.Statement (.silentDrop agent line) := fun _ => trivial
theorem Laws.ReadsBack.scPerform (c seq : Nat) : Laws.ReadsBack.Statement (.scPerform c seq) := fun _ => trivial
theorem Laws.ReadsBack.stackRemoval (stk : Nat) : Laws.ReadsBack.Statement (.stackRemoval stk) := fun _ => trivial
theorem Laws.ReadsBack.moduleRemoval (mid : Nat) : Laws.ReadsBack.Statement (.moduleRemoval mid) := fun _ => trivial
theorem Laws.ReadsBack.hostSnoopResponse (line : Nat) : Laws.ReadsBack.Statement (.hostSnoopResponse line) := fun _ => trivial
theorem Laws.ReadsBack.hostSnoop (line : Nat) (inval : Bool) (store : List Byte) : Laws.ReadsBack.Statement (.hostSnoop line inval store) := fun _ => trivial
theorem Laws.ReadsBack.hostCxlMemWrite (a : HostSite) (bytes : List Byte) : Laws.ReadsBack.Statement (.hostCxlMemWrite a bytes) := fun _ => trivial
theorem Laws.ReadsBack.hostCxlMemRead (a : HostSite) (len : Nat) : Laws.ReadsBack.Statement (.hostCxlMemRead a len) := fun _ => trivial
theorem Laws.ReadsBack.cxlMemHeldTimeout (idx : Nat) : Laws.ReadsBack.Statement (.cxlMemHeldTimeout idx) := fun _ => trivial
theorem Laws.ReadsBack.hdmDecoderCommit (port dec : Nat) (m : HdmMap) (size : Nat) : Laws.ReadsBack.Statement (.hdmDecoderCommit port dec m size) := fun _ => trivial
theorem Laws.ReadsBack.sealComplete (slot : Nat) : Laws.ReadsBack.Statement (.sealComplete slot) := fun _ => trivial
theorem Laws.ReadsBack.demoteComplete (slot : Nat) : Laws.ReadsBack.Statement (.demoteComplete slot) := fun _ => trivial
theorem Laws.ReadsBack.leaseExpire (slot : Nat) : Laws.ReadsBack.Statement (.leaseExpire slot) := fun _ => trivial
theorem Laws.ReadsBack.replicaBlockMoved (c seq : Nat) : Laws.ReadsBack.Statement (.replicaBlockMoved c seq) := fun _ => trivial
theorem Laws.ReadsBack.storeTick : Laws.ReadsBack.Statement (.storeTick) := fun _ => trivial
theorem Laws.ReadsBack.ueDetected (c bank : Nat) (unit kind : Byte) (addr : Word) : Laws.ReadsBack.Statement (.ueDetected c bank unit kind addr) := fun _ => trivial
theorem Laws.ReadsBack.ceDetected (bank : Nat) (synd : BitVec 16) (unit kind : Byte) (addr : Word) : Laws.ReadsBack.Statement (.ceDetected bank synd unit kind addr) := fun _ => trivial
theorem Laws.ReadsBack.errorBankClear (bank : Nat) (cev uev : Bool) : Laws.ReadsBack.Statement (.errorBankClear bank cev uev) := fun _ => trivial
theorem Laws.ReadsBack.cctlPhase (c : Nat) : Laws.ReadsBack.Statement (.cctlPhase c) := fun _ => trivial
theorem Laws.ReadsBack.cctlForce (c : Nat) : Laws.ReadsBack.Statement (.cctlForce c) := fun _ => trivial
theorem Laws.ReadsBack.cctlResume (c : Nat) : Laws.ReadsBack.Statement (.cctlResume c) := fun _ => trivial
theorem Laws.ReadsBack.cctlEnd (c : Nat) : Laws.ReadsBack.Statement (.cctlEnd c) := fun _ => trivial
theorem Laws.ReadsBack.cctlCancel (c : Nat) : Laws.ReadsBack.Statement (.cctlCancel c) := fun _ => trivial
theorem Laws.ReadsBack.contextSaveDone (c : Nat) : Laws.ReadsBack.Statement (.contextSaveDone c) := fun _ => trivial
theorem Laws.ReadsBack.contextRestore (c : Nat) : Laws.ReadsBack.Statement (.contextRestore c) := fun _ => trivial
theorem Laws.ReadsBack.contextRestoreDone (c : Nat) : Laws.ReadsBack.Statement (.contextRestoreDone c) := fun _ => trivial
theorem Laws.ReadsBack.tokclr (c : Nat) (mask : Byte) : Laws.ReadsBack.Statement (.tokclr c mask) := fun _ => trivial
theorem Laws.ReadsBack.xlrespRetry (c : Nat) (unit : Bool) : Laws.ReadsBack.Statement (.xlrespRetry c unit) := fun _ => trivial
theorem Laws.ReadsBack.xlrespRefuse (c : Nat) (unit : Bool) : Laws.ReadsBack.Statement (.xlrespRefuse c unit) := fun _ => trivial
theorem Laws.ReadsBack.evheadWrite (v : Word) : Laws.ReadsBack.Statement (.evheadWrite v) := fun _ => trivial
theorem Laws.ReadsBack.kill (asid : BitVec 12) : Laws.ReadsBack.Statement (.kill asid) := fun _ => trivial
theorem Laws.ReadsBack.killDone : Laws.ReadsBack.Statement (.killDone) := fun _ => trivial
theorem Laws.ReadsBack.frameMigrate (old new : BitVec 36) : Laws.ReadsBack.Statement (.frameMigrate old new) := fun _ => trivial
theorem Laws.ReadsBack.frameMigrateDone : Laws.ReadsBack.Statement (.frameMigrateDone) := fun _ => trivial
theorem Laws.ReadsBack.frameReleaseRemap : Laws.ReadsBack.Statement (.frameReleaseRemap) := fun _ => trivial
theorem Laws.ReadsBack.moduleReset : Laws.ReadsBack.Statement (.moduleReset) := fun _ => trivial
theorem Laws.ReadsBack.fwauthDone (ok0 ok1 : Bool) (ver0 ver1 sec0 sec1 : Nat) : Laws.ReadsBack.Statement (.fwauthDone ok0 ok1 ver0 ver1 sec0 sec1) := fun _ => trivial
theorem Laws.ReadsBack.meminitDone (hbmOk selfOk : Bool) (halves : List (BitVec 192)) : Laws.ReadsBack.Statement (.meminitDone hbmOk selfOk halves) := fun _ => trivial
theorem Laws.ReadsBack.mstateGo : Laws.ReadsBack.Statement (.mstateGo) := fun _ => trivial
theorem Laws.ReadsBack.hcfgWrite (v : Word) : Laws.ReadsBack.Statement (.hcfgWrite v) := fun _ => trivial
theorem Laws.ReadsBack.shootdown (v : Word) : Laws.ReadsBack.Statement (.shootdown v) := fun _ => trivial
theorem Laws.ReadsBack.shootdownDone : Laws.ReadsBack.Statement (.shootdownDone) := fun _ => trivial
theorem Laws.ReadsBack.ovlinvByIdent : Laws.ReadsBack.Statement (.ovlinvByIdent) := fun _ => trivial
theorem Laws.ReadsBack.ovlinvByAsid (asid : BitVec 12) : Laws.ReadsBack.Statement (.ovlinvByAsid asid) := fun _ => trivial
theorem Laws.ReadsBack.ovlinvAll : Laws.ReadsBack.Statement (.ovlinvAll) := fun _ => trivial
theorem Laws.ReadsBack.nsCreate (slot : Nat) : Laws.ReadsBack.Statement (.nsCreate slot) := fun _ => trivial
theorem Laws.ReadsBack.nsDestroy (slot : Nat) : Laws.ReadsBack.Statement (.nsDestroy slot) := fun _ => trivial
theorem Laws.ReadsBack.nsRights (slot : Nat) : Laws.ReadsBack.Statement (.nsRights slot) := fun _ => trivial
theorem Laws.ReadsBack.zadmit (v : Word) : Laws.ReadsBack.Statement (.zadmit v) := fun _ => trivial
theorem Laws.ReadsBack.lqEnable (q : Nat) (v : Word) : Laws.ReadsBack.Statement (.lqEnable q v) := fun _ => trivial
theorem Laws.ReadsBack.lqDisable (q : Nat) (v : Word) : Laws.ReadsBack.Statement (.lqDisable q v) := fun _ => trivial
theorem Laws.ReadsBack.lqRestart (q : Nat) : Laws.ReadsBack.Statement (.lqRestart q) := fun _ => trivial
theorem Laws.ReadsBack.slabEntryWrite (stk i : Nat) (v : Word) : Laws.ReadsBack.Statement (.slabEntryWrite stk i v) := fun _ => trivial
theorem Laws.ReadsBack.cbindWrite (stk f : Nat) (v : Word) : Laws.ReadsBack.Statement (.cbindWrite stk f v) := fun _ => trivial
theorem Laws.ReadsBack.bankRoleWrite (stk i : Nat) (pairs : Bool) (v : Word) : Laws.ReadsBack.Statement (.bankRoleWrite stk i pairs v) := fun _ => trivial
theorem Laws.ReadsBack.roleDrainDone (stk i : Nat) : Laws.ReadsBack.Statement (.roleDrainDone stk i) := fun _ => trivial
theorem Laws.ReadsBack.wsLoad (stk : Nat) (v : Word) : Laws.ReadsBack.Statement (.wsLoad stk v) := fun _ => trivial
theorem Laws.ReadsBack.wsLoadDone (stk : Nat) (ue : Bool) : Laws.ReadsBack.Statement (.wsLoadDone stk ue) := fun _ => trivial
theorem Laws.ReadsBack.crmarkWrite (v : Word) : Laws.ReadsBack.Statement (.crmarkWrite v) := fun _ => trivial
theorem Laws.ReadsBack.hlccfgWrite (v : Word) : Laws.ReadsBack.Statement (.hlccfgWrite v) := fun _ => trivial
theorem Laws.ReadsBack.limiterWrite (off : Nat) (v : Word) : Laws.ReadsBack.Statement (.limiterWrite off v) := fun _ => trivial
theorem Laws.ReadsBack.thermalCapTick (m : Sensors) : Laws.ReadsBack.Statement (.thermalCapTick m) := fun _ => trivial
theorem Laws.ReadsBack.thermalShutdown (die : BitVec 16) : Laws.ReadsBack.Statement (.thermalShutdown die) := fun _ => trivial
theorem Laws.ReadsBack.linkEnable (n : Nat) : Laws.ReadsBack.Statement (.linkEnable n) := fun _ => trivial
theorem Laws.ReadsBack.linkTrained (n : Nat) (ok : Bool) (rtt peerMid peerLink peerNmod peerInc : Nat) : Laws.ReadsBack.Statement (.linkTrained n ok rtt peerMid peerLink peerNmod peerInc) := fun _ => trivial
theorem Laws.ReadsBack.routeWrite (d : Nat) (v : Word) : Laws.ReadsBack.Statement (.routeWrite d v) := fun _ => trivial
theorem Laws.ReadsBack.routeSwitch (d : Nat) : Laws.ReadsBack.Statement (.routeSwitch d) := fun _ => trivial
theorem Laws.ReadsBack.registerWrite (off : Nat) (v : Word) : Laws.ReadsBack.Statement (.registerWrite off v) := fun _ => trivial
theorem Laws.ReadsBack.dataFlit (n : Nat) (bytes : List Byte) : Laws.ReadsBack.Statement (.dataFlit n bytes) := fun _ => trivial
theorem Laws.ReadsBack.linkNak (n : Nat) (seq : BitVec 12) : Laws.ReadsBack.Statement (.linkNak n seq) := fun _ => trivial
theorem Laws.ReadsBack.linkPause (n : Nat) (vl : BitVec 2) : Laws.ReadsBack.Statement (.linkPause n vl) := fun _ => trivial
theorem Laws.ReadsBack.linkResume (n : Nat) (vl : BitVec 2) : Laws.ReadsBack.Statement (.linkResume n vl) := fun _ => trivial
theorem Laws.ReadsBack.linkCpause (n : Nat) (ch : BitVec 12) : Laws.ReadsBack.Statement (.linkCpause n ch) := fun _ => trivial
theorem Laws.ReadsBack.linkCresume (n : Nat) (ch : BitVec 12) : Laws.ReadsBack.Statement (.linkCresume n ch) := fun _ => trivial
theorem Laws.ReadsBack.linkIdle (n : Nat) (ack : BitVec 12) : Laws.ReadsBack.Statement (.linkIdle n ack) := fun _ => trivial
theorem Laws.ReadsBack.nakRepeat (n : Nat) : Laws.ReadsBack.Statement (.nakRepeat n) := fun _ => trivial
theorem Laws.ReadsBack.pauseRepeat (n : Nat) : Laws.ReadsBack.Statement (.pauseRepeat n) := fun _ => trivial
theorem Laws.ReadsBack.resumeRepeat (n : Nat) : Laws.ReadsBack.Statement (.resumeRepeat n) := fun _ => trivial
theorem Laws.ReadsBack.memoryRequestMsg (n : Nat) : Laws.ReadsBack.Statement (.memoryRequestMsg n) := fun _ => trivial
theorem Laws.ReadsBack.responseMsg (n : Nat) : Laws.ReadsBack.Statement (.responseMsg n) := fun _ => trivial
theorem Laws.ReadsBack.linkMessageMsg (n : Nat) : Laws.ReadsBack.Statement (.linkMessageMsg n) := fun _ => trivial
theorem Laws.ReadsBack.barrierMsg (n : Nat) : Laws.ReadsBack.Statement (.barrierMsg n) := fun _ => trivial
theorem Laws.ReadsBack.nodeDirectoryMsg (n : Nat) : Laws.ReadsBack.Statement (.nodeDirectoryMsg n) := fun _ => trivial
theorem Laws.ReadsBack.timeBaseMsg (n : Nat) : Laws.ReadsBack.Statement (.timeBaseMsg n) := fun _ => trivial
theorem Laws.ReadsBack.managementMsg (n : Nat) : Laws.ReadsBack.Statement (.managementMsg n) := fun _ => trivial
theorem Laws.ReadsBack.pldmFirmwareUpdate (ver sec : Nat) (bytes : List Byte) : Laws.ReadsBack.Statement (.pldmFirmwareUpdate ver sec bytes) := fun _ => trivial
theorem Laws.ReadsBack.securityFloorAdvance : Laws.ReadsBack.Statement (.securityFloorAdvance) := fun _ => trivial
theorem Laws.ReadsBack.spdmNegotiateAlgorithms : Laws.ReadsBack.Statement (.spdmNegotiateAlgorithms) := fun _ => trivial
theorem Laws.ReadsBack.spdmGetCertificate : Laws.ReadsBack.Statement (.spdmGetCertificate) := fun _ => trivial
theorem Laws.ReadsBack.spdmChallenge (nonce : BitVec 256) : Laws.ReadsBack.Statement (.spdmChallenge nonce) := fun _ => trivial
theorem Laws.ReadsBack.spdmGetMeasurements (idx : Nat) : Laws.ReadsBack.Statement (.spdmGetMeasurements idx) := fun _ => trivial
theorem Laws.ReadsBack.powerUp : Laws.ReadsBack.Statement (.powerUp) := fun _ => trivial
theorem Laws.ReadsBack.powerRemoval : Laws.ReadsBack.Statement (.powerRemoval) := fun _ => trivial
theorem Laws.ReadsBack.cxlLinkDown (port : Bool) : Laws.ReadsBack.Statement (.cxlLinkDown port) := fun _ => trivial

end Sys2Proof
end

