-- ==== Sys2Proof/Laws/Touch.lean ====
section
/-! SUPPORT. A read at a home leaves everything but the L2's order of use as it is (05 R375); the reads of channel and namespace tables, of
sealed blocks and the marks of bank pairs are such reads and marks. And what the small updates of lockstep and of Hearth leave alone. -/
namespace Sys2Proof.Machine
open Sys2Proof

/-- Two states are the same but for the contents of their L2s. -/
abbrev State.butL2 (s t : State) : Prop := ∃ l, t = { s with memory := { s.memory with l2 := l } }

theorem State.butL2_refl (s : State) : s.butL2 s := ⟨_, rfl⟩
theorem State.butL2_trans {s t u : State} (h : s.butL2 t) (k : t.butL2 u) : s.butL2 u := by
  obtain ⟨l, rfl⟩ := h
  obtain ⟨m, rfl⟩ := k
  exact ⟨m, rfl⟩

/-- Folding updates that change the L2 alone changes the L2 alone. -/
theorem foldl_butL2 {α : Type} (f : State → α → State) (h : ∀ s a, State.butL2 s (f s a)) (l : List α) (s : State) :
    State.butL2 s (l.foldl f s) := by
  induction l generalizing s with
  | nil => exact s.butL2_refl
  | cons a l ih => exact State.butL2_trans (h s a) (ih _)

/-- One line used. -/
theorem State.touchL2_spec (s : State) (line : Nat) (w : Bool) : s.butL2 (s.touchL2 line w) := ⟨_, rfl⟩
/-- A read at a home. -/
theorem State.homeFetch_spec (s : State) (pa n : Nat) : s.butL2 (s.homeFetch pa n).2 :=
  foldl_butL2 _ (fun s (l : Nat × Nat × Nat) => s.touchL2_spec l.1 false) _ _
/-- A search of the channel table. -/
theorem State.chTouch_spec (s : State) (e : ChEntry) : s.butL2 (s.chTouch e) := s.homeFetch_spec _ _
/-- A read of a namespace's block and rights. -/
theorem State.nsTouch_spec (s : State) (slot : Nat) : s.butL2 (s.nsTouch slot) :=
  State.butL2_trans (s.homeFetch_spec _ _) (State.homeFetch_spec _ _ _)
/-- A read of a sealed block. -/
theorem State.blockTouch_spec (s : State) (b : Block) (off n : Nat) : s.butL2 (s.blockTouch b off n) :=
  foldl_butL2 _ (fun s (e : Nat × Nat × Nat) => s.homeFetch_spec e.1 e.2.2) _ _
/-- The reads of a KLD. -/
theorem State.kldTouch_spec (s : State) (pin : Option Nat) (n : KNode) (p : NSpace) (arg : Word) : s.butL2 (s.kldTouch pin n p arg) := by
  unfold State.kldTouch
  refine foldl_butL2 _ (fun u i => ?_) _ _
  dsimp only
  split
  · exact foldl_butL2 _ (fun u (e : Nat × Nat) => u.blockTouch_spec _ e.1 e.2) _ _
  · exact u.butL2_refl

/-- Marking bank pairs touches nothing but the phase's mark. -/
theorem State.touchAll_spec (s : State) (ext : List (Nat × Nat)) :
    ∃ m, s.touchAll ext = { s with core := { s.core with phase := { s.core.phase with specBanks := m } } } := by
  unfold State.touchAll
  induction ext generalizing s with
  | nil => exact ⟨_, rfl⟩
  | cons e l ih =>
    obtain ⟨m, h⟩ := ih (s.touchPairs e.1 e.2)
    exact ⟨m, h⟩
/-- So does what a cancelled speculative command would have written (08 R212). -/
theorem State.specMarks_spec (s : State) (k : Cmd) :
    ∃ m, s.specMarks k = { s with core := { s.core with phase := { s.core.phase with specBanks := m } } } := by
  unfold State.specMarks
  split
  · exact ⟨_, rfl⟩
  · split <;> first | exact s.touchAll_spec _ | exact ⟨_, rfl⟩

/-- `ungrant` takes back the leave to issue a LOCK or UNLOCK of the bundle that has just issued. -/
@[simp] theorem State.ungrant_granted (s : State) : s.ungrant.core.front.granted = false := rfl
@[simp] theorem State.ungrant_pc (s : State) : s.ungrant.core.front.pc = s.core.front.pc := rfl
@[simp] theorem State.ungrant_stat (s : State) : s.ungrant.core.front.stat = s.core.front.stat := rfl
@[simp] theorem State.ungrant_regs (s : State) : s.ungrant.core.regs = s.core.regs := rfl
@[simp] theorem State.ungrant_ctl (s : State) : s.ungrant.core.ctl = s.core.ctl := rfl
@[simp] theorem State.ungrant_pipe (s : State) : s.ungrant.core.pipe = s.core.pipe := rfl
@[simp] theorem State.ungrant_units (s : State) : s.ungrant.core.units = s.core.units := rfl
@[simp] theorem State.ungrant_others (s : State) : s.ungrant.others = s.others := rfl
@[simp] theorem State.ungrant_memory (s : State) : s.ungrant.memory = s.memory := rfl
/-- `resumeAt` lets held mates go on; the core in focus stands. -/
@[simp] theorem State.resumeAt_core (s : State) (cid : Nat) (m : BitVec 8) : (s.resumeAt cid m).core = s.core := rfl
@[simp] theorem State.resumeAt_memory (s : State) (cid : Nat) (m : BitVec 8) : (s.resumeAt cid m).memory = s.memory := rfl
@[simp] theorem State.resumeAt_regs (s : State) (cid : Nat) (m : BitVec 8) : (s.resumeAt cid m).regs = s.regs := rfl
@[simp] theorem State.resumeAt_crucible (s : State) (cid : Nat) (m : BitVec 8) : (s.resumeAt cid m).crucible = s.crucible := rfl
/-- `awaitWrite` notes a write of Hearth that another module has to answer. -/
@[simp] theorem State.awaitWrite_core (s : State) (a : BitVec 12) (t : BitVec 32) : (s.awaitWrite a t).core = s.core := rfl
@[simp] theorem State.awaitWrite_memory (s : State) (a : BitVec 12) (t : BitVec 32) : (s.awaitWrite a t).memory = s.memory := rfl
@[simp] theorem State.awaitWrite_regs (s : State) (a : BitVec 12) (t : BitVec 32) : (s.awaitWrite a t).regs = s.regs := rfl
@[simp] theorem State.awaitWrite_writes (s : State) (a : BitVec 12) (t : BitVec 32) :
    (s.awaitWrite a t).hearth.writes = s.hearth.writes ++ [(t, a)] := rfl
/-- `hostClean` leaves no line of an ASID owned by the host. -/
theorem State.hostClean_spec (s : State) (a : BitVec 12) : ∀ l ∈ (s.hostClean a).memory.host, l.asid = a → l.owned = false := by
  intro l h
  simp only [State.hostClean, List.mem_map] at h
  obtain ⟨k, -, rfl⟩ := h
  split
  · intro; rfl
  · intro ha; contradiction

end Sys2Proof.Machine
end

