-- ==== Sys2Proof/Tests/Slice0.lean ====
section
/-! SUPPORT. Tests: ill-formed terms that WellFormed refuses, the words of every opcode written from Tables 7.3 to 7.9, a witness for the hypotheses of
every statement, and a few values that the spec works out. -/
namespace Sys2Proof.Tests
open Sys2Proof
open Sys2Proof.Machine

/-- The head of a slot that is always enabled. -/
def u : Head := ⟨false, false, 0, 0, 0, 0xFF, false⟩
/-- The same in unit 1, and with TRI. -/
def uu : Head := ⟨true, false, 0, 0, 0, 0xFF, false⟩
def ut : Head := ⟨false, false, 0, 0, 0, 0xFF, true⟩

def wordsS0 : List (Word × Word × Instr) := [
  (0x000FF00000000000, 0, .nop u),
  (0x000FF01A56CC0000, 0, .add u ⟨41, 22, 51, 0⟩),
  (0x000FF02A56512345, 0, .addi u ⟨41, 22, .imm 0x512345⟩),
  (0x000FF02A56800000, 0xFEDCBA9876543210, .addi u ⟨41, 22, .lit 0xFEDCBA9876543210⟩),
  (0x000FF03A56CC0000, 0, .sub u ⟨41, 22, 51, 0⟩),
  (0x000FF04A56CC0000, 0, .mul u ⟨41, 22, 51, 0⟩),
  (0x000FF05A56CC0000, 0, .mulh u ⟨41, 22, 51, 0⟩),
  (0x000FF06A56CC0000, 0, .mulhz u ⟨41, 22, 51, 0⟩),
  (0x000FF07A56CC0000, 0, .div u ⟨41, 22, 51, 0⟩),
  (0x000FF08A56CC0000, 0, .divz u ⟨41, 22, 51, 0⟩),
  (0x000FF09A56CC0000, 0, .rem u ⟨41, 22, 51, 0⟩),
  (0x000FF0AA56CC0000, 0, .remz u ⟨41, 22, 51, 0⟩)]
def wordsS1 : List (Word × Word × Instr) := [
  (0x000FF0BA56CC0000, 0, .and u ⟨41, 22, 51, 0⟩),
  (0x000FF0CA56CC0000, 0, .or u ⟨41, 22, 51, 0⟩),
  (0x000FF0DA56CC0000, 0, .xor u ⟨41, 22, 51, 0⟩),
  (0x000FF0EA56CC0000, 0, .andn u ⟨41, 22, 51, 0⟩),
  (0x000FF0FA56512345, 0, .andi u ⟨41, 22, .imm 0x512345⟩),
  (0x000FF0FA56800000, 0xFEDCBA9876543210, .andi u ⟨41, 22, .lit 0xFEDCBA9876543210⟩),
  (0x000FF10A56512345, 0, .ori u ⟨41, 22, .imm 0x512345⟩),
  (0x000FF11A56512345, 0, .xori u ⟨41, 22, .imm 0x512345⟩),
  (0x000FF12A56CC0000, 0, .shl u ⟨41, 22, 51, 0⟩),
  (0x000FF13A56CC0000, 0, .shr u ⟨41, 22, 51, 0⟩),
  (0x000FF14A56CC0000, 0, .shra u ⟨41, 22, 51, 0⟩),
  (0x000FF15A5600003F, 0, .shli u ⟨41, 22, .imm 0x3F⟩)]
def wordsS2 : List (Word × Word × Instr) := [
  (0x000FF16A5600003E, 0, .shri u ⟨41, 22, .imm 0x3E⟩),
  (0x000FF17A5600003D, 0, .shrai u ⟨41, 22, .imm 0x3D⟩),
  (0x000FF18A56CC0000, 0, .rot u ⟨41, 22, 51, 0⟩),
  (0x000FF19A56000000, 0, .clz u ⟨41, 22, 0, 0⟩),
  (0x000FF1AA56000000, 0, .popc u ⟨41, 22, 0, 0⟩),
  (0x000FF1BA56CC0000, 0, .min u ⟨41, 22, 51, 0⟩),
  (0x000FF1CA56CC0000, 0, .max u ⟨41, 22, 51, 0⟩),
  (0x000FF1DA56CC0000, 0, .minz u ⟨41, 22, 51, 0⟩),
  (0x000FF1EA56CC0000, 0, .maxz u ⟨41, 22, 51, 0⟩),
  (0x000FF1FA56000000, 0, .mov u ⟨41, 22, 0, 0⟩),
  (0x000FF20A40512345, 0, .movi u ⟨41, 0, .imm 0x512345⟩),
  (0x000FF20A40800000, 0xFEDCBA9876543210, .movi u ⟨41, 0, .lit 0xFEDCBA9876543210⟩)]
def wordsS3 : List (Word × Word × Instr) := [
  (0x000FF21A56CC0000, 0, .ext u ⟨41, 22, 51, 0⟩),
  (0x000FF22A56CC0000, 0, .ins u ⟨41, 22, 51, 0⟩),
  (0x000FF23A56CC6000, 0, .lea u ⟨41, 22, 51, 6⟩),
  (0x000FF24A56002000, 0, .sext u ⟨41, 22, 0, 2⟩),
  (0x000FF28A56B12345, 0, .ldsp u ⟨41, 22, 5, 0x112345⟩),
  (0x000FF29A56B12345, 0, .stsp u ⟨41, 22, 5, 0x112345⟩),
  (0x000FF30967A7A5C3, 0, .cmp u ⟨9, 6, .le, true, 41, .imm 0x1A5C3⟩),
  (0x000FF3096AA4D800, 0, .cmp u ⟨9, 6, .ge, false, 41, .reg 27⟩),
  (0x000FF31969A40000, 0x123456789ABCDEF0, .cmpi u ⟨9, 6, .gt, true, 41, .reg 0⟩ 0x123456789ABCDEF0),
  (0x000FF32962A6003F, 0, .tbit u ⟨9, 6, .ne, false, 41, .imm 63⟩),
  (0x000FF333D6000000, 0, .pset u ⟨15, 22, 0, 0⟩),
  (0x000FF34A40000000, 0, .pget u ⟨41, 0, 0, 0⟩)]
def wordsS4 : List (Word × Word × Instr) := [
  (0x000FF35016CC0000, 0, .pput u ⟨0, 22, 51, 0⟩),
  (0x000FF38016CC0000, 0, .cmpt u ⟨0, 22, 51, 0⟩),
  (0x000FF40AAF37BC6B, 0, .br u ⟨0x2ABCDEF1, 43⟩),
  (0x000FF4196D030000, 0x123456789ABCDEF, .brm u ⟨9, 6, 13, 0, 3⟩ 0x0123456789ABCDEF),
  (0x000FF42016000000, 0, .jmp u ⟨0, 22, 0, 0⟩),
  (0x000FF43AAF37BC6B, 0, .call u ⟨0x2ABCDEF1, 43⟩),
  (0x000FF44016000000, 0, .ret u ⟨0, 22, 0, 0⟩),
  (0x000FF45AAF37BC6B, 0, .brloop u ⟨0x2ABCDEF1, 43⟩),
  (0x000FF46000000000, 0, .endTask u),
  (0x000FF48000000081, 0, .wait u ⟨0, 0, .imm 0x81⟩),
  (0x000FF49016512345, 0, .fmt u ⟨0, 22, .imm 0x512345⟩),
  (0x000FF49016800000, 0xFEDCBA9876543210, .fmt u ⟨0, 22, .lit 0xFEDCBA9876543210⟩)]
def wordsS5 : List (Word × Word × Instr) := [
  (0x000FF4A0D6512345, 0, .view u ⟨3, 22, .imm 0x512345⟩),
  (0x000FF4BA40000801, 0, .mvfc u ⟨41, 0, .imm 0x801⟩),
  (0x000FF4C016000017, 0, .mvtc u ⟨0, 22, .imm 0x17⟩),
  (0x000FF4D0000000A5, 0, .lock u ⟨0, 0, .imm 0xA5⟩),
  (0x000FF4E000000000, 0, .bflip u),
  (0x000FF4F000000000, 0, .specx u),
  (0x000FF50000512345, 0, .trap u ⟨0, 0, .imm 0x512345⟩),
  (0x000FF51000000000, 0, .eret u),
  (0x000FF52000000000, 0, .unlock u),
  (0x000FF53A40000000, 0, .tick u ⟨41, 0, 0, 0⟩)]
theorem test_decode_wordsS0 : wordsS0.all (fun e => decodeSlot 0 false e.1 e.2.1 == some e.2.2) = true := by decide
theorem test_decode_wordsS1 : wordsS1.all (fun e => decodeSlot 0 false e.1 e.2.1 == some e.2.2) = true := by decide
theorem test_decode_wordsS2 : wordsS2.all (fun e => decodeSlot 0 false e.1 e.2.1 == some e.2.2) = true := by decide
theorem test_decode_wordsS3 : wordsS3.all (fun e => decodeSlot 0 false e.1 e.2.1 == some e.2.2) = true := by decide
theorem test_decode_wordsS4 : wordsS4.all (fun e => decodeSlot 0 false e.1 e.2.1 == some e.2.2) = true := by decide
theorem test_decode_wordsS5 : wordsS5.all (fun e => decodeSlot 0 false e.1 e.2.1 == some e.2.2) = true := by decide
def wordsV0 : List (Word × Word × Instr) := [
  (0x000FF00000000000, 0, .vnop u),
  (0x000FF01AF1B15641, 0, .vadd u ⟨700, 433, 345, .s8, false, true⟩),
  (0x000FF02AF1B15645, 0, .vsub u ⟨700, 433, 345, .s16, false, true⟩),
  (0x000FF03AF1B15649, 0, .vmul u ⟨700, 433, 345, .s32, false, true⟩),
  (0x000FF04AF1B1564D, 0, .vmad u ⟨700, 433, 345, .s64, false, true⟩),
  (0x000FF05AF1B15652, 0, .vmin u ⟨700, 433, 345, .z8, true, false⟩),
  (0x000FF06AF1B15656, 0, .vmax u ⟨700, 433, 345, .z16, true, false⟩),
  (0x000FF07AF1B10019, 0, .vabs u ⟨700, 433, 0, .z32, false, true⟩),
  (0x000FF08AF1B1001D, 0, .vneg u ⟨700, 433, 0, .z64, false, true⟩),
  (0x000FF09AF1B15661, 0, .vand u ⟨700, 433, 345, .bf16, false, true⟩),
  (0x000FF0AAF1B15665, 0, .vor u ⟨700, 433, 345, .f32, false, true⟩),
  (0x000FF0BAF1B15669, 0, .vxor u ⟨700, 433, 345, .t8, false, true⟩)]
def wordsV1 : List (Word × Word × Instr) := [
  (0x000FF0CAF1B1566E, 0, .vshl u ⟨700, 433, 345, .t6, true, false⟩),
  (0x000FF0DAF1B15642, 0, .vshr u ⟨700, 433, 345, .s8, true, false⟩),
  (0x000FF0EAF1B15646, 0, .vshra u ⟨700, 433, 345, .s16, true, false⟩),
  (0x000FF0FAF1B10008, 0, .vclz u ⟨700, 433, 0, .s32, false, false⟩),
  (0x000FF10AF1B1000C, 0, .vpopc u ⟨700, 433, 0, .s64, false, false⟩),
  (0x000FF11AF1B15651, 0, .vwadd u ⟨700, 433, 345, .z8, false, true⟩),
  (0x000FF12AF1B15655, 0, .vwmad u ⟨700, 433, 345, .z16, false, true⟩),
  (0x000FF13AF1B15659, 0, .vsat u ⟨700, 433, 345, .z32, false, true⟩),
  (0x000FF14AF1B1A2DC, 0, .vcvt u ⟨700, 433, 651, .z64, false, false⟩),
  (0x000FF15AF1B10020, 0, .vrcp u ⟨700, 433, 0, .bf16, false, false⟩),
  (0x000FF16AF1B10024, 0, .vrsq u ⟨700, 433, 0, .f32, false, false⟩),
  (0x000FF17AF1B10028, 0, .vexp2 u ⟨700, 433, 0, .t8, false, false⟩)]
def wordsV2 : List (Word × Word × Instr) := [
  (0x000FF18AF1B1002C, 0, .vlog2 u ⟨700, 433, 0, .t6, false, false⟩),
  (0x000FF2096AF1B141, 0, .vcmp u ⟨9, 6, 700, 433, .lt, .s8, true⟩),
  (0x000FF21035B15644, 0, .vpset u ⟨13, 433, 345, .s16, false, false⟩),
  (0x000FF220A40D0008, 0, .vpcnt u ⟨41, 13, 0, .s32, false, false⟩),
  (0x000FF2303406000C, 0, .vpany u ⟨13, 6, 0, .s64, false, false⟩),
  (0x000FF28AF1B10010, 0, .vrsum u ⟨700, 433, 0, .z8, false, false⟩),
  (0x000FF29AF1B10014, 0, .vrmax u ⟨700, 433, 0, .z16, false, false⟩),
  (0x000FF2AAF1B10018, 0, .vrmin u ⟨700, 433, 0, .z32, false, false⟩),
  (0x000FF2BAF1B1001D, 0, .vscan u ⟨700, 433, 0, .z64, false, true⟩),
  (0x000FF30AF1B15660, 0, .vperm u ⟨700, 433, 345, .bf16, false, false⟩),
  (0x000FF31AF0290025, 0, .vbcast u ⟨700, 41, 0, .f32, false, true⟩),
  (0x000FF32AF1B10A69, 0, .vslide u ⟨700, 433, 41, .t8, false, true⟩)]
def wordsV3 : List (Word × Word × Instr) := [
  (0x000FF33AF000566D, 0, .viota u ⟨700, 0, 345, .t6, false, true⟩),
  (0x000FF34AF1B10000, 0, .vmov u ⟨700, 433, 0, .s8, false, false⟩),
  (0x000FF35AF0005646, 0, .vmovi u ⟨700, 0, 345, .s16, true, false⟩),
  (0x000FF360A5B106C8, 0, .vgetl u ⟨41, 433, 27, .s32, false, false⟩),
  (0x000FF37AF02906CC, 0, .vputl u ⟨700, 41, 27, .s64, false, false⟩),
  (0x000FF40AF2900004, 0, .vld u ⟨700, 41, 0, 0, false, 0, .z8⟩),
  (0x000FF41AF2900005, 0, .vst u ⟨700, 41, 0, 0, false, 0, .z16⟩),
  (0x000FF42AF296C6D6, 0, .vgather u ⟨700, 41, 433, 2, true, 5, .z32⟩),
  (0x000FF43AF296C6D7, 0, .vscatter u ⟨700, 41, 433, 2, true, 5, .z64⟩),
  (0x000FF44AF290AC68, 0, .vlds u ⟨700, 41, 43, 0, false, 6, .bf16⟩),
  (0x000FF45AF290AC69, 0, .vsts u ⟨700, 41, 43, 0, false, 6, .f32⟩),
  (0x000FF48001B15668, 0, .vcmpt u ⟨0, 433, 345, .t8, false, false⟩)]
theorem test_decode_wordsV0 : wordsV0.all (fun e => decodeSlot 1 false e.1 e.2.1 == some e.2.2) = true := by decide
theorem test_decode_wordsV1 : wordsV1.all (fun e => decodeSlot 1 false e.1 e.2.1 == some e.2.2) = true := by decide
theorem test_decode_wordsV2 : wordsV2.all (fun e => decodeSlot 1 false e.1 e.2.1 == some e.2.2) = true := by decide
theorem test_decode_wordsV3 : wordsV3.all (fun e => decodeSlot 1 false e.1 e.2.1 == some e.2.2) = true := by decide
def wordsM0 : List (Word × Word × Instr) := [
  (0x000FF00000000000, 0, .mnop u),
  (0x000FF01AD6CF7B4E, 0, .mld u ⟨43, 22, 51, true, .t6, true, 5, 41, true, true⟩),
  (0x000FF02AD6CE0000, 0, .mst u ⟨43, 22, 51, true, .s8, false, 0, 0, false, false⟩),
  (0x000FF03016024400, 0, .mzero u ⟨0, 22, 0, 9, 1⟩),
  (0x000FF048AAE69800, 0, .mma u ⟨true, 5, false, 43, 9, 41, true, 0⟩),
  (0x000FF058AAE69B00, 0, .mmas u ⟨true, 5, false, 43, 9, 41, true, 3⟩),
  (0x000FF06000024000, 0, .mnorm u ⟨0, 0, 0, 9, 0⟩),
  (0x000FF07AC0024400, 0, .mout u ⟨43, 0, 0, 9, 1⟩),
  (0x000FF08AD6000000, 0, .mcvt u ⟨43, 22, 0, 0, 0⟩),
  (0x000FF09AD6000000, 0, .mtrn u ⟨43, 22, 0, 0, 0⟩),
  (0x000FF10AD6CC0800, 0, .mfac u ⟨43, 22, 51, 0, 2⟩),
  (0x000FF11AD6CC0000, 0, .lrmul u ⟨43, 22, 51, 0, 0⟩)]
def wordsM1 : List (Word × Word × Instr) := [
  (0x000FF12AD6CC0400, 0, .lradd u ⟨43, 22, 51, 0, 1⟩),
  (0x000FF13AD6000000, 0, .mtemper u ⟨43, 22, 0, 0, 0⟩),
  (0x000FF14AD6000000, 0, .mdense u ⟨43, 22, 0, 0, 0⟩),
  (0x000FF158AAE69800, 0, .lrmma u ⟨true, 5, false, 43, 9, 41, true, 0⟩),
  (0x000FF16AD6000000, 0, .mrank u ⟨43, 22, 0, 0, 0⟩)]
theorem test_decode_wordsM0 : wordsM0.all (fun e => decodeSlot 3 false e.1 e.2.1 == some e.2.2) = true := by decide
theorem test_decode_wordsM1 : wordsM1.all (fun e => decodeSlot 3 false e.1 e.2.1 == some e.2.2) = true := by decide
def wordsC0 : List (Word × Word × Instr) := [
  (0x000FF00000000000, 0, .cnop u),
  (0x000FF01A56CECC16, 0, .cpy u ⟨41, 22, 51, 5, 2, .pk, false, 0, 22⟩),
  (0x000FF02A56CECF92, 0, .cpyr u ⟨41, 22, 51, 5, 2, .pk, true, 6, 18⟩),
  (0x000FF03016000381, 0, .radv u ⟨0, 22, 0, 0, 0, .cr, true, 6, 1⟩),
  (0x000FF08A560018DC, 0, .ldg u ⟨41, 22, 0, 1, 2, .acq, .sy, 6, false⟩),
  (0x000FF09016CC095C, 0, .stg u ⟨0, 22, 51, 0, 2, .rel, .sy, 6, false⟩),
  (0x000FF0AAF1613300, 0, .vldg u ⟨700, 22, .s16, .acq, .dm, 6⟩),
  (0x000FF0BAF1625300, 0, .vstg u ⟨700, 22, .s32, .rel, .dm, 6⟩),
  (0x000FF0CA56CC89DC, 0, .amo u ⟨41, 22, 51, 8, 2, .ar, .sy, 6, false⟩),
  (0x000FF0DA56CEBA5D, 0, .cas u ⟨41, 22, 51, 43, 2, .sc, .sy, 6, true⟩),
  (0x000FF0E00000025C, 0, .fence u ⟨0, 0, 0, 0, 0, .sc, .sy, 6, false⟩),
  (0x000FF0FA56CEB8DC, 0, .waitaddr u ⟨41, 22, 51, 43, 2, .acq, .sy, 6, false⟩)]
def wordsC1 : List (Word × Word × Instr) := [
  (0x000FF11016CEB000, 0, .bind u ⟨0, 22, 51, 43, 0, .rlx, .cr, 0, false⟩),
  (0x000FF12016000000, 0, .unbind u ⟨0, 22, 0, 0, 0, .rlx, .cr, 0, false⟩),
  (0x000FF18000000400, 0, .bar u ⟨0, 0, 0, 0, 0, .cl, false, 0, 0⟩),
  (0x000FF19000000800, 0, .bara u ⟨0, 0, 0, 0, 0, .st, false, 0, 0⟩),
  (0x000FF1A000000C00, 0, .barw u ⟨0, 0, 0, 0, 0, .pk, false, 0, 0⟩),
  (0x000FF1B000001000, 0, .sstep u ⟨0, 0, 0, 0, 0, .dm, false, 0, 0⟩),
  (0x000FF20016000000, 0, .bcast u ⟨0, 22, 0, 0, 0, .cr, false, 0, 0⟩),
  (0x000FF21A40000000, 0, .latch u ⟨41, 0, 0, 0, 0, .cr, false, 0, 0⟩),
  (0x000FF22016CECC00, 0, .lsend u ⟨0, 22, 51, 5, 2, .pk, false, 0, 0⟩),
  (0x000FF23A40CC4C00, 0, .lrecv u ⟨41, 0, 51, 0, 2, .pk, false, 0, 0⟩),
  (0x000FF28A56CF0000, 0, .khash u ⟨41, 22, 51, 6, false, 0, 0⟩),
  (0x000FF29A56CF0005, 0, .klook u ⟨41, 22, 51, 6, false, 0, 5⟩)]
def wordsC2 : List (Word × Word × Instr) := [
  (0x000FF2AA56CF0000, 0, .kopen u ⟨41, 22, 51, 6, false, 0, 0⟩),
  (0x000FF2BA56CF0000, 0, .kwr u ⟨41, 22, 51, 6, false, 0, 0⟩),
  (0x000FF2CA56030000, 0, .kseal u ⟨41, 22, 0, 6, false, 0, 0⟩),
  (0x000FF2DA56CF0000, 0, .klease u ⟨41, 22, 51, 6, false, 0, 0⟩),
  (0x000FF2EA56030000, 0, .kref u ⟨41, 22, 0, 6, false, 0, 0⟩),
  (0x000FF2FA56030000, 0, .kunref u ⟨41, 22, 0, 6, false, 0, 0⟩),
  (0x000FF30A56CF6801, 0, .kld u ⟨41, 22, 51, 6, true, 5, 1⟩),
  (0x000FF31A56030000, 0, .krepl u ⟨41, 22, 0, 6, false, 0, 0⟩),
  (0x000FF32A56030000, 0, .kstat u ⟨41, 22, 0, 6, false, 0, 0⟩),
  (0x000FF33A56030000, 0, .kdrop u ⟨41, 22, 0, 6, false, 0, 0⟩)]
theorem test_decode_wordsC0 : wordsC0.all (fun e => decodeSlot 4 false e.1 e.2.1 == some e.2.2) = true := by decide
theorem test_decode_wordsC1 : wordsC1.all (fun e => decodeSlot 4 false e.1 e.2.1 == some e.2.2) = true := by decide
theorem test_decode_wordsC2 : wordsC2.all (fun e => decodeSlot 4 false e.1 e.2.1 == some e.2.2) = true := by decide
def illFormed0 : List Instr := [
  .nop uu,
  .nop ut,
  .add uu ⟨0, 0, 0, 0⟩,
  .add u ⟨0, 0, 0, 1⟩,
  .sub u ⟨0, 0, 0, 1⟩,
  .mul u ⟨0, 0, 0, 1⟩,
  .mulh u ⟨0, 0, 0, 1⟩,
  .mulhz u ⟨0, 0, 0, 1⟩,
  .div u ⟨0, 0, 0, 1⟩,
  .divz u ⟨0, 0, 0, 1⟩,
  .rem u ⟨0, 0, 0, 1⟩,
  .remz u ⟨0, 0, 0, 1⟩,
  .and u ⟨0, 0, 0, 1⟩,
  .or u ⟨0, 0, 0, 1⟩,
  .xor u ⟨0, 0, 0, 1⟩,
  .andn u ⟨0, 0, 0, 1⟩,
  .shl u ⟨0, 0, 0, 1⟩,
  .shr u ⟨0, 0, 0, 1⟩,
  .shra u ⟨0, 0, 0, 1⟩,
  .shli u ⟨0, 0, .imm 0x40⟩,
  .shli u ⟨0, 0, .lit 0⟩,
  .shri u ⟨0, 0, .imm 0x40⟩,
  .shri u ⟨0, 0, .lit 0⟩,
  .shrai u ⟨0, 0, .imm 0x40⟩,
  .shrai u ⟨0, 0, .lit 0⟩]
theorem test_refuses_illFormed0 : illFormed0.all (fun i => !i.wf) = true := by decide
def illFormed1 : List Instr := [
  .rot u ⟨0, 0, 0, 1⟩,
  .clz u ⟨0, 0, 1, 0⟩,
  .clz u ⟨0, 0, 0, 1⟩,
  .popc u ⟨0, 0, 1, 0⟩,
  .popc u ⟨0, 0, 0, 1⟩,
  .min u ⟨0, 0, 0, 1⟩,
  .max u ⟨0, 0, 0, 1⟩,
  .minz u ⟨0, 0, 0, 1⟩,
  .maxz u ⟨0, 0, 0, 1⟩,
  .mov u ⟨0, 0, 1, 0⟩,
  .mov u ⟨0, 0, 0, 1⟩,
  .movi u ⟨0, 1, .imm 0⟩,
  .ext u ⟨0, 0, 0, 1⟩,
  .ins u ⟨0, 0, 0, 1⟩,
  .lea u ⟨0, 0, 0, 7⟩,
  .sext u ⟨0, 0, 1, 0⟩,
  .sext u ⟨0, 0, 0, 3⟩,
  .cmpi u ⟨0, 0, .eq, false, 0, .reg 1⟩ 0,
  .cmpi u ⟨0, 0, .eq, false, 0, .imm 0⟩ 0,
  .tbit u ⟨0, 0, .lt, false, 0, .reg 0⟩,
  .tbit u ⟨0, 0, .eq, true, 0, .reg 0⟩,
  .tbit u ⟨0, 0, .eq, false, 0, .imm 64⟩,
  .pset u ⟨0, 0, 1, 0⟩,
  .pset u ⟨0, 0, 0, 1⟩,
  .pset u ⟨16, 0, 0, 0⟩]
theorem test_refuses_illFormed1 : illFormed1.all (fun i => !i.wf) = true := by decide
def illFormed2 : List Instr := [
  .pget u ⟨0, 1, 0, 0⟩,
  .pget u ⟨0, 0, 1, 0⟩,
  .pget u ⟨0, 0, 0, 1⟩,
  .pput u ⟨1, 0, 0, 0⟩,
  .pput u ⟨0, 0, 0, 1⟩,
  .cmpt u ⟨1, 0, 0, 0⟩,
  .cmpt u ⟨0, 0, 0, 1⟩,
  .brm u ⟨0, 0, 0, 0, 0⟩ 0,
  .brm u ⟨0, 0, 0, 0, 5⟩ 0,
  .brm u ⟨0, 1, 0, 0, 1⟩ 0,
  .brm u ⟨0, 0, 1, 0, 2⟩ 0,
  .brm u ⟨0, 0, 0, 1, 3⟩ 0,
  .jmp u ⟨1, 0, 0, 0⟩,
  .jmp u ⟨0, 0, 1, 0⟩,
  .jmp u ⟨0, 0, 0, 1⟩,
  .ret u ⟨1, 0, 0, 0⟩,
  .ret u ⟨0, 0, 1, 0⟩,
  .ret u ⟨0, 0, 0, 1⟩,
  .wait u ⟨1, 0, .imm 0⟩,
  .wait u ⟨0, 1, .imm 0⟩,
  .wait u ⟨0, 0, .imm 0x100⟩,
  .wait u ⟨0, 0, .lit 0⟩,
  .fmt u ⟨1, 0, .imm 0⟩,
  .view u ⟨4, 0, .imm 0⟩,
  .mvfc u ⟨0, 1, .imm 0⟩]
theorem test_refuses_illFormed2 : illFormed2.all (fun i => !i.wf) = true := by decide
def illFormed3 : List Instr := [
  .mvfc u ⟨0, 0, .imm 0x1000⟩,
  .mvfc u ⟨0, 0, .lit 0⟩,
  .mvtc u ⟨1, 0, .imm 0⟩,
  .mvtc u ⟨0, 0, .imm 0x1000⟩,
  .mvtc u ⟨0, 0, .lit 0⟩,
  .lock u ⟨1, 0, .imm 0⟩,
  .lock u ⟨0, 1, .imm 0⟩,
  .lock u ⟨0, 0, .imm 0x100⟩,
  .lock u ⟨0, 0, .lit 0⟩,
  .trap u ⟨1, 0, .imm 0⟩,
  .trap u ⟨0, 1, .imm 0⟩,
  .trap u ⟨0, 0, .lit 0⟩,
  .tick u ⟨0, 1, 0, 0⟩,
  .tick u ⟨0, 0, 1, 0⟩,
  .tick u ⟨0, 0, 0, 1⟩,
  .vnop ut,
  .vmin u ⟨0, 0, 0, .s8, false, true⟩,
  .vmax u ⟨0, 0, 0, .s8, false, true⟩,
  .vabs u ⟨0, 0, 0, .s8, true, false⟩,
  .vabs u ⟨0, 0, 1, .s8, false, false⟩,
  .vneg u ⟨0, 0, 0, .s8, true, false⟩,
  .vneg u ⟨0, 0, 1, .s8, false, false⟩,
  .vshl u ⟨0, 0, 0, .s8, false, true⟩,
  .vshr u ⟨0, 0, 0, .s8, false, true⟩,
  .vshra u ⟨0, 0, 0, .s8, false, true⟩]
theorem test_refuses_illFormed3 : illFormed3.all (fun i => !i.wf) = true := by decide
def illFormed4 : List Instr := [
  .vclz u ⟨0, 0, 0, .s8, true, false⟩,
  .vclz u ⟨0, 0, 0, .s8, false, true⟩,
  .vclz u ⟨0, 0, 1, .s8, false, false⟩,
  .vpopc u ⟨0, 0, 0, .s8, true, false⟩,
  .vpopc u ⟨0, 0, 0, .s8, false, true⟩,
  .vpopc u ⟨0, 0, 1, .s8, false, false⟩,
  .vcvt u ⟨0, 0, 0, .s8, true, false⟩,
  .vcvt u ⟨0, 0, 0, .s8, false, true⟩,
  .vcvt u ⟨0, 0, 0x10, .s8, false, false⟩,
  .vcvt u ⟨0, 0, 12, .s8, false, false⟩,
  .vrcp u ⟨0, 0, 0, .s8, true, false⟩,
  .vrcp u ⟨0, 0, 0, .s8, false, true⟩,
  .vrcp u ⟨0, 0, 1, .s8, false, false⟩,
  .vrsq u ⟨0, 0, 0, .s8, true, false⟩,
  .vrsq u ⟨0, 0, 0, .s8, false, true⟩,
  .vrsq u ⟨0, 0, 1, .s8, false, false⟩,
  .vexp2 u ⟨0, 0, 0, .s8, true, false⟩,
  .vexp2 u ⟨0, 0, 0, .s8, false, true⟩,
  .vexp2 u ⟨0, 0, 1, .s8, false, false⟩,
  .vlog2 u ⟨0, 0, 0, .s8, true, false⟩,
  .vlog2 u ⟨0, 0, 0, .s8, false, true⟩,
  .vlog2 u ⟨0, 0, 1, .s8, false, false⟩,
  .vpset u ⟨0, 0, 0, .s8, false, true⟩,
  .vpset u ⟨16, 0, 0, .s8, false, false⟩,
  .vpset u ⟨0, 1, 0, .s8, true, false⟩]
theorem test_refuses_illFormed4 : illFormed4.all (fun i => !i.wf) = true := by decide
def illFormed5 : List Instr := [
  .vpcnt u ⟨0, 0, 0, .s8, true, false⟩,
  .vpcnt u ⟨0, 0, 0, .s8, false, true⟩,
  .vpcnt u ⟨0, 0, 1, .s8, false, false⟩,
  .vpcnt u ⟨64, 0, 0, .s8, false, false⟩,
  .vpcnt u ⟨0, 16, 0, .s8, false, false⟩,
  .vpany u ⟨0, 0, 0, .s8, true, false⟩,
  .vpany u ⟨0, 0, 0, .s8, false, true⟩,
  .vpany u ⟨0, 0, 1, .s8, false, false⟩,
  .vpany u ⟨16, 0, 0, .s8, false, false⟩,
  .vpany u ⟨0, 16, 0, .s8, false, false⟩,
  .vrsum u ⟨0, 0, 0, .s8, true, false⟩,
  .vrsum u ⟨0, 0, 0, .s8, false, true⟩,
  .vrsum u ⟨0, 0, 1, .s8, false, false⟩,
  .vrmax u ⟨0, 0, 0, .s8, true, false⟩,
  .vrmax u ⟨0, 0, 0, .s8, false, true⟩,
  .vrmax u ⟨0, 0, 1, .s8, false, false⟩,
  .vrmin u ⟨0, 0, 0, .s8, true, false⟩,
  .vrmin u ⟨0, 0, 0, .s8, false, true⟩,
  .vrmin u ⟨0, 0, 1, .s8, false, false⟩,
  .vscan u ⟨0, 0, 0, .s8, true, false⟩,
  .vscan u ⟨0, 0, 1, .s8, false, false⟩,
  .vperm u ⟨0, 0, 0, .s8, true, false⟩,
  .vperm u ⟨0, 0, 0, .s8, false, true⟩,
  .vbcast u ⟨0, 64, 0, .s8, false, true⟩,
  .vbcast u ⟨0, 0, 1, .s8, false, true⟩]
theorem test_refuses_illFormed5 : illFormed5.all (fun i => !i.wf) = true := by decide
def illFormed6 : List Instr := [
  .vbcast u ⟨0, 0, 64, .s8, false, false⟩,
  .vslide u ⟨0, 0, 64, .s8, false, false⟩,
  .viota u ⟨0, 1, 0, .s8, false, false⟩,
  .vmov u ⟨0, 0, 0, .s8, true, false⟩,
  .vmov u ⟨0, 0, 0, .s8, false, true⟩,
  .vmov u ⟨0, 0, 1, .s8, false, false⟩,
  .vmovi u ⟨0, 0, 0, .s8, false, false⟩,
  .vmovi u ⟨0, 0, 0, .s8, true, true⟩,
  .vmovi u ⟨0, 1, 0, .s8, true, false⟩,
  .vgetl u ⟨0, 0, 0, .s8, false, true⟩,
  .vgetl u ⟨0, 0, 64, .s8, false, false⟩,
  .vgetl u ⟨64, 0, 0, .s8, false, false⟩,
  .vputl u ⟨0, 0, 0, .s8, false, true⟩,
  .vputl u ⟨0, 0, 64, .s8, false, false⟩,
  .vputl u ⟨0, 64, 0, .s8, false, false⟩,
  .vld u ⟨0, 0, 1, 0, false, 0, .s8⟩,
  .vld u ⟨0, 0, 0, 1, false, 0, .s8⟩,
  .vld u ⟨0, 0, 0, 0, true, 0, .s8⟩,
  .vld u ⟨0, 0, 0, 0, false, 1, .s8⟩,
  .vst u ⟨0, 0, 1, 0, false, 0, .s8⟩,
  .vst u ⟨0, 0, 0, 1, false, 0, .s8⟩,
  .vst u ⟨0, 0, 0, 0, true, 0, .s8⟩,
  .vst u ⟨0, 0, 0, 0, false, 1, .s8⟩,
  .vgather u ⟨0, 0, 0, 0, false, 7, .s8⟩,
  .vscatter u ⟨0, 0, 0, 0, false, 7, .s8⟩]
theorem test_refuses_illFormed6 : illFormed6.all (fun i => !i.wf) = true := by decide
def illFormed7 : List Instr := [
  .vlds u ⟨0, 0, 64, 0, false, 0, .s8⟩,
  .vlds u ⟨0, 0, 0, 1, false, 0, .s8⟩,
  .vlds u ⟨0, 0, 0, 0, true, 0, .s8⟩,
  .vlds u ⟨0, 0, 0, 0, false, 7, .s8⟩,
  .vsts u ⟨0, 0, 64, 0, false, 0, .s8⟩,
  .vsts u ⟨0, 0, 0, 1, false, 0, .s8⟩,
  .vsts u ⟨0, 0, 0, 0, true, 0, .s8⟩,
  .vsts u ⟨0, 0, 0, 0, false, 7, .s8⟩,
  .vcmpt u ⟨0, 0, 0, .s8, true, false⟩,
  .vcmpt u ⟨0, 0, 0, .s8, false, true⟩,
  .vcmpt u ⟨1, 0, 0, .s8, false, false⟩,
  .mnop uu,
  .mnop ut,
  .mld u ⟨0, 0, 0, false, .s8, false, 1, 0, false, false⟩,
  .mld u ⟨0, 0, 0, false, .s8, false, 0, 1, false, false⟩,
  .mld u ⟨0, 0, 0, false, .s8, false, 0, 0, true, false⟩,
  .mst u ⟨0, 0, 0, false, .s8, true, 0, 0, false, false⟩,
  .mst u ⟨0, 0, 0, false, .s8, false, 0, 0, false, true⟩,
  .mst u ⟨0, 0, 0, false, .s8, false, 1, 0, false, false⟩,
  .mst u ⟨0, 0, 0, false, .s8, false, 0, 1, false, false⟩,
  .mst u ⟨0, 0, 0, false, .s8, false, 0, 0, true, false⟩,
  .mzero u ⟨1, 0, 0, 0, 0⟩,
  .mzero u ⟨0, 0, 1, 0, 0⟩,
  .mzero u ⟨0, 0, 0, 0, 2⟩,
  .mma u ⟨true, 8, false, 0, 0, 0, false, 0⟩]
theorem test_refuses_illFormed7 : illFormed7.all (fun i => !i.wf) = true := by decide
def illFormed8 : List Instr := [
  .mma u ⟨false, 0, true, 8, 0, 0, false, 0⟩,
  .mma u ⟨true, 3, true, 3, 0, 0, false, 0⟩,
  .mma u ⟨false, 0, false, 0, 0, 1, false, 0⟩,
  .mma u ⟨false, 0, false, 0, 0, 0, true, 0⟩,
  .mma u ⟨false, 0, false, 0, 0, 0, false, 1⟩,
  .mmas u ⟨true, 8, false, 0, 0, 0, false, 0⟩,
  .mmas u ⟨false, 0, true, 8, 0, 0, false, 0⟩,
  .mmas u ⟨true, 3, true, 3, 0, 0, false, 0⟩,
  .mmas u ⟨false, 0, false, 0, 0, 1, false, 0⟩,
  .mmas u ⟨false, 0, false, 0, 0, 0, true, 0⟩,
  .mnorm u ⟨1, 0, 0, 0, 0⟩,
  .mnorm u ⟨0, 1, 0, 0, 0⟩,
  .mnorm u ⟨0, 0, 1, 0, 0⟩,
  .mnorm u ⟨0, 0, 0, 0, 1⟩,
  .mout u ⟨0, 1, 0, 0, 0⟩,
  .mout u ⟨0, 0, 1, 0, 0⟩,
  .mout u ⟨0, 0, 0, 0, 2⟩,
  .mcvt u ⟨0, 0, 1, 0, 0⟩,
  .mcvt u ⟨0, 0, 0, 1, 0⟩,
  .mcvt u ⟨0, 0, 0, 0, 1⟩,
  .mtrn u ⟨0, 0, 1, 0, 0⟩,
  .mtrn u ⟨0, 0, 0, 1, 0⟩,
  .mtrn u ⟨0, 0, 0, 0, 1⟩,
  .mfac u ⟨0, 0, 0, 1, 0⟩,
  .mfac u ⟨0, 0, 0, 0, 3⟩]
theorem test_refuses_illFormed8 : illFormed8.all (fun i => !i.wf) = true := by decide
def illFormed9 : List Instr := [
  .lrmul u ⟨0, 0, 0, 1, 0⟩,
  .lrmul u ⟨0, 0, 0, 0, 1⟩,
  .lradd u ⟨0, 0, 0, 1, 0⟩,
  .lradd u ⟨0, 0, 0, 0, 2⟩,
  .mtemper u ⟨0, 0, 1, 0, 0⟩,
  .mtemper u ⟨0, 0, 0, 1, 0⟩,
  .mtemper u ⟨0, 0, 0, 0, 1⟩,
  .mdense u ⟨0, 0, 1, 0, 0⟩,
  .mdense u ⟨0, 0, 0, 1, 0⟩,
  .mdense u ⟨0, 0, 0, 0, 1⟩,
  .lrmma u ⟨true, 8, false, 0, 0, 0, false, 0⟩,
  .lrmma u ⟨false, 0, true, 8, 0, 0, false, 0⟩,
  .lrmma u ⟨true, 3, true, 3, 0, 0, false, 0⟩,
  .lrmma u ⟨false, 0, false, 0, 0, 1, false, 0⟩,
  .lrmma u ⟨false, 0, false, 0, 0, 0, true, 0⟩,
  .lrmma u ⟨false, 0, true, 0, 0, 0, false, 0⟩,
  .lrmma u ⟨false, 0, false, 0, 0, 0, false, 1⟩,
  .mrank u ⟨0, 0, 1, 0, 0⟩,
  .mrank u ⟨0, 0, 0, 1, 0⟩,
  .mrank u ⟨0, 0, 0, 0, 1⟩,
  .cnop ut,
  .cpy u ⟨0, 0, 0, 0, 0, .cr, true, 0, 0⟩,
  .cpy u ⟨0, 0, 0, 0, 0, .cr, false, 1, 0⟩,
  .cpy u ⟨0, 0, 0, 0, 0, .cr, false, 0, 1⟩,
  .cpy u ⟨0, 0, 63, 0, 0, .cr, false, 0, 0⟩]
theorem test_refuses_illFormed9 : illFormed9.all (fun i => !i.wf) = true := by decide
def illFormed10 : List Instr := [
  .cpy u ⟨0, 0, 0, 0, 0, .cr, false, 0, 0x30⟩,
  .cpy u ⟨0, 0, 0, 0, 0, .cr, false, 0, 0x0C⟩,
  .cpyr u ⟨0, 0, 0, 0, 0, .cr, false, 0, 0⟩,
  .cpyr u ⟨0, 0, 0, 0, 0, .cr, true, 0, 1⟩,
  .cpyr u ⟨0, 0, 63, 0, 0, .cr, true, 0, 0⟩,
  .cpyr u ⟨0, 0, 0, 0, 0, .cr, true, 0, 0x30⟩,
  .cpyr u ⟨0, 0, 0, 0, 0, .cr, true, 0, 0x04⟩,
  .radv u ⟨0, 0, 0, 0, 0, .cr, false, 0, 0⟩,
  .radv u ⟨1, 0, 0, 0, 0, .cr, true, 0, 0⟩,
  .radv u ⟨0, 0, 1, 0, 0, .cr, true, 0, 0⟩,
  .radv u ⟨0, 0, 0, 1, 0, .cr, true, 0, 0⟩,
  .radv u ⟨0, 0, 0, 0, 1, .cr, true, 0, 0⟩,
  .radv u ⟨0, 0, 0, 0, 0, .cl, true, 0, 0⟩,
  .radv u ⟨0, 0, 0, 0, 0, .cr, true, 0, 2⟩,
  .ldg u ⟨0, 0, 1, 0, 0, .rlx, .cr, 0, false⟩,
  .ldg u ⟨0, 0, 0, 2, 0, .rlx, .cr, 0, false⟩,
  .ldg u ⟨0, 0, 0, 0, 0, .rlx, .cr, 0, true⟩,
  .stg u ⟨1, 0, 0, 0, 0, .rlx, .cr, 0, false⟩,
  .stg u ⟨0, 0, 0, 1, 0, .rlx, .cr, 0, false⟩,
  .stg u ⟨0, 0, 0, 0, 0, .rlx, .cr, 0, true⟩,
  .amo u ⟨0, 0, 0, 9, 0, .rlx, .cr, 0, false⟩,
  .amo u ⟨0, 0, 0, 0, 0, .rlx, .cr, 0, true⟩,
  .fence u ⟨1, 0, 0, 0, 0, .rlx, .cr, 0, false⟩,
  .fence u ⟨0, 1, 0, 0, 0, .rlx, .cr, 0, false⟩,
  .fence u ⟨0, 0, 1, 0, 0, .rlx, .cr, 0, false⟩]
theorem test_refuses_illFormed10 : illFormed10.all (fun i => !i.wf) = true := by decide
def illFormed11 : List Instr := [
  .fence u ⟨0, 0, 0, 1, 0, .rlx, .cr, 0, false⟩,
  .fence u ⟨0, 0, 0, 0, 1, .rlx, .cr, 0, false⟩,
  .fence u ⟨0, 0, 0, 0, 0, .rlx, .cr, 0, true⟩,
  .waitaddr u ⟨0, 0, 0, 0, 0, .rlx, .cr, 0, true⟩,
  .bind u ⟨1, 0, 0, 0, 0, .rlx, .cr, 0, false⟩,
  .bind u ⟨0, 0, 0, 0, 1, .rlx, .cr, 0, false⟩,
  .bind u ⟨0, 0, 0, 0, 0, .acq, .cr, 0, false⟩,
  .bind u ⟨0, 0, 0, 0, 0, .rlx, .cl, 0, false⟩,
  .bind u ⟨0, 0, 0, 0, 0, .rlx, .cr, 1, false⟩,
  .bind u ⟨0, 0, 0, 0, 0, .rlx, .cr, 0, true⟩,
  .unbind u ⟨1, 0, 0, 0, 0, .rlx, .cr, 0, false⟩,
  .unbind u ⟨0, 0, 1, 0, 0, .rlx, .cr, 0, false⟩,
  .unbind u ⟨0, 0, 0, 1, 0, .rlx, .cr, 0, false⟩,
  .unbind u ⟨0, 0, 0, 0, 1, .rlx, .cr, 0, false⟩,
  .unbind u ⟨0, 0, 0, 0, 0, .acq, .cr, 0, false⟩,
  .unbind u ⟨0, 0, 0, 0, 0, .rlx, .cl, 0, false⟩,
  .unbind u ⟨0, 0, 0, 0, 0, .rlx, .cr, 1, false⟩,
  .unbind u ⟨0, 0, 0, 0, 0, .rlx, .cr, 0, true⟩,
  .bar u ⟨1, 0, 0, 0, 0, .cr, false, 0, 0⟩,
  .bar u ⟨0, 1, 0, 0, 0, .cr, false, 0, 0⟩,
  .bar u ⟨0, 0, 1, 0, 0, .cr, false, 0, 0⟩,
  .bar u ⟨0, 0, 0, 1, 0, .cr, false, 0, 0⟩,
  .bar u ⟨0, 0, 0, 0, 1, .cr, false, 0, 0⟩,
  .bar u ⟨0, 0, 0, 0, 0, .cr, false, 0, 1⟩,
  .bar u ⟨0, 0, 0, 0, 0, .cr, true, 0, 0⟩]
theorem test_refuses_illFormed11 : illFormed11.all (fun i => !i.wf) = true := by decide
def illFormed12 : List Instr := [
  .bar u ⟨0, 0, 0, 0, 0, .cr, false, 1, 0⟩,
  .bara u ⟨1, 0, 0, 0, 0, .cr, false, 0, 0⟩,
  .bara u ⟨0, 1, 0, 0, 0, .cr, false, 0, 0⟩,
  .bara u ⟨0, 0, 1, 0, 0, .cr, false, 0, 0⟩,
  .bara u ⟨0, 0, 0, 1, 0, .cr, false, 0, 0⟩,
  .bara u ⟨0, 0, 0, 0, 1, .cr, false, 0, 0⟩,
  .bara u ⟨0, 0, 0, 0, 0, .cr, false, 0, 1⟩,
  .bara u ⟨0, 0, 0, 0, 0, .cr, true, 0, 0⟩,
  .bara u ⟨0, 0, 0, 0, 0, .cr, false, 1, 0⟩,
  .barw u ⟨1, 0, 0, 0, 0, .cr, false, 0, 0⟩,
  .barw u ⟨0, 1, 0, 0, 0, .cr, false, 0, 0⟩,
  .barw u ⟨0, 0, 1, 0, 0, .cr, false, 0, 0⟩,
  .barw u ⟨0, 0, 0, 1, 0, .cr, false, 0, 0⟩,
  .barw u ⟨0, 0, 0, 0, 1, .cr, false, 0, 0⟩,
  .barw u ⟨0, 0, 0, 0, 0, .cr, false, 0, 1⟩,
  .barw u ⟨0, 0, 0, 0, 0, .cr, true, 0, 0⟩,
  .barw u ⟨0, 0, 0, 0, 0, .cr, false, 1, 0⟩,
  .sstep u ⟨1, 0, 0, 0, 0, .cr, false, 0, 0⟩,
  .sstep u ⟨0, 1, 0, 0, 0, .cr, false, 0, 0⟩,
  .sstep u ⟨0, 0, 1, 0, 0, .cr, false, 0, 0⟩,
  .sstep u ⟨0, 0, 0, 1, 0, .cr, false, 0, 0⟩,
  .sstep u ⟨0, 0, 0, 0, 1, .cr, false, 0, 0⟩,
  .sstep u ⟨0, 0, 0, 0, 0, .cr, false, 0, 1⟩,
  .sstep u ⟨0, 0, 0, 0, 0, .cr, true, 0, 0⟩,
  .sstep u ⟨0, 0, 0, 0, 0, .cr, false, 1, 0⟩]
theorem test_refuses_illFormed12 : illFormed12.all (fun i => !i.wf) = true := by decide
def illFormed13 : List Instr := [
  .bcast u ⟨1, 0, 0, 0, 0, .cr, false, 0, 0⟩,
  .bcast u ⟨0, 0, 1, 0, 0, .cr, false, 0, 0⟩,
  .bcast u ⟨0, 0, 0, 1, 0, .cr, false, 0, 0⟩,
  .bcast u ⟨0, 0, 0, 0, 1, .cr, false, 0, 0⟩,
  .bcast u ⟨0, 0, 0, 0, 0, .cl, false, 0, 0⟩,
  .bcast u ⟨0, 0, 0, 0, 0, .cr, true, 0, 0⟩,
  .bcast u ⟨0, 0, 0, 0, 0, .cr, false, 1, 0⟩,
  .bcast u ⟨0, 0, 0, 0, 0, .cr, false, 0, 1⟩,
  .latch u ⟨0, 1, 0, 0, 0, .cr, false, 0, 0⟩,
  .latch u ⟨0, 0, 1, 0, 0, .cr, false, 0, 0⟩,
  .latch u ⟨0, 0, 0, 1, 0, .cr, false, 0, 0⟩,
  .latch u ⟨0, 0, 0, 0, 1, .cr, false, 0, 0⟩,
  .latch u ⟨0, 0, 0, 0, 0, .cl, false, 0, 0⟩,
  .latch u ⟨0, 0, 0, 0, 0, .cr, true, 0, 0⟩,
  .latch u ⟨0, 0, 0, 0, 0, .cr, false, 1, 0⟩,
  .latch u ⟨0, 0, 0, 0, 0, .cr, false, 0, 1⟩,
  .lsend u ⟨1, 0, 0, 0, 0, .cr, false, 0, 0⟩,
  .lsend u ⟨0, 0, 0, 0, 0, .cr, true, 0, 0⟩,
  .lsend u ⟨0, 0, 0, 0, 0, .cr, false, 1, 0⟩,
  .lsend u ⟨0, 0, 0, 0, 0, .cr, false, 0, 1⟩,
  .lrecv u ⟨0, 1, 0, 0, 0, .cr, false, 0, 0⟩,
  .lrecv u ⟨0, 0, 0, 1, 0, .cr, false, 0, 0⟩,
  .lrecv u ⟨0, 0, 0, 0, 0, .cr, true, 0, 0⟩,
  .lrecv u ⟨0, 0, 0, 0, 0, .cr, false, 1, 0⟩,
  .lrecv u ⟨0, 0, 0, 0, 0, .cr, false, 0, 1⟩]
theorem test_refuses_illFormed13 : illFormed13.all (fun i => !i.wf) = true := by decide
def illFormed14 : List Instr := [
  .khash u ⟨0, 0, 0, 0, true, 0, 0⟩,
  .khash u ⟨0, 0, 0, 0, false, 1, 0⟩,
  .khash u ⟨0, 0, 0, 0, false, 0, 1⟩,
  .klook u ⟨0, 0, 0, 0, true, 0, 0⟩,
  .klook u ⟨0, 0, 0, 0, false, 1, 0⟩,
  .klook u ⟨0, 0, 0, 0, false, 0, 8⟩,
  .kopen u ⟨0, 0, 0, 0, true, 0, 0⟩,
  .kopen u ⟨0, 0, 0, 0, false, 1, 0⟩,
  .kopen u ⟨0, 0, 0, 0, false, 0, 1⟩,
  .kwr u ⟨0, 0, 0, 0, true, 0, 0⟩,
  .kwr u ⟨0, 0, 0, 0, false, 1, 0⟩,
  .kwr u ⟨0, 0, 0, 0, false, 0, 1⟩,
  .kseal u ⟨0, 0, 0, 0, true, 0, 0⟩,
  .kseal u ⟨0, 0, 0, 0, false, 1, 0⟩,
  .kseal u ⟨0, 0, 0, 0, false, 0, 1⟩,
  .kseal u ⟨0, 0, 1, 0, false, 0, 0⟩,
  .klease u ⟨0, 0, 0, 0, true, 0, 0⟩,
  .klease u ⟨0, 0, 0, 0, false, 1, 0⟩,
  .klease u ⟨0, 0, 0, 0, false, 0, 1⟩,
  .kref u ⟨0, 0, 0, 0, true, 0, 0⟩,
  .kref u ⟨0, 0, 0, 0, false, 1, 0⟩,
  .kref u ⟨0, 0, 0, 0, false, 0, 1⟩,
  .kref u ⟨0, 0, 1, 0, false, 0, 0⟩,
  .kunref u ⟨0, 0, 0, 0, true, 0, 0⟩,
  .kunref u ⟨0, 0, 0, 0, false, 1, 0⟩]
theorem test_refuses_illFormed14 : illFormed14.all (fun i => !i.wf) = true := by decide
def illFormed15 : List Instr := [
  .kunref u ⟨0, 0, 0, 0, false, 0, 1⟩,
  .kunref u ⟨0, 0, 1, 0, false, 0, 0⟩,
  .kld u ⟨0, 0, 0, 0, false, 0, 2⟩,
  .krepl u ⟨0, 0, 0, 0, true, 0, 0⟩,
  .krepl u ⟨0, 0, 0, 0, false, 1, 0⟩,
  .krepl u ⟨0, 0, 0, 0, false, 0, 1⟩,
  .krepl u ⟨0, 0, 1, 0, false, 0, 0⟩,
  .kstat u ⟨0, 0, 0, 0, true, 0, 0⟩,
  .kstat u ⟨0, 0, 0, 0, false, 1, 0⟩,
  .kstat u ⟨0, 0, 0, 0, false, 0, 1⟩,
  .kstat u ⟨0, 0, 1, 0, false, 0, 0⟩,
  .kdrop u ⟨0, 0, 0, 0, true, 0, 0⟩,
  .kdrop u ⟨0, 0, 0, 0, false, 1, 0⟩,
  .kdrop u ⟨0, 0, 0, 0, false, 0, 1⟩,
  .kdrop u ⟨0, 0, 1, 0, false, 0, 0⟩]
theorem test_refuses_illFormed15 : illFormed15.all (fun i => !i.wf) = true := by decide
theorem test_refuses_event_ranges : ([.resultLanding 896,
  .copyComplete 896 ⟨0, false⟩,
  .wsRefreshWindowEnd 8 0,
  .wsRefreshWindowEnd 0 16,
  .tailWordChange 256,
  .readMiss 88 0,
  .checkIn 88 0,
  .stackRemoval 8,
  .moduleRemoval 256,
  .hostSnoop 0 false [1],
  .hostSnoop 0 true [0],
  .hdmDecoderCommit 2 0 ⟨0, 0, false⟩ 0,
  .hdmDecoderCommit 0 4 ⟨0, 0, false⟩ 0,
  .sealComplete 67108864,
  .ueDetected 896 0 0 0 0,
  .ueDetected 0 65 0 0 0,
  .ceDetected 65 0 0 0 0,
  .errorBankClear 65 true true,
  .kill 0,
  .meminitDone true true [],
  .nsCreate 1024,
  .lqEnable 256 0,
  .slabEntryWrite 8 0 0,
  .slabEntryWrite 0 88 0,
  .cbindWrite 0 112 0,
  .wsLoad 8 0,
  .linkEnable 16,
  .linkPause 16 0,
  .hostCxlMemWrite ⟨2, 0⟩ [0],
  .hostCxlMemRead ⟨2, 0⟩ 1,
  .routeWrite 256 0,
  .linkNak 16 0,
  .dataFlit 0 [0],
  .timeBaseMsg 16] : List Instr).all (fun i => !i.wf) = true := by decide

/-! ### States for the witnesses of hypotheses -/

/-- A module with one bound core that runs a task and is about to issue ADDI x4, x4, -3. -/
def s0 : State := State.reset.withFetchWord 72 0x000FF021047FFFFD01
def on (f : Core → Core) : State := { s0 with core := f s0.core }
def atCtl (f : Ctl → Ctl) : State := on (fun c => { c with ctl := f c.ctl })
def atFront (f : Front → Front) : State := on (fun c => { c with front := f c.front })
def atUnits (f : Units → Units) : State := on (fun c => { c with units := f c.units })
def atRegs (x : Vector Word 64) : State := on (fun c => { c with regs := { c.regs with x := x } })
/-- Registers with the named values, zero elsewhere. -/
def xs (l : List (Nat × Word)) : Vector Word 64 := l.foldl (fun v e => vset v e.1 e.2) (Vector.replicate 64 0)
def tok (l : List (Nat × Token)) : Vector Token 8 := l.foldl (fun v e => vset v e.1 e.2) (Vector.replicate 8 Token.zero)
def inTrap : State := atCtl (fun c => { c with tcause := 0x8000000000000001 })
/-- A core locked with core 1 of its cluster. -/
def locked : Core → Core := fun c => { c with ident := { c.ident with cluster := 0x30000 } }
/-- A command with nothing outstanding, and the core that has only it. -/
def cmd0 (i : Instr) : Cmd :=
  { seq := 3, unit := false, ins := i, tok := 1, spec := false, ops := [], addr := 0, data := [], ring := none, regions := [], fence := 0,
    err := 0, parked := none, retry := none, window := false, performed := false, last := 0, limit := none, pins := [], born := 0, stage := 0,
    fans := [], asks := [], got := [], acks := [], asked := none }
def withCmd (k : Cmd) : State :=
  atUnits (fun w => { w with cmds := [k], nextSeq := 4, tokens := tok [(1, { Token.zero with cnt := 1 })] })
/-- Bank 0 in the tensor role. -/
def tensor (s : State) : State := s.setStack 0 { s.stack 0 with srole := vset (s.stack 0).srole 0 0x5555555555555556 }
/-- Ring 7 over bank 0: four slots of the least size, `n` of them filled. -/
def ring7 (n : BitVec 12) : Ring := { Ring.zero with on := true, nslot := 3, tail := n, resv := n }
def withRing (r : Ring) : State := tensor (atUnits (fun w => { w with rings := vset w.rings 7 r }))
/-- The state with a bundle of one instruction placed. -/
def placed (i : Instr) (s : State) : State := s.withFetchWord 72 (leNat ((encode i).getD []))
theorem s0_issues {s : State} {b : Bundle} {line : List Byte} (h : s.board.power = true ∧ s.agenda = [] ∧ s.nextUp.others = [] ∧
    s.nextUp.core.lockm = 0 ∧ s.nextUp.issuers = [s.nextUp.core.cnum] ∧ s.nextUp.core.running = true ∧ s.nextUp.core.isFrozen = false ∧ s.nextUp.core.emptyCycle = false)
    (ha : s.chosen.autoGroup = none)
    (hf : s.nextUp.core.fetch fetchFuel s.nextUp.core.front.pc = (0, some line)) (hd : decodeBundle line = .ok b) : s.issues 0 b :=
  ⟨h.1, h.2.1, ha, by rw [h.2.2.1]; simp, h.2.2.2.1, h.2.2.2.2.1, h.2.2.2.2.2.1, h.2.2.2.2.2.2.1, h.2.2.2.2.2.2.2, line, hf, hd⟩
/-- Two cores, of which core 0 is in focus. -/
def two : State := { s0 with others := [{ s0.core with cnum := 1 }] }
/-- Four vector registers from the start of register space; `vfar`: from the slow partition on. -/
def vec : State := atCtl (fun c => { c with vview := 4 <<< 11 })
def vfar : State := atCtl (fun c => { c with vview := 4 <<< 11 ||| 1024 })
def atRf (m : Memory) (s : State) : State := { s with core := { s.core with regs := { s.core.regs with rf := m } } }
/-- Tiles of 4,096 bytes from the start of register space, tiles 10 and 11 factored; two accumulators behind them. -/
def mat : State := tensor (on (fun c => { c with
  ctl := { c.ctl with mview := 64 <<< 11 ||| 8 <<< 18, qview := 1024 ||| 2 <<< 11 },
  units := { c.units with
    rings := vset c.units.rings 7 { ring7 1 with ssz := 4 },
    tiles := vset (vset c.units.tiles 10 ⟨true, .s8, Vector.replicate 4 3⟩) 11 ⟨true, .s8, Vector.replicate 4 32⟩ } }))
/-- A queued matrix instruction that reads tile 1 and writes tile 2 and accumulator 1. -/
def job1 : MJob :=
  { num := 0, ins := .mnop u, ctl := Ctl.zero, xa := 0, xb := 0, ringA := 0, ringB := 0, reads := [.tile 1], writes := [.tile 2, .acc 1, .tile 10], pops := [],
    slow := false, start := some 0, occ := 5, delay := 4, read := false, out := ⟨[(7, 1)], [], [], [], [0]⟩ }
def queued1 (j : MJob) (now : Nat) : State :=
  { mat with core := { mat.core with front := { mat.core.front with clock := now }, units := { mat.core.units with anvil := [j] } } }
/-- Channel 0 of the task is entry 0 of the channel table; `q` waits in its receive queue. -/
def chan (q : List QMsg) (down : Bool) (s : State) : State :=
  { s with memory := { s.memory with mem := [(3, 0x80)] }, channels := [⟨0, q, down, false, none⟩] }
def ch0 : ChEntry := ⟨0, 0, 0, 0, 0, 0, 0, 0, 0⟩
def us : Head := { u with spec := true }
/-- A barrier group of two cores at level 1, of which core 0 has arrived `n` times. -/
def group (n gen : Nat) : State := { s0 with groups := [⟨1, 0, 0, 0, 2, [(0, n), (1, gen)], [], [], gen, true, [], []⟩] }
theorem findCh0 {s : State} {p : ChEntry → Bool} {e : ChEntry} (h : s.chEntry 0 = some e) (hp : p e = true) : s.findCh p = some e := by
  unfold State.findCh
  rw [show (4096 : Nat) = 4095 + 1 from rfl, List.range_succ_eq_map, List.findSome?_cons, h]
  simp [hp]
theorem sends0 {s : State} {t : Task} (ht : s.core.task = some t) (h : s.chEntry 0 = some ch0)
    (hp : (ch0.dgrp == t.dgrp && ch0.snode == t.node && ch0.sidx == t.idx && ch0.sch == (0 : BitVec 6).toNat) = true) : s.sendEntry 0 = some ch0 := by
  unfold State.sendEntry
  rw [ht]
  exact findCh0 h hp
theorem recvs0 {s : State} {t : Task} (ht : s.core.task = some t) (h : s.chEntry 0 = some ch0)
    (hp : (ch0.dgrp == t.dgrp && ch0.rnode == t.node && ch0.ridx == t.idx && ch0.rch == (0 : BitVec 6).toNat &&
      ch0.dstm == fld s.regs.m.domain 0 8) = true) : s.recvEntry 0 = some ch0 := by
  unfold State.recvEntry
  rw [ht]
  exact findCh0 h hp
/-- The first 64 KiB of the task's address space map to the first frame of this module's memory, for reading and writing. -/
def mapped (s : State) : State := { s with memory := { s.memory with tlb := [⟨1, 0, 16, 0x31⟩] } }
/-- One TASK node; the launch that holds it; a queue of ASID 1 with one record at 0x1000, its graph at 0x2000, and a task header at 0x3000. -/
def node0 : GNode :=
  { kind := .task 0 false 0 1 1 0, dep := 0, left := 0, succ0 := none, succ1 := none, iters := 0, firings := 1, ready := some 0, home := none,
    redispatches := 0, noRedo := false, running := 1, cluster := none }
def launch0 : Launch :=
  { serial := 0, q := 0, seq := 1, asid := 1, pri := 0, g := 1, cmax := 1, image := 0x3000, arg := 0, dgrp := 0, dsize := 1, drank := 0, donePtr := 0,
    nodes := [node0], ntask := 0, fnode := none, status := 0, capHit := false, stopping := false, lastDispatch := 0, lastCluster := none,
    todo := [], reported := false }
def queue0 : LQueue := ⟨0x1000, 0x8000, 0x9000, 0x8000100000000000, 1, 0, false⟩
def image : List (Nat × List Byte) :=
  [(15, [0x80]), (0x1000, [1, 0, 1, 0, 0, 1, 1, 0, 0, 0x30]), (0x1010, [0, 0x20]), (0x1024, [1]), (0x1030, [1]), (0x2004, [0xFF, 0xFF, 0xFF, 0xFF]),
   (0x3000, [0x59, 0x5A, 0x49, 0x4D, 1, 0, 1, 0]), (0x3010, [0, 0x10]), (0x3018, [1]), (0x3030, [0, 2]), (0x3038, [0, 0x30]), (0x3288, [1])]
def hearth0 (m : List (Nat × List Byte)) (started : Bool) (st : Nat) : State :=
  { mapped s0 with
    core := { s0.core with
      task := some { placedTask with started := started },
      ovl := [⟨0, 1, 0, 0x4000, [], false, false⟩],
      drv := { s0.core.drv with cctl := putFld s0.core.drv.cctl 60 4 st } },
    memory := { (mapped s0).memory with mem := m.foldl (fun a e => Memory.setN a e.1 e.2) [] },
    hearth := { s0.hearth with queues := [(0, queue0)], launches := [launch0] },
    regs := { s0.regs with m := { s0.regs.m with mstate := 4, hcfg := 0x8000000000640000, tbase := 1100 } } }
def atState (k : Nat) (s : State) : State := { s with core := { s.core with drv := { s.core.drv with cctl := putFld s.core.drv.cctl 60 4 k } } }
def saved0 : Saved :=
  { task := placedTask, ident := s0.core.ident, bstat := 0, bstat0 := 0, aside := [], votes := [], bwq := [], busErr := [], target := none, tokens := [], accReq := false, trapReq := none,
    arrv := [], phase := Phase.zero, cmds := [], rings := [], fence := 0, left := 0 }
def keeps (s : State) : State := { s with core := { s.core with drv := { s.core.drv with saved := some saved0 } } }
def free (s : State) : State := { s with core := { s.core with task := none } }
theorem leNat_leBytes (n v : Nat) : leNat (leBytes n v) = v % 256 ^ n := by
  induction n generalizing v with
  | zero => simp [leBytes, leNat, Nat.mod_one]
  | succ n ih =>
    simp only [leBytes, leNat, ih, BitVec.toNat_ofNat]
    rw [show (2 : Nat) ^ 8 = 256 from rfl]
    rw [Nat.pow_succ, Nat.mul_comm (256 ^ n) 256, Nat.mod_mul]
theorem length_leBytes (n v : Nat) : (leBytes n v).length = n := by
  induction n generalizing v with
  | zero => rfl
  | succ n ih => simp [leBytes, ih]
/-- A flit of 120 bytes that carries the word `c` as its check. -/
def flit (b : Byte) (c : Word) : List Byte := List.replicate 120 b ++ leBytes 8 c.toNat
theorem flit_tail (b : Byte) (c : Word) : leNat (((flit b c).drop 120).take 8) = c.toNat := by
  have h : ((flit b c).drop 120).take 8 = leBytes 8 c.toNat := by
    unfold flit
    rw [List.drop_left' (by simp), List.take_of_length_le (Nat.le_of_eq (length_leBytes _ _))]
  rw [h, leNat_leBytes]
  exact Nat.mod_eq_of_lt c.isLt
theorem flit_take (b : Byte) (c : Word) : (flit b c).take 120 = List.replicate 120 b := by
  unfold flit
  rw [List.take_left' (by simp)]
theorem flit_length (b : Byte) (c : Word) : (flit b c).length = 128 := by simp [flit, length_leBytes]

theorem wit_ArithmeticResults : s0.runs u ∧ (atRegs (xs [(5, 7)])).runs ut := ⟨⟨by decide, by decide⟩, ⟨by decide, by decide⟩⟩
theorem wit_DivisionResults :
    let s := atRegs (xs [(5, 0x8000000000000000), (6, -1), (7, 5)])
    s.runs u ∧ s.core.x 0 = 0 ∧ (s.core.x 5).toInt = -2 ^ 63 ∧ (s.core.x 6).toInt = -1 ∧
    (s.core.x 7 ≠ 0 ∧ ¬((s.core.x 5).toInt = -2 ^ 63 ∧ (s.core.x 7).toInt = -1)) := ⟨⟨by decide, by decide⟩, by decide⟩
theorem wit_BitfieldResults : s0.runs u ∧ (SR.mk 4 5 6 0).c = 0 ∧ (SR.mk 4 5 6 1).c = 1 ∧ (SR.mk 4 5 6 2).c = 2 :=
  ⟨⟨by decide, by decide⟩, by decide⟩
theorem wit_CompareResults :
    s0.runs u ∧ (let o : SC := ⟨0, 0, .ne, false, 4, .reg 5⟩; (o.ft = o.ff → o.ft = 0) ∧ o.cc = .ne) ∧
    (let o : SC := ⟨15, 1, .eq, true, 4, .imm 63⟩; (o.ft = o.ff → o.ft = 0) ∧ o.cc = .eq) ∧
    (let o : SC := ⟨15, 15, .eq, true, 4, .imm 63⟩; o.ft = o.ff ∧ o.ft ≠ 0) := ⟨⟨by decide, by decide⟩, by decide⟩
theorem wit_ScratchpadScalar :
    s0.core.enabled u = true ∧
    (let A (o : SP) : Nat := (s0.core.x o.a + o.off.signExtend 64).toNat
     let b (o : SP) : Nat := 2 ^ (o.sz.toNat % 4)
     A ⟨4, 0, 7, 4⟩ % b ⟨4, 0, 7, 4⟩ ≠ 0 ∧
     (A ⟨4, 0, 0, -1⟩ % b ⟨4, 0, 0, -1⟩ = 0 ∧ s0.okBank (A ⟨4, 0, 0, -1⟩) = false) ∧
     (A ⟨4, 0, 3, 0xFFFF8⟩ % b ⟨4, 0, 3, 0xFFFF8⟩ = 0 ∧ s0.okBank (A ⟨4, 0, 3, 0xFFFF8⟩) = true)) := by decide
theorem wit_BranchEffects :
    s0.core.enabled u = true ∧ 1 < (atCtl (fun c => { c with iter := 2 })).core.ctl.iter.toNat ∧
    (atCtl (fun c => { c with iter := 1 })).core.ctl.iter.toNat ≤ 1 ∧ (atCtl (fun c => { c with iter := 1 })).core.enabled u = true ∧
    (atCtl (fun c => { c with iter := 2 })).core.enabled u = true := by decide
theorem wit_BranchByPredicate :
    let s := on (fun c => { c with regs := { c.regs with f := 0x8001 } })
    let o : SM := ⟨3, 15, 0, 1, 4⟩
    let q : SM := ⟨3, 4, 5, 6, 4⟩
    s.core.enabled u = true ∧ ([o.fa, o.fb, o.fc, o.fd].take o.n.toNat = [3] ++ 15 :: [0, 1] ∧ s.core.f 15 = true ∧ ∀ g ∈ [(3 : FReg)], s.core.f g = false) ∧
    (∀ g ∈ [q.fa, q.fb, q.fc, q.fd].take q.n.toNat, s.core.f g = false) := by decide
theorem wit_ControlEffects :
    let s := atRegs (xs [(5, 3), (6, 1)])
    s.core.enabled u = true ∧ s.core.inHandler = false ∧
    (∀ k, k < 8 → (vget s.core.units.tokens k Token.zero).cnt = 0 ∧ (vget s.core.units.tokens k Token.zero).err = 0) ∧
    (s.creg 0x7FF = none ∧ s.creg 0x01A = some 0) ∧
    (s.cregOk 0 (s.core.x 0 &&& cregMask 0) = true ∧ s.cregOk 1 (s.core.x 5 &&& cregMask 1) = true) ∧
    (0x017 = 0x010 + (7 : HRing).toNat ∧ (tensor s).cregOk 0x017 (s.core.x 0 &&& cregMask 0x017) = true ∧ (tensor s).core.ringInUse 7 = false) ∧
    (∀ n ∈ [2, 3, 4, 8, 9, 0x00C, 0x01A], s.cregOk n (s.core.x 0 &&& cregMask n) = true) ∧
    (okFmt ((s.core.x 0 + immS (.imm 0)) &&& cregMask 0) = true) ∧
    (∀ d, d < 3 → s.cregOk (2 + d) ((s.core.x 0 + immS (.imm 0)) &&& cregMask (2 + d)) = true) ∧
    okVview (withWoff s.core.ctl.vview ((s.core.x 0 + immS (.imm 0)).extractLsb' 0 10)) = true := by decide
theorem wit_GroupAndPhaseEffects :
    let s := atFront (fun f => { f with granted := true })
    let l : State := { s with core := locked s.core }
    s.core.enabled u = true ∧ s.core.front.granted = true ∧ s.core.lockm = 0 ∧ s.flipBusy = false ∧
    (∀ k, k < 8 → (vget s.core.units.tokens k Token.zero).defErr = 0) ∧
    (l.core.lockm ≠ 0 ∧ l.core.front.granted = true ∧ l.core.enabled u = true) := by decide
theorem wit_TrapAndCompareEffects :
    let s := atRegs (xs [(5, 0xAA00000000000000), (6, 0xAB00000000000000)])
    s.runs u ∧ s.core.inHandler = false ∧ (inTrap.runs u ∧ inTrap.core.inHandler = true) ∧ s.core.x 5 = s.core.x 5 ∧
    ((∀ j, j < 7 → (s.core.x 5).extractLsb' (8 * j) 8 = (s.core.x 6).extractLsb' (8 * j) 8) ∧
      (s.core.x 5).extractLsb' (8 * 7) 8 ≠ (s.core.x 6).extractLsb' (8 * 7) 8) :=
  ⟨⟨by decide, by decide⟩, by decide, ⟨⟨by decide, by decide⟩, by decide⟩, by decide⟩
theorem wit_ScalarRefusals :
    let l := on locked
    let t (k : Token) : State := atUnits (fun w => { w with tokens := tok [(7, k)] })
    let busy := t { Token.zero with cnt := 1 }
    let spec := withCmd { cmd0 (.cnop u) with spec := true }
    let bad := t { Token.zero with err := 1 }
    let m : BitVec 8 := (BitVec.ofNat 23 0x80).extractLsb' 0 8
    let r := withRing { ring7 0 with claims := [⟨0, 1, false⟩] }
    (inTrap.core.enabled u = true ∧ inTrap.core.inHandler = true) ∧
    (l.core.enabled u = true ∧ l.core.lockm ≠ 0 ∧ l.core.front.granted = false) ∧
    (spec.core.enabled u = true ∧ spec.flipBusy = true) ∧ (busy.core.enabled u = true) ∧
    (s0.core.enabled u = true ∧ 0x800 ≤ ((BitVec.ofNat 23 0x800).extractLsb' 0 12).toNat ∧ s0.creg 0x7FF = none ∧ cregWritable 0x00F = false ∧
      s0.cregOk 0 (0xC &&& cregMask 0) = false) ∧
    (r.core.enabled u = true ∧ r.cregOk 0x017 (r.core.x 0 &&& cregMask 0x017) = true ∧ r.core.ringInUse 7 = true) ∧
    (m.getLsbD 7 = true ∧ (vget busy.core.units.tokens 7 Token.zero).cnt ≠ 0) ∧
    (bad.core.enabled u = true ∧ m.getLsbD 7 = true ∧ (vget bad.core.units.tokens 7 Token.zero).err ≠ 0 ∧
      ∀ j, j < 8 → m.getLsbD j = true → (vget bad.core.units.tokens j Token.zero).cnt = 0 ∧ (j < 7 → (vget bad.core.units.tokens j Token.zero).err = 0)) ∧
    (let s := atRegs (xs [(5, 12), (6, -1)])
     okFmt ((s.core.x 5 + immS (.imm 0)) &&& cregMask 0) = false ∧ s.cregOk 2 ((s.core.x 6 + immS (.imm 0)) &&& cregMask 2) = false) ∧
    (let s := atCtl (fun c => { c with vview := 0x0000000100000000 })
     s.core.enabled u = true ∧ okVview (withWoff s.core.ctl.vview ((s.core.x 0 + immS (.imm 1)).extractLsb' 0 10)) = false) := by decide
theorem wit_TripleVote :
    let up (a b c : Word) : State := atFront (fun f => { f with upset := #v[a, b, c] })
    s0.memoryWf ∧ (up 0 0 1).core.enabled ut = true ∧ ut.tri = true ∧ (up 1 2 3).core.enabled ut = true ∧
    (let s := up 0 0 1; let k (j : Nat) : Word := vget s.core.front.upset j 0
     ((s.core.x 5 ^^^ k 0 = 0 ∧ s.core.x 5 ^^^ k 1 = 0) ∧ ¬(k 0 = k 1 ∧ k 0 = k 2) ∧ 4 * s.core.stk + 1 < 65)) ∧
    (let k (j : Nat) : Word := vget (up 0 0 0).core.front.upset j 0; k 0 = k 1 ∧ k 0 = k 2) ∧
    (let k (j : Nat) : Word := vget (up 1 2 3).core.front.upset j 0; k 0 ≠ k 1 ∧ k 0 ≠ k 2 ∧ k 1 ≠ k 2) := ⟨rfl, by decide⟩

theorem wit_StepRunsBundle : ∃ t, s0.issues 0 ⟨[.addi u ⟨4, 4, .imm (-3)⟩], 9⟩ ∧
    runsSlots (s0.seenBy 0 ⟨[.addi u ⟨4, 4, .imm (-3)⟩], 9⟩) [.addi u ⟨4, 4, .imm (-3)⟩] t ∧ t.core.phase.replay = none :=
  ⟨_, s0_issues (by decide) rfl rfl rfl, ⟨_, rfl, rfl, rfl⟩, rfl⟩
theorem wit_StepRunsEvent :
    let s := { s0 with agenda := [.cctlCancel 0] }
    let off : State := { s with board := { s.board with power := false } }
    s.agenda = .cctlCancel 0 :: [] ∧ s.board.power = true ∧ Instr.enc (.cctlCancel 0) = none ∧
    (∃ t, exec (.cctlCancel 0) { s with agenda := [] } = .next t) ∧
    off.board.power = false ∧ off.agenda = .cctlCancel 0 :: [] ∧ Instr.cctlCancel 0 ≠ .powerUp ∧
    ({ off with agenda := [.powerUp] } : State).agenda = .powerUp :: [] :=
  ⟨rfl, rfl, rfl, ⟨_, rfl⟩, rfl, rfl, (fun h => nomatch h), rfl⟩
theorem wit_BundlesThatDoNotCommit :
    (let i : Instr := .mvfc u ⟨4, 0, .imm 0x7FF⟩
     let s := placed i s0
     ∃ t, s.issues 0 ⟨[i], 9⟩ ∧ exec i (s.seenBy 0 ⟨[i], 9⟩) = .next t ∧ t.core.front.stat = .stopped) ∧
    (let i : Instr := .wait u ⟨0, 0, .imm 2⟩
     let s := placed i (withCmd (cmd0 (.cnop u)))
     ∃ t, s.issues 0 ⟨[i], 9⟩ ∧ exec i (s.seenBy 0 ⟨[i], 9⟩) = .next t ∧ t.core.front.stat = .held ∧ t.core.front.holds ≠ [] ∧
       t.core.front.holds.all Hold.isBarrier = false) :=
  ⟨⟨_, s0_issues (by decide) rfl rfl rfl, rfl, by decide⟩, ⟨_, s0_issues (by decide) rfl rfl rfl, rfl, by decide⟩⟩
theorem wit_LandingWrites :
    let vals : List Pend := [⟨0, 0, .x 63 1⟩, ⟨0, 0, .x 63 7⟩, ⟨0, 0, .f 2 2⟩, ⟨0, 1, .v 0 [(255, 9)]⟩, ⟨1, 0, .x 63 2⟩]
    let c := (on (fun c => { c with pipe := ⟨vals, [], [⟨0, [(0xFFFFF, 3)]⟩]⟩ })).core
    c.storageWf ∧ ((63 : XReg) ≠ 0 ∧ c.pipe.pwq = [⟨0, 0, .x 63 1⟩] ++ ⟨0, 0, .x 63 7⟩ :: vals.drop 2 ∧
      ∀ d ∈ vals.drop 2, d.dist = 0 → ∀ w, d.val ≠ .x 63 w) ∧
    (∀ d ∈ c.pipe.pwq, d.dist = 0 → ∀ w, d.val ≠ .x 1 w) ∧
    ((1 : FReg) ≠ 0 ∧ c.pipe.pwq = vals.take 2 ++ ⟨0, 0, .f 2 2⟩ :: vals.drop 3 ∧ (2 : BitVec 16).getLsbD (1 : FReg).toNat = true) ∧
    (∀ d ∈ c.pipe.bwq, d.dist = 0 → ∀ e ∈ d.cells, e.1 ≠ 0) :=
  ⟨⟨rfl, rfl⟩, ⟨by decide, rfl, by simp⟩, by simp [on, s0], ⟨by decide, rfl, rfl⟩, by decide⟩
theorem wit_HardWiredRegisters : (63 : XReg) ≠ 0 ∧ (0 : XReg) ≠ 63 ∧ (15 : FReg) ≠ 0 ∧ (0 : FReg) ≠ 15 := by decide
theorem wit_BoundaryChanges :
    let c := s0.core
    let d := (atUnits (fun w => { w with bindings := [⟨256, 512, 3⟩] })).core
    (∀ b ∈ c.units.bindings, b ≠ ⟨256, 512, 3⟩) ∧ (⟨256, 512, 3⟩ : Binding) ∈ d.units.bindings := by decide
theorem wit_SystemFaultRecord :
    s0.memoryWf ∧ 15 < 16 ∧ 255 < 256 ∧ 0 < cUE ∧ cUE < 11 ∧
    (let s : State := { s0 with regs := { s0.regs with ev := { s0.regs.ev with evctl := 4 } } }
     s.memoryWf ∧ (s.regs.ev.evtail - s.regs.ev.evhead).toNat < 2 ^ fld s.regs.ev.evctl 0 4) := by
  refine ⟨rfl, by decide, by decide, by decide, by decide, rfl, by decide⟩
theorem wit_ProgramTraps :
    (1 ≤ 4 ∧ 4 ≤ 4 ∧ 2 ^ 23 - 1 < 2 ^ 23) ∧ s0.core.ctl.tvec = 0 ∧
    (atCtl (fun c => { c with tvec := 0x1000 })).core.ctl.tvec ≠ 0 ∧ s0.core.pipe.pwq = [] := by decide
theorem wit_SuppressedSlots :
    let i : Instr := .add ⟨false, false, 1, 0, 0, 0xF0, false⟩ ⟨4, 5, 6, 0⟩
    let l : Instr := .vldg ⟨false, false, 1, 0, 0, 0xF0, false⟩ ⟨3, 6, .s32, .rlx, .pk, 1⟩
    (∃ e, Instr.enc i = some e ∧ e.cls = .S ∧ s0.core.enabled e.head = false) ∧
    (∃ e, Instr.enc l = some e ∧ e.cls = .C ∧ s0.core.enabledBytes e.head (esize .s32) = []) := ⟨⟨_, rfl, by decide⟩, ⟨_, rfl, by decide +kernel⟩⟩
theorem wit_EventsFollowFocus : ∃ w t, eventCore (.cctlCancel 1) = some 1 ∧ two.focus 1 = some w ∧ exec (.cctlCancel 1) w = .next t :=
  ⟨_, _, rfl, rfl, rfl⟩
theorem wit_MemoryStaysCanonical : ∃ t, s0.memoryWf ∧ step s0 = .next t := ⟨_, rfl, rfl⟩
theorem wit_StorageStaysCanonical : ∃ t, (∀ c ∈ s0.cores, c.storageWf) ∧ step s0 = .next t := by
  refine ⟨_, fun c h => ?_, rfl⟩
  cases h with
  | head => exact ⟨rfl, rfl⟩
  | tail _ h => cases h
theorem wit_DecodeEncode :
    let i : Instr := .addi u ⟨4, 4, .imm (-3)⟩
    (Instr.wf i = true ∧ encode i = some (0x01 :: leBytes 8 0x000FF021047FFFFD)) ∧
    (decodeSlot 0 false 0x000FF021047FFFFD 0 = some i) := by decide

theorem wit_VectorElementwise :
    vec.core.enabledElems u (esize .s32) ≠ [] ∧ vec.core.vaddr 3 = some 768 ∧ vec.core.vaddr 0 = some 0 ∧
    (let o : VR := ⟨3, 0, 1, .s32, false, true⟩; (o.i = false → vec.core.vaddr o.b = some 256) ∧ (o.i = true → isTap o.ty = false) ∧
      (o.md = true → isInt o.ty = true) ∧ isInt o.ty = true) ∧
    (let o : VR := ⟨3, 0, 0x200, .f32, true, false⟩; (o.i = false → vec.core.vaddr o.b = some 0) ∧ (o.i = true → isTap o.ty = false) ∧
      (o.md = true → isInt o.ty = true)) := by decide
theorem wit_VectorUnary :
    vec.core.enabledElems u (esize .z16) ≠ [] ∧ vec.core.vaddr 3 = some 768 ∧ vec.core.vaddr 0 = some 0 ∧ isInt .z16 = true ∧
    (vec.core.enabledElems u (esize .f32) ≠ [] ∧ isFlt .f32 = true ∧ isTap .f32 = false ∧ (false = true → isInt .f32 = true)) := by decide
theorem wit_VectorConversions :
    let o : VR := ⟨2, 0, 1, .s16, false, true⟩
    let q : VR := ⟨2, 0, 0x10A, .f32, false, false⟩
    (vec.core.vaddr o.d = some 512 ∧ vec.core.vaddr o.a = some 0 ∧ (o.i = false → vec.core.vaddr o.b = some 256) ∧
      wideOf o.ty = some .s32 ∧ vec.core.enabledElems u 4 ≠ [] ∧ halfOf o.ty = some .s8) ∧
    ((List.range (vec.core.nElems 2)).map (fun e => e / 128 * 256 + 128 + e % 128)).filter (fun e => vec.core.enabledAt u (e * 1)) ≠ [] ∧
    (let b := esize q.ty
     let n := esize (fmtType (q.b.extractLsb' 0 4).toNat)
     let part := (q.b.extractLsb' 7 3).toNat
     part < max (n / b) (b / n) ∧ (cvtPairs vec.core.g b n part).filter (fun e => vec.core.enabledAt u (e.1 * n)) ≠ []) := by decide
theorem wit_VectorPredicates :
    vec.core.enabledElems u (esize .s32) ≠ [] ∧
    (let o : VC := ⟨15, 0, 3, 1, .lt, .s32, false⟩; vec.core.vaddr o.a = some 768 ∧ (o.i = false → vec.core.vaddr o.b = some 256) ∧
      (o.i = true → isTap o.ty = false) ∧ (o.pt = o.pf → o.pt = 0)) ∧
    (let o : VC := ⟨0, 0, 3, 0x200, .lt, .s32, true⟩; (o.i = false → vec.core.vaddr o.b = some 0) ∧ (o.i = true → isTap o.ty = false) ∧
      (o.pt = o.pf → o.pt = 0)) ∧
    (VR.mk 1 3 0 .s32 false false).i = false ∧ (VR.mk 1 3 0 .s32 true false).i = true := by decide
theorem wit_VectorLanes :
    let c := vec.core
    let o : VR := ⟨3, 0, 1, .s32, false, true⟩
    let n := c.nElems 4
    c.vaddr o.d = some 768 ∧ c.vaddr o.a = some 0 ∧ c.enabledElems u 4 ≠ [] ∧ isTap o.ty = false ∧ isInt o.ty = true ∧ o.md = true ∧
    c.vaddr o.b = some 256 ∧ (let q : VR := ⟨3, 0, 63, .s32, true, false⟩; q.md = false ∧ q.i = true ∧ q.b.toNat < n ∧ c.enabledAt u (63 * 4) = true) ∧
    (o.i = false ∧ 0 = (c.x (o.b.extractLsb' 0 6)).toNat % n ∧ 0 < n ∧ c.enabledAt u 0 = true) := by decide
theorem wit_VectorScratchpad :
    let o : VM := ⟨3, 5, 1, 2, false, 0, .s32⟩
    let c := vec.core
    let es := c.enabledElems u 4
    let at_ (w : Word) : Core := { c with regs := { c.regs with x := xs [(5, w)] } }
    let flat (d : Core) (e : Nat) : Nat := (d.x o.base).toNat + e % 64 * 4
    es ≠ [] ∧ c.vaddr o.v = some 768 ∧ (∀ e ∈ es, flat c e % 4 = 0 ∧ vec.okBank (flat c e) = true) ∧
    (∀ e ∈ es, let a := wrapInt 64 ((c.x o.base).toNat + (e % 64 : Nat) * (c.x (o.idx.extractLsb' 0 6)).toInt * 2 ^ o.scale.toNat); a % 4 = 0 ∧ vec.okBank a = true) ∧
    (idxRegs c o = some [256] ∧ ∀ e ∈ es, idxAddr c o [256] e % 4 = 0 ∧ vec.okBank (idxAddr c o [256] e) = true) ∧
    (es = [] ++ 0 :: es.drop 1 ∧ flat (at_ 2) 0 % 4 ≠ 0) ∧
    ((∀ d ∈ es, flat (at_ 0x100000) d % 4 = 0) ∧ vec.okBank (flat (at_ 0x100000) 0) = false) := by decide
theorem wit_VectorIntegerValues : isInt .s32 = true ∧ 2 ^ 32 - 1 < 2 ^ (8 * esize .s32) ∧ isInt .z8 = true ∧ 255 < 2 ^ (8 * esize .z8) ∧
    isSigned .s32 = true ∧ isSigned .z8 = false := by decide
theorem wit_VectorChecks :
    let h : Head := ⟨false, false, 1, 0, 0, 0xF0, false⟩
    let s : State := { vec with core := { vec.core with regs := { vec.core.regs with p := vset vec.core.regs.p 4 3 } } }
    let f : State := { s with core := { s.core with ctl := { s.core.ctl with vview := vfar.core.ctl.vview } } }
    let ps (c : Core) : List Nat := (c.enabledElems h 1).flatMap (fun e => (List.range 1).map (fun k => e * 1 + k))
    s.core.enabledElems h (esize .z8) ≠ [] ∧ s.core.vaddr 0 = some 0 ∧ s.core.vaddr 1 = some 256 ∧ slowAt 0 = false ∧ slowAt 256 = false ∧
    (f.core.vaddr 0 = some 0x40000 ∧ f.core.vaddr 1 = some 0x40100 ∧ (slowAt 0x40000 || slowAt 0x40100) = true ∧ f.core.enabledElems h 1 ≠ []) ∧
    (∀ p ∈ ps s.core, s.core.vbyte 0 p = s.core.vbyte 256 p) ∧
    (let c := (atRf [(256 + 1, 9)] s).core
     ps c = [0] ++ 1 :: [] ∧ c.vbyte 0 0 = c.vbyte 256 0 ∧ c.vbyte 0 1 ≠ c.vbyte 256 1) ∧
    (s.core.vaddr 4 = none ∧ isInt .f32 = false ∧ isTap .t6 = true ∧ s.core.enabledElems h (esize .f32) ≠ [] ∧
      s.core.enabledElems h (esize .t6) ≠ []) := by decide

theorem wit_MatrixQueues : mat.core.enabled u = true ∧
    ∀ p ∈ [planMld ⟨63, 0, 0, false, .s8, false, 0, 0, false, false⟩ mat, planMld ⟨63, 0, 0, false, .s8, true, 7, 1, true, true⟩ mat,
      planMst ⟨63, 0, 0, false, .s8, false, 0, 0, false, false⟩ mat, planMst ⟨10, 0, 0, true, .s8, false, 0, 0, false, false⟩ mat,
      planMzero ⟨0, 0, 0, 1, 0⟩ mat, planMnorm ⟨0, 0, 0, 1, 0⟩ mat, planMout ⟨63, 0, 0, 1, 1⟩ mat, planMcvt ⟨63, 0, 0, 0, 0⟩ mat,
      planMtrn ⟨63, 10, 0, 0, 0⟩ mat, planMfac ⟨63, 0, 0, 0, 0⟩ mat, planMfac ⟨63, 0, 0, 0, 1⟩ mat, planLrmul ⟨63, 10, 11, 0, 0⟩ mat,
      planLradd ⟨63, 10, 11, 0, 0⟩ mat, planMtemper ⟨63, 11, 0, 0, 0⟩ mat, planMdense ⟨63, 10, 0, 0, 0⟩ mat,
      planMma ⟨false, 1, false, 2, 1, 0, false, 0⟩ mat, planMma ⟨true, 7, false, 2, 1, 1, true, 0⟩ mat, planMmas ⟨false, 1, false, 2, 1, 0, false, 7⟩ mat,
      planLrmma ⟨false, 1, false, 11, 1, 0, false, 0⟩ mat], p.clear mat := by
  unfold Plan.clear
  decide
theorem wit_MatrixHolds :
    let s := queued1 job1 0
    let held (p : Plan) : Prop := p.illop = false ∧ p.badRing s.core = false ∧ (p.reads.any s.core.busy = true ∨
      p.writes.any (fun r => s.core.busy r || s.core.readHeld r) = true ∨ ∃ e ∈ p.rings, (s.core.ring e.1).filled < p.wait)
    s.core.enabled u = true ∧ (planMld ⟨63, 0, 0, false, .s64, false, 0, 0, false, false⟩ s).illop = true ∧
    (planMma ⟨true, 0, false, 2, 1, 1, true, 0⟩ s).badRing s.core = true ∧ (planMzero ⟨0, 0, 0, 2, 0⟩ s).illop = true ∧
    ∀ p ∈ [planMld ⟨1, 0, 0, false, .s8, false, 0, 0, false, false⟩ s, planMld ⟨63, 0, 0, false, .s8, true, 7, 2, false, false⟩ s,
      planMst ⟨2, 0, 0, false, .s8, false, 0, 0, false, false⟩ s, planMzero ⟨0, 0, 0, 1, 0⟩ s, planMnorm ⟨0, 0, 0, 1, 0⟩ s,
      planMout ⟨1, 0, 0, 0, 0⟩ s, planMcvt ⟨63, 2, 0, 0, 0⟩ s, planMtrn ⟨1, 3, 0, 0, 0⟩ s, planMfac ⟨2, 0, 0, 0, 0⟩ s, planLrmul ⟨63, 10, 11, 0, 0⟩ s,
      planLradd ⟨63, 11, 10, 0, 0⟩ s, planMtemper ⟨2, 11, 0, 0, 0⟩ s, planMdense ⟨1, 11, 0, 0, 0⟩ s, planMma ⟨true, 7, false, 3, 0, 2, true, 0⟩ s,
      planMmas ⟨false, 2, false, 3, 0, 0, false, 7⟩ s, planLrmma ⟨false, 3, false, 10, 0, 0, false, 0⟩ s], held p := by decide
theorem wit_MatrixEvents :
    mat.core.enabled u = true ∧ tileBeyond mat.core.ctl 63 = false ∧ mat.core.busy (.tile 63) = false ∧
    ((queued1 job1 5).core.units.anvil.find? (MJob.readDue 5) = some job1 ∧ (queued1 job1 5).core.front.clock = 5) ∧
    ((queued1 job1 9).core.units.anvil.find? (MJob.doneDue 9) = some job1 ∧ job1.out.saturated ≠ []) ∧
    (let j := { job1 with out := ⟨[(7, 1)], [], [], [], []⟩ }
     (queued1 j 9).core.units.anvil.find? (MJob.doneDue 9) = some j ∧ j.out.saturated = []) := by decide

theorem wit_CopySlotIssues :
    let s := chan [] false (atRegs (xs [(12, 0x100000040), (13, 64)]))
    u.spec = false ∧ s.memoryWf ∧ s.core.enabled u = true ∧ (∀ k : KTok, (s.core.token k).cnt ≠ 15) ∧
    (let o : CB := ⟨10, 11, 12, 2, 2, .sy, false, 0, 0⟩; badShape (s.core.x o.shape) = false ∧ (o.flags.getLsbD 1 = true → o.ssp ≠ 0)) ∧
    (let o : CB := ⟨10, 11, 0, 2, 2, .pk, false, 0, 0⟩; o.scope ≠ .sy ∧ (o.order = 0 ∨ o.order = 2) ∧
      s.sendEntry o.shape = some ch0 ∧ s.pathPaused ch0 = false) ∧
    (let o : CA := ⟨5, 6, 7, 0, 3, .sc, .pk, 3, true⟩; (o.so = .rlx ∨ o.so = .acq ∨ o.so = .sc) ∧ (o.so = .sc → o.fo = true) ∧ o.so ≠ .rlx) ∧
    (let o : CA := ⟨5, 6, 7, 0, 3, .acq, .pk, 3, false⟩; (o.so = .rlx ∨ o.so = .acq) ∧ (o.so = .sc → o.fo = true)) ∧
    (let s := vec
     s.memoryWf ∧ (s.core.token 7).cnt ≠ 15 ∧ s.core.enabledElems u (esize .s32) ≠ [] ∧ s.core.vaddr 3 = some 768) :=
  ⟨rfl, rfl, by decide, by decide, by decide, ⟨by decide, by decide, sends0 rfl rfl rfl, by decide⟩, by decide, by decide, rfl, by decide⟩
theorem wit_CrucibleIssues :
    let s := withRing (ring7 3)
    u.spec = false ∧ s.memoryWf ∧ s.core.enabled u = true ∧ (s.core.token 7).cnt ≠ 15 ∧
    (CK.mk 15 20 0 7 false 0 0).ringed = false ∧ (CK.mk 15 20 0 7 true 7 0).ringed = true ∧
    (s.core.ring 7).on = true ∧ s.okRing (s.core.ring 7).word = true ∧ (s.core.ring 7).full 1 = false ∧ s.core.claimed 7 = 0 ∧
    ((withRing (ring7 4)).core.ring 7).full (1 + (withRing (ring7 4)).core.claimed 7) = true :=
  ⟨rfl, rfl, by decide⟩
theorem wit_RingProducers :
    let full := withRing (ring7 4)
    let part (s : State) : State := { s with core := { s.core with regs := { s.core.regs with x := xs [(12, 0x100000040), (11, 4), (13, 5)] } } }
    let o : CB := ⟨10, 11, 12, 7, 0, .cr, true, 7, 0⟩
    let q : CB := ⟨0, 11, 0, 0, 0, .cr, true, 7, 1⟩
    let s := part (withRing (ring7 0))
    let f := part full
    let badShape' (s : State) : Prop := badShape (s.core.x o.shape) = false ∧ (o.flags.getLsbD 1 = true → o.ssp ≠ 0) ∧
      (s.core.ring 7).on = true ∧ s.okRing (s.core.ring 7).word = true ∧ outsideSlot (slotBytes (s.core.ring 7).ssz.toNat)
        [s.core.x o.dst, s.core.x 12, s.core.x o.shape, s.core.x (o.shape + 1)] = false
    (u.spec = false ∧ s.core.enabled u = true ∧ f.core.enabled u = true ∧ (s.core.token 7).cnt ≠ 15) ∧
    (badShape' s ∧ (s.core.ring 7).full 1 = false) ∧ (badShape' f ∧ (f.core.ring 7).full 1 = true) ∧
    (fld (s.core.x 11) 0 12 = 4 ∧ 4 ≤ (s.core.ring 7).nslot.toNat + 1 ∧ 4 ≠ 0 ∧ q.flags.getLsbD 0 = true ∧ o.flags.getLsbD 0 = false ∧
      fld (s.core.x 0) 0 12 = 0) ∧
    ((s.core.ring 7).filled < 4 ∧ (s.core.ring 7).full 4 = false ∧ (s.core.ring 7).claims = []) ∧
    (4 ≤ (f.core.ring 7).filled ∧ (f.core.ring 7).pops = [] ∧ (f.core.ring 7).full 4 = true) := by decide
theorem wit_BindAndBus :
    let s := chan [.msg (List.replicate 256 1)] false (on locked)
    let b := atRegs (xs [(5, 128), (6, 128), (7, 8)])
    u.spec = false ∧ s.memoryWf ∧ s.core.enabled u = true ∧ badBind b.bindingsNext (b.core.x 5) (b.core.x 6) (b.core.x 7) = false ∧
    (s.core.lockm ≠ 0 ∧ (s.core.x 0).toNat % 256 = 0 ∧ s.okBanks (s.core.x 0).toNat 512 = true) ∧
    (s.recvEntry 0 = some ch0 ∧ (s.channel 0).queue = .msg (List.replicate 256 1) :: [] ∧ (s.channel 0).paused = false ∧
      s.okBanks (s.core.x 0).toNat 256 = true) := ⟨rfl, rfl, by decide, by decide, by decide, recvs0 rfl rfl rfl, rfl, rfl, by decide⟩
theorem wit_BarrierIssues :
    (u.spec = false ∧ s0.memoryWf ∧ s0.core.enabled u = true ∧ Scope.cl ≠ .sy ∧ s0.core.front.arrv.contains (arrvKey u (scopeLevel .cl)) = false ∧
      s0.groupOf (scopeLevel .cr) = none ∧ s0.groupOf (scopeLevel .dm) = none) ∧
    (scopeLevel .cl < 2 ∧ s0.scopeBusy (scopeLevel .cl) = false ∧ scopeLevel .cr = 0 ∧ scopeLevel .dm ≠ 0) ∧
    (∃ b, (group 1 1).groupOf (scopeLevel .cl) = some b ∧ (group 1 1).lastArrival (scopeLevel .cl) ≤ b.gen ∧ (group 1 1).memoryWf) ∧
    (∃ b, (group 2 1).groupOf (scopeLevel .cl) = some b ∧ b.gen < (group 2 1).lastArrival (scopeLevel .cl) ∧ (group 2 1).core.enabled u = true) :=
  ⟨⟨rfl, rfl, by decide⟩, by decide, ⟨_, rfl, by decide, rfl⟩, ⟨_, rfl, by decide, by decide⟩⟩
theorem wit_CopySlotRefusals :
    s0.core.enabled us = true ∧ us.spec = true ∧ s0.core.enabled u = true ∧ u.spec = false ∧
    badBind s0.bindingsNext (s0.core.x 0) (s0.core.x 0) (s0.core.x 0) = true ∧ badShape (s0.core.x 0) = true ∧ (s0.core.ring 0).on = false ∧
    s0.core.lockm = 0 ∧
    (let s := atUnits (fun w => { w with tokens := tok [(7, { Token.zero with cnt := 15 })] })
     s.core.enabled u = true ∧ (s.core.token 7).cnt = 15) ∧
    (let s := on (fun c => { locked c with regs := { c.regs with x := xs [(5, 1), (6, 0xFFF00)] } })
     s.core.enabled u = true ∧ s.core.lockm ≠ 0 ∧ (s.core.x 5).toNat % 256 ≠ 0 ∧ (s.core.x 6).toNat % 256 = 0 ∧ s.okBanks (s.core.x 6).toNat 512 = false) ∧
    (let s := on (fun c => { c with task := none })
     s.core.enabled u = true ∧ s.sendEntry 0 = none ∧ s.recvEntry 0 = none) ∧
    ((chan [] false s0).recvEntry 0 = some ch0 ∧ (s0.core.x 0).toNat % 256 = 0 ∧ (chan [] false s0).okBanks (s0.core.x 0).toNat 256 = true ∧
      ((chan [] false s0).channel 0).queue = [] ∧ ((chan [] false s0).channel 0).down = false ∧ ((chan [] true s0).channel 0).down = true) :=
  ⟨by decide, rfl, by decide, rfl, by decide, by decide, by decide, by decide, by decide, by decide, by decide, recvs0 rfl rfl rfl, by decide⟩

theorem wit_PaceEvents :
    let vote := on (fun c => { c with pipe := ⟨[⟨0, 0, .vote3⟩], [], []⟩ })
    let land := on (fun c => { c with pipe := ⟨[⟨0, 0, .x 4 1⟩], [], []⟩ })
    let held := atFront (fun f => { f with held := true, holds := [.tokens 0xFF] })
    let lock := atFront (fun f => { f with held := true, holds := [.lock 3] })
    let unlock := atFront (fun f => { f with held := true, holds := [.unlock] })
    let trap := atFront (fun f => { f with povt := 7 })
    let drain := atFront (fun f => { f with after := .drain })
    vote.core.voteDue = true ∧ (land.core.voteDue = false ∧ land.core.landDue = true) ∧ held.mayIssue = true ∧
    (lock.mayIssue = true ∧ Hold.lock 3 ∈ lock.core.front.holds) ∧ (unlock.mayIssue = true ∧ Hold.unlock ∈ unlock.core.front.holds) ∧
    (atFront (fun f => { f with gatherFrz := some 0 })).core.front.gatherFrz = some 0 ∧
    (atFront (fun f => { f with bellowsFrz := some 16 })).bellowsOver = true ∧
    (trap.trapDue = true ∧ trap.core.front.after ≠ .resume ∧ trap.core.trapCause = some (1, 0, 7)) ∧ drain.core.drained = true := by decide
theorem mapped_of {s : State} {asid : BitVec 12} {k : AccKind} {va n pa : Nat} (t : Tlb)
    (h : 0 < n ∧ va < 2 ^ 56 ∧ va % 65536 + n ≤ 65536 ∧ s.badFrame pa = false ∧ s.paOk pa = true ∧ (k = .write → s.sealedFrame (s.frame pa) = false) ∧
      s.memory.tlb.find? (fun t => t.covers asid va && leafAdmits t.leaf k) = some t ∧ 16 ≤ t.log ∧ fld t.leaf 10 2 = 0 ∧
      pa = fld t.leaf 16 36 * 65536 + va % 2 ^ t.log) : s.mapped asid k va n pa :=
  ⟨h.1, h.2.1, h.2.2.1, h.2.2.2.1, h.2.2.2.2.1, h.2.2.2.2.2.1, t, h.2.2.2.2.2.2⟩
/-- The mapped state in which the core's agent has checked line 0 out. -/
def line0 (s : State) : State :=
  { mapped s with memory := { (mapped s).memory with lines := [⟨s.core.cid, 0, List.replicate 128 7, true, []⟩] } }
def leaf0 : Tlb := ⟨1, 0, 16, 0x31⟩
/-- The command is outstanding and waits for nothing that another unit answers. -/
def calm (s : State) (k : Cmd) : Prop := s.cmd k.seq = some k ∧ k.asks = [] ∧ k.acks = [] ∧ s.fansRun k.fans = false
/-- It may be performed now. -/
def due (s : State) (k : Cmd) : Prop := calm s k ∧ k.stage = 0 ∧ k.err = 0 ∧ s.mayPerform k = true
def shape64 : List Word := [0, 0, 0x100000040, 0]
theorem wit_AccessEvents :
    let at_ (k : Cmd) : State := line0 (withCmd k)
    let far (k : Cmd) : State := mapped (withCmd k)
    let st (k : Cmd) : State := (at_ k).setStack 0 { (at_ k).stack 0 with wsphase := 4096 }
    let c : CLine := ⟨s0.core.cid, 0, List.replicate 128 7, true, []⟩
    let ldg := cmd0 (.ldg u ⟨5, 6, 0, 1, 3, .rlx, .pk, 1, false⟩)
    let odd := { ldg with addr := 1 }
    let stg := cmd0 (.stg u ⟨0, 6, 7, 1, 3, .rlx, .cl, 1, false⟩)
    let rel := cmd0 (.stg u ⟨0, 6, 7, 1, 3, .rel, .dm, 1, false⟩)
    let amo := cmd0 (.amo u ⟨5, 6, 7, 1, 3, .rlx, .pk, 1, false⟩)
    let cas := cmd0 (.cas u ⟨5, 6, 7, 1, 3, .acq, .pk, 1, false⟩)
    let acq := cmd0 (.fence u ⟨0, 0, 0, 0, 3, .acq, .pk, 1, false⟩)
    let frel := { cmd0 (.fence u ⟨0, 0, 0, 0, 3, .rel, .pk, 1, false⟩) with stage := 1 }
    let bytes : List (Nat × Byte) := [(0, 0), (1, 0), (2, 0), (3, 0)]
    let vldg : Cmd := { cmd0 (.vldg u ⟨3, 6, .s32, .rlx, .pk, 1⟩) with data := bytes, ops := [0, 768] }
    let vstg : Cmd := { cmd0 (.vstg u ⟨3, 6, .s32, .rlx, .cl, 1⟩) with data := bytes, ops := [0, 768] }
    let cpy (f : BitVec 6) : Cmd := { cmd0 (.cpy u ⟨10, 11, 12, 1, 0, .pk, false, 0, f⟩) with ops := shape64 }
    let rows (k : Cmd) : Prop := copyShape k = (((copyShape k).1, (copyShape k).2.1, false, 64, 1)) ∧ copyRows k 1 = [⟨0, 0, 0⟩] ∧ s0.core.g = 1
    (calm (at_ { stg with stage := 2 }) { stg with stage := 2 } ∧ isMemAccess stg.ins = true ∧ stg.got = []) ∧
    (calm (at_ { cpy 0 with stage := 2 }) { cpy 0 with stage := 2 } ∧ isCopy (cpy 0).ins = true) ∧
    ((due (at_ acq) acq ∧ isFence acq.ins = true) ∧ (due (at_ odd) odd ∧ isFence odd.ins = false ∧ odd.addr % (homeKind odd.ins).2.2 ≠ 0)) ∧
    (due (at_ ldg) ldg ∧ (at_ ldg).mapped (at_ ldg).asid .read 0 8 0 ∧ (at_ ldg).held (at_ ldg).core.cid 0 8 c) ∧
    (due (at_ stg) stg ∧ (at_ stg).mapped (at_ stg).asid .write 0 8 0 ∧ (at_ stg).held (at_ stg).core.cid 0 8 c ∧ cmdScope stg.ins < 2) ∧
    (due (at_ vldg) vldg ∧ vldg.extent = [(0, 4)] ∧ (at_ vldg).mapped (at_ vldg).asid .read 0 4 0 ∧ (at_ vldg).held (at_ vldg).core.cid 0 4 c) ∧
    (due (at_ vstg) vstg ∧ vstg.extent = [(0, 4)] ∧ (at_ vstg).mapped (at_ vstg).asid .write 0 4 0 ∧ (at_ vstg).held (at_ vstg).core.cid 0 4 c) ∧
    (∀ k ∈ [amo, cas], due (far k) k ∧ (far k).memoryWf ∧ (far k).mapped (far k).asid .write 0 8 0 ∧ (far k).atRest (far k).core.cid 0 8) ∧
    (due (far rel) rel ∧ isRelease rel.ins = true ∧ isRelCas rel.ins = false ∧ 2 ≤ cmdScope rel.ins ∧
      (far rel).coveredLines (far rel).core.cid 0 (fun _ => true) = [] ∧ (far rel).coveredFans 0 (fun _ => true) = []) ∧
    (calm (at_ frel) frel ∧ isFence frel.ins = true ∧ orderOf frel.ins ≠ .sc) ∧
    (∀ f ∈ [0, 0x20, 0x10, 4], due (st (cpy f)) (cpy f) ∧ rows (cpy f) ∧ (st (cpy f)).okBanks 0 64 = true ∧
      (Order.acquires (orderOf (cpy f).ins) && decide (2 ≤ cmdScope (cpy f).ins)) = false ∧ (cpy f).relScope < 2 ∧
      (∀ g ∈ wsGroups 0 64, (st (cpy f)).refreshing (st (cpy f)).core.stk g = false) ∧ (st (cpy f)).held (st (cpy f)).core.cid 0 64 c) ∧
    ((copyShape (cpy 0)).1 = 0 ∧ (copyShape (cpy 0)).2.1 = 0 ∧ (copyShape (cpy 0x20)).1 = 2 ∧ (copyShape (cpy 0x20)).2.1 = 0 ∧
      (copyShape (cpy 0x10)).1 = 1 ∧ (copyShape (cpy 0x10)).2.1 = 0 ∧ (st (cpy 0x10)).mapped (st (cpy 0x10)).asid .read 0 64 0 ∧
      (copyShape (cpy 4)).1 = 0 ∧ (copyShape (cpy 4)).2.1 = 1 ∧ (st (cpy 4)).mapped (st (cpy 4)).asid .write 0 64 0) := by
  unfold due calm State.held State.atRest
  refine ⟨by decide, by decide, by decide, ⟨by decide, mapped_of leaf0 (by decide), by decide⟩, ⟨by decide, mapped_of leaf0 (by decide), by decide⟩,
    ⟨by decide, rfl, mapped_of leaf0 (by decide), by decide⟩, ⟨by decide, rfl, mapped_of leaf0 (by decide), by decide⟩, ?_, by decide, by decide,
    by decide +kernel, rfl, rfl, rfl, rfl, rfl, rfl, mapped_of leaf0 (by decide), rfl, rfl, mapped_of leaf0 (by decide)⟩
  intro k hk
  cases hk with
  | head => exact ⟨by decide, rfl, mapped_of leaf0 (by decide), by decide⟩
  | tail _ hk => cases hk with
    | head => exact ⟨by decide, rfl, mapped_of leaf0 (by decide), by decide⟩
    | tail _ hk => cases hk
theorem wit_SequencerAndWatchEvents :
    let far (k : Cmd) : State := mapped (withCmd k)
    let at_ (k : Cmd) : State := line0 (withCmd k)
    let c : CLine := ⟨s0.core.cid, 0, List.replicate 128 7, true, []⟩
    let sc (i : Instr) : Cmd := { cmd0 i with stage := 1 }
    let scOk (k : Cmd) : Prop := calm (far k) k ∧ orderOf k.ins = .sc ∧ k.stage = 1 ∧ k.performed = false ∧ (far k).mayPerform k = true
    let o : CA := ⟨5, 6, 7, 1, 3, .sc, .pk, 1, false⟩
    let retry := { cmd0 (.stg u ⟨0, 6, 7, 1, 3, .rlx, .pk, 1, false⟩) with retry := some 0 }
    let wsc : Cmd := { cmd0 (.cpy u ⟨10, 11, 12, 1, 0, .pk, false, 0, 0x20⟩) with window := true, ops := shape64 }
    let ws (k : Cmd) : State := (withCmd k).setStack 0 { (withCmd k).stack 0 with wsphase := 4096 }
    let wa (v : Word) : Cmd := { cmd0 (.waitaddr u ⟨12, 20, 0, 11, 3, .rlx, .sy, 1, false⟩) with ops := [0, 0, v] }
    let snd (stage a : Nat) : Cmd := { cmd0 (.lsend u ⟨10, 11, 0, 1, 0, .pk, false, 0, 0⟩) with stage := stage, addr := a }
    let sent (k : Cmd) : State := chan [] false (withCmd k)
    (scOk (sc (.fence u { o with d := 0 })) ∧ isFence (.fence u { o with d := 0 }) = true) ∧
    (∀ i ∈ [Instr.ldg u o, .stg u o, .amo u o, .cas u o], scOk (sc i) ∧ isFence i = false ∧ (far (sc i)).memoryWf ∧
      (far (sc i)).mapped (far (sc i)).asid (if (homeKind i).1 = 0 then .read else .write) 0 8 0 ∧ (far (sc i)).atRest (far (sc i)).core.cid 0 8) ∧
    (calm (far retry) retry ∧ retry.retry = some 0 ∧ ∀ d ∈ (far retry).cores, ∀ j ∈ d.units.cmds, j.retry = some 0 →
      olderReq (retry.born, 0, retry.seq) (j.born, d.cnum, j.seq) = true) ∧
    (calm (ws wsc) wsc ∧ wsc.window = true ∧ (copyGroups wsc (ws wsc).core.g).contains 0 = true ∧ (ws wsc).refreshing 0 0 = false) ∧
    (∀ v ∈ [(0 : Word), 0x0707070707070707], calm (at_ (wa v)) (wa v) ∧ (wa v).err = 0 ∧ (at_ (wa v)).mayPerform (wa v) = true ∧
      (at_ (wa v)).mapped (at_ (wa v)).asid .read 0 8 0 ∧ (at_ (wa v)).held (at_ (wa v)).core.cid 0 8 c) ∧
    leNat ((c.bytes.drop (0 % 128)).take 8) = 0x0707070707070707 ∧
    (let wt := { wa 0 with limit := some 5, performed := true }
     let s : State := { withCmd wt with regs := { (withCmd wt).regs with m := { (withCmd wt).regs.m with tbase := 5 } } }
     calm s wt ∧ wt.limit = some 5 ∧ 5 ≤ s.regs.m.tbase.toNat) ∧
    calm (sent (snd 2 0)) (snd 2 0) ∧
    ((sent (snd 0 0)).okBanks 0 256 = true ∧ (sent (snd 0 0x100000)).okBanks 0x100000 256 = false) ∧
    (∀ a ∈ [1, 0, 0x100000], due (sent (snd 0 a)) (snd 0 a) ∧ isRelease (snd 0 a).ins = false ∧
      (∀ j ∈ (sent (snd 0 a)).core.units.cmds, j.seq < (snd 0 a).seq → ∀ h' q, j.ins = .lsend h' q → q.shape ≠ 0) ∧
      (sent (snd 0 a)).sendEntry 0 = some ch0 ∧ ch0.dstm = (sent (snd 0 a)).mid ∧ ((sent (snd 0 a)).channel 0).queue.length < 64) ∧
    (let f : State := { sent (snd 0 0) with memory := { (sent (snd 0 0)).memory with mem := [(3, 0x80)] }, regs := { s0.regs with m := { s0.regs.m with domain := 1 } } }
     due f (snd 0 0) ∧ f.sendEntry 0 = some ch0 ∧ ch0.dstm ≠ f.mid ∧ f.route ch0.dstm = none) ∧
    (let f := free (withCmd (snd 0 0)); due f (snd 0 0) ∧ f.sendEntry 0 = none) := by
  unfold due calm State.atRest State.held
  refine ⟨by decide, ?_, by decide, by decide, ?_, by decide, by decide, by decide, by decide, ?_, ⟨by decide, sends0 rfl rfl rfl, by decide⟩, by decide, rfl⟩
  · intro i hi
    simp only [List.mem_cons, List.not_mem_nil, or_false] at hi
    rcases hi with rfl | rfl | rfl | rfl <;> exact ⟨by decide, by decide, rfl, mapped_of leaf0 (by decide), by decide⟩
  · intro v hv
    simp only [List.mem_cons, List.not_mem_nil, or_false] at hv
    rcases hv with rfl | rfl <;> exact ⟨by decide, by decide, by decide, mapped_of leaf0 (by decide), by decide⟩
  · intro a ha
    simp only [List.mem_cons, List.not_mem_nil, or_false] at ha
    rcases ha with rfl | rfl | rfl <;> exact ⟨by decide, by decide, fun j hj h => absurd h (by
      cases hj with
      | head => decide
      | tail _ hj => cases hj), sends0 rfl rfl rfl, by decide, by decide⟩

def isOk {α β : Type} : Option (Except α β) → Bool
  | some (.ok _) => true
  | _ => false
def isErr {α β : Type} : Option (Except α β) → Bool
  | some (.error _) => true
  | _ => false
theorem wit_HearthEvents :
    let s := hearth0 image true 1
    let none0 : List (Nat × List Byte) := [(15, [0x80])]
    let empty := hearth0 none0 true 1
    let late : State := { s with hearth := { s.hearth with queues := [(0, { queue0 with tail := 2 })] } }
    let off := hearth0 [] true 1
    let e := hearth0 image false 0
    let far : State := { e with core := { e.core with ovl := [] } }
    let bad := hearth0 none0 false 0
    (s.queue 0 = queue0 ∧ queue0.on = true ∧ queue0.stopc = 0 ∧ queue0.sync = false ∧ s.readWaits (.words 0) = false ∧
      s.mapped queue0.asid .read queue0.tailVa 8 0x8000 ∧ s.homeFree 0x8000 8 = true ∧ s.poisoned 0x8000 8 = false) ∧
    (queue0.head ≠ queue0.tail ∧ s.regs.m.hcfg.getLsbD 63 = true ∧ fld s.regs.m.mstate 0 4 = 4 ∧ s.readWaits (.record 0) = false ∧
      s.hearthFree queue0.asid queue0.headVa 8 = true) ∧
    ((late.queue 0).tail - (late.queue 0).head = 2 ∧ 2 ^ fld (late.queue 0).lq0 0 5 = 1 ∧ late.hearthFree queue0.asid queue0.headVa 8 = true) ∧
    ((off.asidOn queue0.asid).1 = some false ∧ off.queue 0 = queue0 ∧ off.hearthFree queue0.asid queue0.headVa 8 = true) ∧
    (isOk (s.readRecord 0 queue0).1 = true ∧ isErr (empty.readRecord 0 queue0).1 = true) ∧
    (s.launch 0 = some launch0 ∧ launch0.reported = false ∧ (∃ e ∈ launch0.waiting, s.unplaceable e.2 = true) ∧
      launch0.waitStart + (7 - launch0.pri + 4) * s.hearth.age.toNat ≤ s.regs.m.tbase.toNat) ∧
    (e.core.task = some { placedTask with started := false } ∧ e.core.cstate = 0 ∧ e.launch 0 = some launch0 ∧ launch0.nodes[0]? = some node0 ∧
      e.readWaits (.entry 0) = false ∧
      (match e.readHeader launch0 0 with
        | (some (.ok h), v) => (match State.fillPages 1 h h.ovls v with
          | .ok _ => true
          | _ => false)
        | _ => false) = true) ∧
    ((match far.readHeader launch0 0 with
        | (some (.ok h), v) => (match State.fillPages 1 h h.ovls v with
          | .error _ => true
          | _ => false)
        | _ => false) = true) ∧
    (bad.launch 0 = some launch0 ∧ isErr (bad.readHeader launch0 0).1 = true) ∧
    (let r : State := { s with core := { s.core with front := { s.core.front with ended := true } } }
     r.core.task = some placedTask ∧ placedTask.started = true ∧ r.mayRetire = true ∧ r.coveredLines r.core.cid r.core.cnum (fun _ => true) = [] ∧
      r.coveredFans r.core.cnum (fun _ => true) = []) := by
  refine ⟨⟨rfl, by decide, by decide, rfl, rfl, mapped_of leaf0 (by decide +kernel), by decide +kernel, by decide +kernel⟩, by decide +kernel,
    by decide +kernel, by decide +kernel, by decide +kernel, ⟨by decide, rfl, ⟨_, .head _, by decide +kernel⟩, by decide +kernel⟩, ?_, by decide +kernel,
    by decide +kernel, by decide +kernel⟩
  exact ⟨rfl, by decide, rfl, rfl, rfl, by decide +kernel⟩

theorem wit_DirectoryEvents :
    let at_ (l : List CLine) (d : List DirEntry) : State := { s0 with memory := { s0.memory with lines := l, dir := d } }
    let c (out : Bool) : CLine := ⟨3, 5, [1, 2], out, []⟩
    let f (inv ack : List Nat) : FanOut := ⟨0, [3, 4], inv, ack, [], false, []⟩
    let d (fan : Option FanOut) : DirEntry := ⟨5, .pointers [3, 4], false, [], none, (0, 0), fan⟩
    ((s0.setStack 0 { s0.stack 0 with removed := true }).stack (3 / 11)).removed = true ∧ (s0.stack (3 / 11)).removed = false ∧
    ((at_ [] []).fanBusy 5 = false ∧ (at_ [] []).cline 3 5 = none ∧ (at_ [] []).frameBusy (5 * 128) = false ∧
      ((at_ [] []).memory.lines.filter (fun l => l.agent == 3)).length < (at_ [] []).capacity 3) ∧
    ((at_ [c true] [d none]).cline 3 5 = some (c true) ∧ (c true).out = true ∧ (at_ [c true] [d none]).fanBusy 5 = false) ∧
    ((at_ [c false] [d none]).cline 3 5 = some (c false) ∧ (c false).out = false) ∧
    (let s := at_ [c false] [d (some (f [3] []))]
     s.entry 5 = some (d (some (f [3] []))) ∧ (d (some (f [3] []))).fan = some (f [3] []) ∧ 3 ∈ (f [3] []).inval ∧
      ∀ e, s.cline 3 5 = some e → e.out = false) ∧
    (let s := at_ [] [d (some (f [] [3]))]
     s.entry 5 = some (d (some (f [] [3]))) ∧ 3 ∈ (f [] [3]).acking ∧ ∃ a ∈ (f [] [3]).await, a ≠ 3) :=
  ⟨by decide, by decide, by decide, by decide, by decide, ⟨by decide, rfl, by decide, by
    intro e h
    cases (show some (⟨3, 5, [1, 2], false, []⟩ : CLine) = some e from h)
    rfl⟩, by decide⟩
theorem wit_CheckInMerges :
    let d : DirEntry := ⟨5, .pointers [3], false, [3], some [1, 2], (0, 0), none⟩
    let c : CLine := ⟨3, 5, [1, 9], true, []⟩
    let s : State := { s0 with memory := { s0.memory with lines := [c], dir := [d] } }
    s.memoryWf ∧ (s.stack (3 / 11)).removed = false ∧ s.cline 3 5 = some c ∧ c.out = true ∧ s.entry 5 = some d ∧ d.twin = some [1, 2] ∧
    s.memory.remaps = [] ∧ 5 * 128 + 128 ≤ 2 ^ 52 :=
  ⟨rfl, by decide⟩
theorem hdm0_windows :
    ∀ w ∈ s0.regs.lim.hdm.toList, w.1.getLsbD 0 = false ∨ 0x10000000000000 < fld w.1 16 36 * 65536 ∨
      (fld w.2 16 36 + 1) * 65536 < 0x10000000000000 + 65536 := by
  intro w h
  have e : s0.regs.lim.hdm.toList = List.replicate 4 (1, 0xFFFFFFFFF0000) := rfl
  rw [e] at h
  rw [List.eq_of_mem_replicate h]
  have last : fld (0xFFFFFFFFF0000 : Word) 16 36 = 0xFFFFFFFFF := by decide
  exact .inr (.inr (by simp only [last]; omega))
theorem wit_HostEvents :
    let fan : FanOut := ⟨0, [3], [], [], [], true, []⟩
    let d (f : Option FanOut) : DirEntry := ⟨5, .pointers [3], true, [], none, (0, 0), f⟩
    let l : HLine := ⟨7, [1], true, 1, (0, 0)⟩
    let r (w : Bool) : HeldReq := ⟨w, 64, [1], 1, 0⟩
    let dec : HdmDec := ⟨0, 0, 0, 65536, 0, false⟩
    let s (st : Word) (f : Option FanOut) : State := { s0 with
      regs := { s0.regs with m := { s0.regs.m with mstate := st } }
      memory := { s0.memory with dir := [d f], host := [l], heldReqs := [r true, r false] }
      board := { s0.board with portUp := #v[true, true], hdm := [dec] } }
    let hdm := s0.regs.lim.hdm.toList
    let no (st : Word) := s st none
    ((s 3 (some fan)).entry 5 = some (d (some fan)) ∧ (d (some fan)).fan = some fan ∧ fan.host = true ∧ fan.await ≠ []) ∧
    ((no 3).board.portUp.toList.any id = true ∧ (no 3).memory.host.find? (fun k => k.line == 7) = some l ∧
      (no 3).memory.host.find? (fun k => k.line == 8) = none) ∧
    ((no 3).inHdm 0 64 1 = some 64 ∧ (no 2).inHdm 0 64 1 = some 64 ∧ (no 2).hostMemHeld 64 = true ∧ (no 3).hostMemHeld 64 = false ∧
      (no 3).memoryWf ∧ (no 3).memory.remaps = [] ∧ (∀ l ∈ lineParts 64 1, (no 3).entry l.1 = none) ∧ (no 3).hostReady 64 1 = true) ∧
    ((no 3).inHdm 0 640 1 = some 640 ∧ (no 3).hostMemHeld 640 = false ∧ lineParts 640 1 = [(640 / 128, 640 % 128, 1)] ∧
      (no 3).entry (640 / 128) = some (d none) ∧ ∃ a ∈ (d none).sharers.agents, ((no 3).stack (a / 11)).removed = false) ∧
    ((no 3).memory.heldReqs[0]? = some (r true) ∧ (r true).write = true ∧ (no 3).memory.heldReqs[1]? = some (r false) ∧ (r false).write = false) ∧
    (65536 ≠ 0 ∧ ∃ w ∈ hdm, w.1.getLsbD 0 = true ∧ fld w.1 16 36 * 65536 ≤ 0 ∧ 0 + 65536 ≤ (fld w.2 16 36 + 1) * 65536) ∧
    (∀ w ∈ hdm, w.1.getLsbD 0 = false ∨ 0x10000000000000 < fld w.1 16 36 * 65536 ∨ (fld w.2 16 36 + 1) * 65536 < 0x10000000000000 + 65536) ∧
    (dec.hpa ≤ 64 ∧ 64 + 1 ≤ dec.hpa + dec.size ∧ dec.two = false ∧ (let e : HdmDec := { dec with two := true }; (256 - e.hpa) / 256 % 2 ≠ e.port)) := by
  refine ⟨by decide, by decide, ⟨by decide, by decide, by decide, by decide, rfl, by decide⟩, by decide, by decide, by decide +kernel,
    hdm0_windows, by decide⟩
/-- A node of namespace 1 in slot 2 whose only block has its header at 0x10000 and one granule at 0x20000. -/
def knode0 (st : NState) (e : Word) : KNode :=
  { slot := 2, st := st, gen := 0, cxl := false, ns := 1, name := 9, parent := 0, depth := 1, asid := 1, owner := 0, hdr := 0x10000,
    blocks := [⟨0, [0x20000], if st = .demoting then [0x30000] else []⟩], old := [], written := [], refs := [], remoteRefs := [], pins := [], evictPins := [], expiry := e, bad := false,
    repl := false, home := 0, frozen := false }
def space0 : NSpace := ⟨0, 1, 4, 0, 1, 1, 64, false, 0, 0, 0, 0, 0, [15, 15]⟩
theorem wit_StoreEvents :
    let st (m : KNode) : State := { s0 with
      crucible := { s0.crucible with spaces := [space0], nodes := [m] }
      regs := { s0.regs with m := { s0.regs.m with tbase := 5, cridx := 0x100000001, crhbm := 0x10002000000000, crmark := 0x2000040000 } } }
    let n := knode0 .sealed 5
    let sea := knode0 .sealing 0
    let dem := knode0 .demoting 0
    let good : State := { st dem with memory := { s0.memory with mem := Memory.setN [] 0x10000 (leBytes 8 (blockCheck 9 0 ((st dem).payload dem ⟨0, [0x20000], [0x30000]⟩)).toNat) } }
    let calm (s : State) : Prop := s.crucible.walkHbm = false ∧ s.pressureAt false (markHigh s.regs.m.crmark) = false ∧
      s.pressureOver true (markCxl s.regs.m.crmark) = false
    let h : Word := n.handle 0
    let k (i : Instr) (ops : List Word) : Cmd := { cmd0 i with ops := ops }
    let run (m : KNode) (c : Cmd) (bank : List Host.Cell) : State :=
      { st m with core := { (withCmd c).core with regs := { s0.core.regs with bank := bank } } }
    let turn (m : KNode) (c : Cmd) (bank : List Host.Cell) : Prop := (run m c bank).cmd 3 = some c ∧ c.asks = [] ∧ c.err = 0 ∧ (run m c bank).kTurn c = true
    let o : CK := ⟨15, 20, 0, 1, false, 0, 0⟩
    let block : List Host.Cell := [(0, 1), (24, 1)]
    ((st sea).node 2 = some sea ∧ sea.repl = false ∧ (st sea).parent sea = none ∧ (st sea).space 1 = some space0 ∧ (st sea).dirMod 9 = (st sea).mid) ∧
    (good.node 2 = some dem ∧ dem.blocks.all (fun b => good.blockGood dem b) = true ∧ dem.blocks.all (fun b => (st dem).blockGood dem b) = false) ∧
    ((st n).node 2 = some n ∧ (5 : Word) ≠ 0 ∧ (5 : Word).toNat ≤ (st n).regs.m.tbase.toNat ∧ calm (st n)) ∧
    (∀ i, i < 16 → (s0.link i).failedAt = none) ∧
    (let c := k (.khash u o) [64, 128, 0]
     turn n c block ∧ c.spec = false ∧ (run n c block).okBanks 0 32 = true ∧ (run n c block).space 1 = some space0 ∧
      (let b := (run n c block).bankRead 0 0 32
       numAt b 0 8 = 1 ∧ numAt b 24 1 = 1 ∧ zeroAt b 25 7 = true) ∧
      (run n c block).okBanks 64 16 = true ∧ (run n c block).okBanks 128 (4 * 1 * 4) = true) ∧
    (let c := k (.kstat u o) [64, h, 0]
     turn n c [] ∧ (run n c []).okBanks 64 32 = true ∧ (run n c []).isRemote h = false) ∧
    (let c := k (.kref u o) [64, h, 0]
     turn n c [] ∧ (run n c []).current h = some n ∧ (run n c []).space n.ns = some space0 ∧ (run n c []).okBanks 64 16 = true ∧
      space0.right (run n c []).asid 0 = true ∧ n.refCount < 65535 ∧ (run n c []).mayRef (run n c []).serialOf = true) ∧
    (let c := k (.kunref u o) [64, h, 0]
     turn n c [] ∧ n.refsOf (run n c []).mid (run n c []).caller = 0) ∧
    (let c := k (.klease u o) [64, h, 0]
     turn n c [] ∧ space0.right (run n c []).asid 2 = true ∧ fld (0 : Word) 32 32 = 0) := by
  refine ⟨by decide +kernel, by decide +kernel, by decide +kernel, by decide, by decide +kernel, by decide +kernel, by decide +kernel, by decide +kernel, by decide +kernel⟩

theorem wit_ContextEvents :
    let forced (s : State) : State := { s with core := { s.core with drv := { s.core.drv with force := true } } }
    let park := withCmd { cmd0 (.ldg u ⟨5, 6, 0, 1, 3, .rlx, .pk, 1, false⟩) with parked := some (64, false) }
    let gone := free (keeps (atState 5 s0))
    let back (s : State) : State := { s with core := { s.core with drv := { s.core.drv with cctl := 0x5400000000000000 } } }
    (s0.core.cstate = 1 ∧ (atState 3 s0).core.cstate ≠ 1 ∧ (free s0).core.task = none) ∧
    (s0.core.task ≠ none ∧ (forced s0).forceDue = true ∧
      (let b := atFront (fun f => { f with bubbles := 1 }); b.core.cstate = 1 ∧ b.core.task ≠ none ∧ (forced b).forceDue = false)) ∧
    ((atState 3 s0).core.cstate = 3 ∧ (atState 3 s0).core.task = some placedTask) ∧
    ((keeps (atState 5 s0)).core.cstate = 5 ∧ (keeps (atState 5 s0)).core.drv.saved ≠ none) ∧
    (park.parkedOn false).isSome = true ∧ (atState 4 s0).saveReady = true ∧
    ((back gone).core.cstate = 5 ∧ (back gone).core.drv.cctl.getLsbD 58 = true ∧ (back gone).core.task = none ∧ (back gone).core.drv.saved ≠ none) := by
  decide
theorem wit_ContextStates :
    (∀ k ∈ [0, 1, 2, 3, 4, 5, 6, 7], (atState k s0).core.cstate = k) ∧
    (∀ k ∈ [0, 1, 2, 5], (keeps (atState k s0)).core.cstate = k ∧ (keeps (atState k s0)).core.drv.saved ≠ none) ∧
    (let s := (atState 4 s0).setStack 0 { s0.stack 0 with cbind := vset (s0.stack 0).cbind 0 0 }
     s.saveReady = true ∧ (s.cbindOf s.core).getLsbD 63 = false) ∧
    (let k := { cmd0 (.ldg u ⟨5, 6, 0, 1, 3, .rlx, .pk, 1, false⟩) with parked := some (64, false) }
     (withCmd k).parkedOn false = some k ∧ (withCmd k).cmd 3 = some k ∧ s0.parkedOn false = none) := by decide
theorem wit_ContextRestoreDone :
    let s := free (keeps (atState 6 s0))
    s.core.cstate = 6 ∧ s.core.drv.saved = some saved0 ∧ s.readWaits (.entry 0) = false ∧ s.refill (s.areaTask saved0) = .ok s ∧
    (s.restoreArea saved0).contextOk = true :=
  ⟨by decide, rfl, rfl, rfl, by decide +kernel⟩
theorem wit_DriverEvents :
    let kill := { s0 with regs := { s0.regs with ev := { s0.regs.ev with kill := 0x4000000000000001 } } }
    let other : State := { kill with regs := { kill.regs with ev := { kill.regs.ev with kill := 0x4000000000000002 } } }
    let maps (l : List (Nat × Nat)) (bad : List Nat) : State := { s0 with memory := { s0.memory with remaps := l, badFrames := bad } }
    let idle := free s0
    64 < 65 ∧ s0.core.hasTask = true ∧ idle.core.hasTask = false ∧
    (s0.bank 64).ece.getLsbD 63 = false ∧ ((s0.logCe 64 0 0 0 0).bank 64).ece.getLsbD 63 = true ∧ s0.regs.waiting = [] ∧
    ((s0.board.banks.toList.length = 65) ∧ kill.regs.ev.kill.getLsbD 62 = true ∧ s0.regs.ev.kill.getLsbD 62 = false) ∧
    (other.regs.ev.kill.getLsbD 62 = true ∧ (∀ c ∈ other.cores, ∀ k ∈ c.task, k.asid ≠ other.regs.ev.kill.extractLsb' 0 12) ∧ other.hearth.launches = [] ∧
      other.domain.killTags = []) ∧
    ((1 : BitVec 12) ≠ 0 ∧ s0.core.task = some placedTask ∧ placedTask.asid = 1) ∧
    (let m := maps [] []; ({ m with regs := { m.regs with ev := { m.regs.ev with fretn := 0x2000000000000000 } } } : State).regs.ev.fretn.getLsbD 61 = true) ∧
    (s0.regs.ev.fretn.getLsbD 61 = false ∧ 64 ≤ (maps ((List.range 64).map (fun k => (k, k + 64))) []).memory.remaps.length) ∧
    ((maps [] [9]).memory.remaps.length < 64 ∧ (maps [] [9]).memory.badFrames.contains 9 = true) ∧
    (s0.memory.remaps.length < 64 ∧ s0.tierFrame 8 = false ∧ s0.tierFrame 9 = false ∧ s0.memory.badFrames.contains 9 = false ∧ (8 : BitVec 36) ≠ 9 ∧
      lookupN 9 s0.memory.remaps = none) ∧
    (let b : State := { s0 with memory := { s0.memory with busyFrame := some (8, 9) } }
     b.memory.busyFrame = some (8, 9) ∧ b.memory.poison = [] ∧ b.memory.heldReqs = [] ∧ b.memory.mem.wf = true ∧ b.tierFrame 8 = false ∧
       lookupN 8 b.memory.remaps = none) ∧
    (lookupN (fld s0.regs.ev.freto 16 36) s0.memory.remaps = none ∧ lookupN (fld s0.regs.ev.freto 16 36) (maps [(0, 9)] []).memory.remaps = some 9 ∧
      (maps [(0, 9)] []).memory.badFrames.length < 510) ∧
    (7 < 8 ∧ (s0.stack 7).removed = false ∧ ∀ c ∈ s0.cores, c.stk ≠ 7) ∧
    (let d : State := { s0 with regs := { s0.regs with m := { s0.regs.m with domain := 0x10000 } } }
     1 ≠ d.mid ∧ 1 ≤ d.nmod ∧ d.isRemoved 1 = false) := by decide +kernel

theorem wit_ModuleEvents :
    let m (f : Regs0 → Regs0) : State := { s0 with regs := { s0.regs with m := f s0.regs.m } }
    let st (n : Word) : State := m (fun r => { r with mstate := n })
    let good : State := { m (fun r => { r with mstate := 3, asidtb := 0x8000, cridx := 0x100000001, crhbm := 0x10002000000000, nstb := 0x10000 }) with
      stackv := Vector.replicate 8 { StackS.zero with slab := Vector.replicate 88 0x8000 } }
    let wm (l h b c : Nat) : Word := BitVec.ofNat 64 (l + h * 2 ^ 11 + b * 2 ^ 22 + c * 2 ^ 33)
    (State.reset.mstate < 2 ∧ (st 2).mstate = 2 ∧ (st 2).memory.heldReqs = [] ∧ (st 2).mstate ≠ 3) ∧
    (good.mstate = 3 ∧ good.goCheck = 0 ∧ (st 3).mstate = 3 ∧ (st 3).goCheck ≠ 0) ∧
    (fld (9 <<< 16) 16 14 < 10 ∧ 10000 < fld (10001 <<< 16) 16 14 ∧ 10 ≤ fld (10 <<< 16) 16 14 ∧ fld (10000 <<< 16) 16 14 ≤ 10000) ∧
    ((m (fun r => { r with shootb := 0x8000000000000000 })).regs.m.shootb.getLsbD 63 = true ∧ s0.regs.m.shootb.getLsbD 63 = false ∧
      ∀ c ∈ s0.cores, c.units.cmds = []) ∧
    (let v := wm 1 2 1024 1024; markLow v < markHigh v ∧ markHigh v ≤ markBreak v ∧ markBreak v ≤ 1024 ∧ markCxl v ≤ 1024) ∧ markHigh 0 ≤ markLow 0 ∧
    ((0 : Word).getLsbD 63 = false ∧ (0x8000000000000001 : Word).getLsbD 63 = true ∧ (1 : Word).getLsbD 0 = true) ∧
    ((0x0C4 % 8 ≠ 0) ∧ s0.mstate ≠ 3) := by decide +kernel
theorem wit_NamespaceEvents :
    let d : List Byte := [1, 0, 0, 0, 0, 0, 0, 0, 16, 8, 1, 0, 1, 64, 0, 1, 0, 0, 0, 0, 0, 0, 0, 0, 0, 0, 0x10, 0, 0, 0, 0, 0, 0, 0, 8]
    let s : State := { s0 with memory := { s0.memory with mem := Memory.setN [] (64 * 1023) d } }
    let p := s.nsOf 1023 (s.readNs 1023)
    let t : State := { s with crucible := { s.crucible with spaces := [p] } }
    1023 < 1024 ∧ nsParamOk (s0.nsOf 1023 (s0.readNs 1023)) (s0.readNs 1023) = false ∧
    (nsParamOk p (s.readNs 1023) = true ∧ p.ns ≠ 0 ∧ s.space p.ns = none ∧ s.nsRegionOk p = true ∧ s.nsAt 1023 = none) ∧
    (nsParamOk p (t.readNs 1023) = true ∧ (t.space p.ns).isSome = true ∧ (t.nsAt 1023).isSome = true ∧ ∀ n ∈ t.crucible.nodes, n.ns ≠ p.ns) := by
  decide +kernel
theorem wit_ConfigurationEvents :
    let r := State.reset
    let at_ (k : Nat) (f : StackS → StackS) (s : State) : State := s.setStack k (f (s.stack k))
    let half := at_ 7 (fun t => { t with half := BitVec.allOnes 192 }) r
    let slab := at_ 0 (fun t => { t with slab := vset t.slab 0 0x8000 }) r
    let old : Word := vget (slab.stack 0).cbind 0 0
    let new : Word := 0x40000000
    let roles (w p : Word) : State := at_ 0 (fun t => { t with srole := vset t.srole 87 w, spair := vset t.spair 87 p }) r
    let q (k : LQueue) : State := { r with hearth := { r.hearth with queues := [(255, k)] } }
    7 < 8 ∧ 87 < 88 ∧ 111 < 112 ∧
    (((q queue0).queue 255).on = true ∧ (r.queue 255).on = false ∧ fld 0x100000000000 44 12 ≠ 0 ∧ ((q { queue0 with lq3 := 0x8000100200000000 }).queue 255).stopc ≠ 0 ∧
      (r.queue 255).stopc = 0) ∧
    (slabCheck (half.stack 7) 87 95 = 0 ∧ slabCheck (half.stack 7) 87 96 ≠ 0) ∧
    ((old &&& 0xCFFFFFFF) ≠ (new &&& 0xCFFFFFFF) ∧ old.getLsbD 63 = true ∧ (∀ c ∈ slab.coreOf 0 0, c.bindBusy = false) ∧
      bindCheck (slab.stack 0) 0 new = 0 ∧ bindCheck (r.stack 0) 0 new ≠ 0 ∧ (∃ c, s0.coreOf 0 0 = some c ∧ c.bindBusy = true)) ∧
    ((old &&& 0xCFFFFFFF) = ((0 : Word) &&& 0xCFFFFFFF) ∧ (0 : Word).getLsbD 63 = false) ∧
    ((vget ((roles 0 0x100000000).stack 0).spair 87 0).getLsbD 32 = true ∧ (vget (r.stack 0).spair 87 0).getLsbD 32 = false ∧ (r.stack 0).inUse 87 = false ∧
      (at_ 0 (fun t => { t with cbind := vset t.cbind 0 0x40000057 }) r |>.stack 0).inUse 87 = true) ∧
    (badPairs 0x5555555555555550 0x8000 = false ∧ badPairs 0x9555555555555550 0x8000 = true ∧ badPairs 0x5555555555555555 0x8000 = true ∧ badRoles 0x5555555555555555 0x5555555555555555 0 = true ∧
      badRoles 0x5555555555555555 0x5555555555555550 0 = false) ∧
    (badRoles 0x5555555555555540 0x5555555555555550 0 = false ∧ (∃ n, n < 32 ∧ roleAt 0x5555555555555540 n = 0 ∧ roleAt 0x5555555555555550 n ≠ 0) ∧
      ∀ n, n < 32 → roleAt 0x5555555555555555 n = 0 → roleAt 0x5555555555555550 n = 0) ∧
    (let e := at_ 0 (fun t => { t with drains := [(87, 5)] }) r
     lookupN 87 (e.stack 0).drains = some 5 ∧ ∀ l ∈ e.memory.lines, l.agent ≠ 11 * 0 + 87 / 8) ∧
    (let w := at_ 0 (fun t => { t with wslen := 0x8000000000000040 }) r
     (w.stack 0).wslen.getLsbD 63 = true ∧ (r.stack 0).wslen.getLsbD 63 = false ∧ s0.wsIdle 0 = false ∧ (s0.stack 0).wslen.getLsbD 63 = false ∧ r.wsIdle 0 = true ∧
      fld 0x3F 6 26 = 0 ∧ fld 0x40 6 26 ≠ 0 ∧ fld (r.stack 0).wsdst 6 26 * 64 + fld 0x40 6 26 * 64 ≤ 0xC0000000) := by decide +kernel
theorem wit_WsLoadDone :
    let j (a : Nat) : State := State.reset.setStack 0 { State.reset.stack 0 with wsjob := some (a, 0, 64) }
    ((j 0).stack 0).wsjob = some (0, 0, 64) ∧ (j 0).paOk 0 = true ∧ (j 0).paOk 63 = true ∧ (j 0).homeFree 0 64 = true ∧ (j 0).poisoned 0 64 = false ∧
    (let r := (j (2 ^ 51)).regs
     let n : State := { j (2 ^ 51) with regs := { r with lim := { r.lim with dma := Vector.replicate 8 (0, 0), cxlw := (0, 0) } } }
     (n.stack 0).wsjob = some (2 ^ 51, 0, 64) ∧ (n.engineRead (2 ^ 51) 64).isNone = true) := by decide +kernel
theorem wit_LinkEvents :
    let at_ (l : Link) : State := { s0 with links := vset s0.links 15 l }
    let active : Link := { Link.zero with en := true, state := 2 }
    let buf : Link := { active with buffer := [(1, [])], acked := 0 }
    let d (p : List (Nat × Word)) (r : List (Nat × Word)) (l : Link) : State := { at_ l with domain := { s0.domain with pending := p, routes := r } }
    let w : Word := 0x800000000000000F
    15 < 16 ∧ ((at_ active).link 15).en = true ∧ (s0.link 15).en = false ∧
    (((at_ { active with state := 1 }).link 15).state = 1 ∧ 500 ≤ 500 ∧ s0.regs.lim.lnk.getLsbD 15 = true ∧ 0 = s0.nmod ∧ s0.staleInc 1 (BitVec.ofNat 16 3) = false ∧ 500 < 501 ∧ 1 ≠ s0.nmod) ∧
    ({ s0 with domain := { s0.domain with oldIncs := [(1, 3)] } } : State).staleInc 1 (BitVec.ofNat 16 3) = true ∧
    (s0.oldLinkClear 1 = true ∧ (d [] [(1, w)] buf).oldLinkClear 1 = false ∧ lookupN 1 (d [(1, w)] [] active).domain.pending = some w ∧
      (d [(1, w)] [] active).oldLinkClear 1 = true) ∧
    (((at_ active).link 15).state = 2 ∧ leNat [0, 0] < 16384 ∧ BitVec.ofNat 12 (leNat [0, 0]) = ((at_ active).link 15).expect ∧
      BitVec.ofNat 12 (leNat [0, 0]) ≠ ((at_ { active with expect := 4095 }).link 15).expect) ∧
    (((State.takeAck (at_ active) 15 (1 - 1)).link 15).buffer = [] ∧ ((State.takeAck (at_ buf) 15 (1 - 1)).link 15).buffer ≠ [] ∧
      ((State.takeAck (at_ buf) 15 (1 - 1)).link 15).replayed < 7 ∧ ((State.takeAck (at_ { buf with replayed := 7 }) 15 (1 - 1)).link 15).buffer ≠ [] ∧
      7 ≤ ((State.takeAck (at_ { buf with replayed := 7 }) 15 (1 - 1)).link 15).replayed) ∧
    (((at_ { active with nak := true }).link 15).nak = true ∧
      vget ((at_ { active with sentPause := Vector.replicate 4 true }).link 15).sentPause 3 false = true ∧
      ((at_ { active with sentResume := [(0, 0)] }).link 15).sentResume ≠ []) := by decide +kernel
theorem wit_Flits :
    let c := crc64 (List.replicate 120 0)
    ((flit 0 c).length = 128 ∧ leNat (((flit 0 c).drop 120).take 8) = (crc64 ((flit 0 c).take 120)).toNat ∧ (flit 0 c).take 2 = [0, 0]) ∧
    (let d := crc64 (List.replicate 120 0x40)
     (flit 0x40 d).length = 128 ∧ leNat (((flit 0x40 d).drop 120).take 8) = (crc64 ((flit 0x40 d).take 120)).toNat ∧
       leNat ((flit 0x40 d).take 2) / 16384 = 1) ∧
    ((flit 0 (c + 1)).length = 128 ∧ (flit 0 (c + 1)).take 2 = [0, 0] ∧ (flit 0x40 c).take 2 = [0x40, 0x40] ∧
      leNat (((flit 0 (c + 1)).drop 120).take 8) ≠ (crc64 ((flit 0 (c + 1)).take 120)).toNat) := by
  refine ⟨⟨flit_length _ _, ?_, rfl⟩, ⟨flit_length _ _, ?_, rfl⟩, flit_length _ _, rfl, rfl, ?_⟩
  · rw [flit_tail, flit_take]
  · rw [flit_tail, flit_take]
  · rw [flit_tail, flit_take]
    intro h
    have := BitVec.eq_of_toNat_eq h
    simp at this
theorem wit_MessageEvents :
    let m (c : Nat) : Msg := ⟨0, 1, 0, 0, 0, c, 0, 7, [0, 0, 8]⟩
    let l (c : Nat) : Link := { Link.zero with en := true, state := 2, rx := [m c] }
    let at_ (k : Link) : State := { s0 with links := vset s0.links 15 k }
    let grp : State := { at_ (l 3) with groups := [⟨4, 0, 0, 0, 2, [(0, 1)], [], [], 0, true, [65536], []⟩] }
    let b : Msg := { m 3 with body := [] }
    let mgmt : Msg := { m 6 with body := [1] }
    let fan : DirEntry := ⟨0, .pointers [3], false, [], none, (0, 0), some ⟨9, [3], [], [], [], false, []⟩⟩
    15 < 16 ∧ ((at_ (l 0)).link 15).serving = [] ∧ ((at_ (l 0)).link 15).first 0 = some (m 0) ∧
    (∃ v, (at_ (l 0)).serveMem (MemReq.read (m 0).body) = some v ∧ (((at_ (l 0)).serveMem (MemReq.read (m 0).body)).any (fun v => !(v.2.2.consume 15 (m 0)).fansRun v.2.1)) = true) ∧
    (let s : State := { at_ { l 0 with serving := [(m 0, [], [8])] } with memory := { s0.memory with dir := [fan] } }
     (s.link 15).serving = [(m 0, [], [8])] ∧ s.fansRun [8] = false) ∧
    (((at_ (l 1)).link 15).first 1 = some (m 1) ∧ ((at_ (l 2)).link 15).rx = m 2 :: [] ∧ (m 2).cls = 2 ∧ ((at_ (l 2)).channel 0).queue.length < 64) ∧
    (((at_ { l 3 with rx := [b] }).link 15).rx = b :: [] ∧ b.cls = 3 ∧ (at_ { l 3 with rx := [b] }).barrierReady (BMsg.read b.body) = some false ∧
      grp.barrierReady (BMsg.read b.body) = some true) ∧
    (((at_ (l 4)).link 15).first 4 = some (m 4) ∧ ((at_ (l 5)).link 15).first 5 = some (m 5) ∧ ((at_ (l 6)).link 15).first 6 = some (m 6)) ∧
    (leNat ((m 6).body.take 1) ≠ 1 ∧ leNat (mgmt.body.take 1) = 1 ∧ ((at_ { l 6 with rx := [mgmt] }).link 15).first 6 = some mgmt) := by
  refine ⟨by decide, rfl, by decide +kernel, ⟨_, rfl, by decide +kernel⟩, by decide +kernel, by decide +kernel, by decide +kernel, by decide +kernel, by decide +kernel⟩
theorem wit_BoardEvents :
    let off : State := { s0 with board := { s0.board with power := false } }
    let ok : State := { s0 with board := { s0.board with agreed := true, booted := some 1 } }
    (∃ l, s0.regs.lim.narrow 0x108 0x3FFFF = some l) ∧ s0.regs.lim.narrow 0x108 0x3FFFF ≠ none ∧ s0.regs.lim.narrow 0x100 2601 = none ∧
    (fld 2600 0 12 ≤ fld s0.regs.lim.pwr 0 12 ∧ fld s0.regs.lim.pwr 0 12 < fld 2601 0 12) ∧
    (1600 ≤ (1600 : BitVec 16).toNat ∧ (1520 : BitVec 16).toNat ≤ 1520 ∧ 1520 < (1521 : BitVec 16).toNat ∧ (1599 : BitVec 16).toNat < 1600 ∧
      1760 ≤ (1760 : BitVec 16).toNat) ∧
    off.board.power = false ∧ ok.board.booted = some 1 ∧ 1 < 2 ∧ s0.board.agreed = false ∧ ok.board.agreed = true ∧ (∃ d, ok.measurement 1 = some d) :=
  ⟨⟨_, rfl⟩, by decide, by decide, by decide, by decide, rfl, rfl, by decide, rfl, rfl, _, rfl⟩

/-! ### Witnesses of further clauses -/

def team (f : Core → Core) : State :=
  let c (n : Nat) (w : Word) : Core := { s0.core with
    cnum := n, task := some { placedTask with team := [0, 1] }, ident := { s0.core.ident with gang := w } }
  { s0 with core := c 0 0, others := [f (c 1 (1 <<< 10))] }
def waitsFor3 (w : BitVec 8) : Core → Core := fun c => { c with front := { c.front with held := true, holds := [.lock w] } }
def lock3 : State := team (waitsFor3 3)
theorem wit_LockGranted :
    let grant (c : Core) : Core := { c with front := { c.front with granted := true } }
    let s : State := { team grant with core := grant (team grant).core }
    s.core.enabled u = true ∧ s.core.front.granted = true ∧ s.lockAgreed 3 = true ∧ s.lockMask 3 = 3 := by decide
theorem wit_LockHeld :
    lock3.core.front.granted = false ∧ lock3.core.lockm = 0 ∧ (3 : BitVec 8).getLsbD lock3.core.pos = true ∧ 2 ≤ popCount 8 3 ∧
    (∀ p ∈ List.range 8, (3 : BitVec 8).getLsbD p = true → p ≠ lock3.core.pos → ∃ c ∈ lock3.teammates, c.pos = p) ∧
    ∀ c ∈ lock3.peers, c.front.held = true ∧ c.front.holds = [.lock (lock3.lockMask 3)] ∧ (lock3.lockMask 3).getLsbD lock3.core.pos = true := by decide
theorem wit_LockRefused :
    let clash (w : BitVec 8) (p : State → Core → Prop) : Prop :=
      ∃ c ∈ (team (waitsFor3 w)).peers, c.front.held = true ∧ Hold.lock w ∈ c.front.holds ∧ p (team (waitsFor3 w)) c
    (on locked).core.lockm ≠ 0 ∧ (2 : BitVec 8).getLsbD lock3.core.pos = false ∧ popCount 8 1 < 2 ∧
    ((5 : BitVec 8).getLsbD 2 = true ∧ 2 ≠ lock3.core.pos ∧ ∀ c ∈ lock3.teammates, c.pos ≠ 2) ∧
    clash 7 (fun s _ => (7 : BitVec 8).getLsbD s.core.pos = true ∧ 7 ≠ s.lockMask 3) ∧
    clash 6 (fun s c => (3 : BitVec 8).getLsbD c.pos = true ∧ (6 : BitVec 8).getLsbD s.core.pos = false) :=
  ⟨by decide, by decide, by decide, by decide, by decide, by decide⟩
theorem wit_FailedModule :
    let s : State := { s0 with agenda := [.ageBoundary, .mstateGo], regs := { s0.regs with m := { s0.regs.m with mstate := 15 } } }
    s.mstate = 15 ∧ s.board.power = true ∧ writesBar0 .ageBoundary = false ∧ writesBar0 .mstateGo = true ∧ Instr.enc .mstateGo = none ∧
    (∃ t, exec .ageBoundary { s with agenda := [.mstateGo] } = .next t) := ⟨rfl, rfl, rfl, rfl, rfl, _, rfl⟩
/-- A core of one member with a checkpoint bank, and its checkpointed task. -/
def checked : State :=
  let s := on (fun c => { c with task := some { placedTask with pr := true, clen := 112, cbase := 1936 } })
  s.setStack 0 { s.stack 0 with srole := vset (s.stack 0).srole 0 0x555555555555555D }
theorem wit_FlipDone : ∃ k b rest, checked.core.task = some k ∧ checked.ckBanks = b :: rest ∧ k.clen ≤ 112 ∧ 1 ≤ checked.core.g ∧ checked.core.storageWf ∧
    s0.ckBanks = [] :=
  ⟨_, 1, [], rfl, by decide, by decide, by decide, ⟨rfl, rfl⟩, by decide⟩
theorem wit_Recover :
    let p (s : State) : State := { s with core := { s.core with phase := { s.core.phase with ckv := true } } }
    let lost : State := { s0 with hearth := { s0.hearth with launches := [launch0] } }
    let dom : State := { s0 with hearth := { s0.hearth with launches := [{ launch0 with nodes := [{ node0 with noRedo := true }] }] } }
    (∃ k, (p checked).core.task = some k) ∧ (p checked).phaseReplayable = true ∧ (p checked).core.phase.replays < 3 ∧ (p checked).memoryWf ∧
    (∀ c ∈ checked.others, c.cnum ≠ checked.core.cnum) ∧
    (lost.core.task = some placedTask ∧ lost.phaseReplayable = false ∧ placedTask.redone = false ∧ lost.launch 0 = some launch0 ∧
      launch0.nodes[placedTask.node]? = some node0 ∧ node0.dom = false ∧ node0.redispatches < 2 ∧ node0.noRedo = false) ∧
    (dom.phaseReplayable = false ∧ dom.launch 0 = some { launch0 with nodes := [{ node0 with noRedo := true }] } ∧
      (dom.regs.ev.evtail - dom.regs.ev.evhead).toNat < 2 ^ fld dom.regs.ev.evctl 0 4) :=
  ⟨⟨_, rfl⟩, by decide, by decide, rfl, by decide, by decide, by decide⟩
theorem wit_FaultClasses :
    (s0.bank 0).eue.getLsbD 63 = false ∧ cCMPT = 11 ∧ cVOTE3 = 12 ∧ s0.core.task = some placedTask ∧
    (let s : State := { s0 with regs := { s0.regs with ev := { s0.regs.ev with evctl := 4 } } }
     (s.regs.ev.evtail - s.regs.ev.evhead).toNat + 2 ≤ 2 ^ fld s.regs.ev.evctl 0 4) := by decide
/-- Ring 7 with a claim of two slots by the job at the queue's head and one of a later job. -/
def popped : State :=
  queued1 { job1 with pops := [7], out := ⟨[(7, 1)], [], [(10, ⟨false, .s8, Vector.replicate 4 0⟩)], [10], [0]⟩ } 9
theorem wit_MatrixTagsAndPops :
    let r (ps : List RingPop) : State := { popped with core := { popped.core with units := { popped.core.units with
      rings := vset popped.core.units.rings 7 { ring7 3 with cons := 3, pops := ps } } } }
    (∃ j, popped.core.units.anvil.find? (MJob.doneDue popped.core.front.clock) = some j ∧ j.out.tags = [] ++ (10, ⟨false, .s8, Vector.replicate 4 0⟩) :: [] ∧
      j.pops.contains (7 : HRing).toNat = true ∧ j.pops.contains (6 : HRing).toNat = false ∧
      ((r [⟨0, 2, false⟩, ⟨4, 1, false⟩]).core.ring 7).pops = ⟨0, 2, false⟩ :: [⟨4, 1, false⟩] ∧ 0 = j.num ∧
      (∀ q ∈ [RingPop.mk 4 1 false], q.num ≠ j.num ∧ q.done = false) ∧
      ((r [⟨3, 2, false⟩, ⟨0, 1, false⟩]).core.ring 7).pops = ⟨3, 2, false⟩ :: [⟨0, 1, false⟩] ∧ 3 ≠ j.num) :=
  ⟨_, rfl, rfl, by decide⟩
theorem wit_SpecRefusals :
    us.spec = true ∧ vec.core.enabled us = true ∧ vec.core.enabledElems us (esize .s32) ≠ [] ∧ (CB.mk 0 0 0 0 0 .cr false 0 4).dsp ≠ 0 ∧
    (∃ e ∈ copyDests (copyOps (atRegs (xs [(12, 0x100000040)])).core ⟨0, 0, 12, 0, 0, .cr, false, 0, 0⟩),
      (atRegs (xs [(12, 0x100000040)])).inPairs e.1 e.2 = false) ∧
    (CK.mk 15 20 0 7 true 7 0).ringed = true ∧ (CK.mk 15 20 0 7 false 0 2).flags.getLsbD 1 = true ∧
    vec.inPairs (vec.core.x 15).toNat 16 = false ∧ vec.inPairs (vec.core.x 15).toNat 32 = false := by decide
def full8 : State :=
  let s := withRing (ring7 3)
  { s with core := { s.core with
    ctl := { s.core.ctl with vview := 4 <<< 11 }, regs := { s.core.regs with x := xs [(12, 0x100000040), (13, 64), (11, 5), (10, 0x100000)] },
    units := { s.core.units with tokens := Vector.replicate 8 { Token.zero with cnt := 15 } } } }
theorem wit_FullTokens :
    (∀ k : KTok, (full8.core.token k).cnt = 15) ∧ full8.core.enabled u = true ∧ full8.core.enabledElems u (esize .s32) ≠ [] ∧ full8.core.vaddr 3 = some 768 ∧
    full8.core.vaddr 4 = none ∧ (full8.core.ring 7).on = true ∧ full8.okRing (full8.core.ring 7).word = true ∧ (full8.core.ring 7).full (1 + full8.core.claimed 7) = false ∧
    badShape (full8.core.x 12) = false ∧ outsideSlot (slotBytes (full8.core.ring 7).ssz.toNat) (copyOps full8.core ⟨0, 0, 12, 0, 0, .cr, true, 7, 0⟩) = false ∧
    outsideSlot (slotBytes (full8.core.ring 7).ssz.toNat) (copyOps full8.core ⟨10, 0, 12, 0, 0, .cr, true, 7, 0⟩) = true ∧
    (full8.core.ring 7).nslot.toNat + 1 < fld (full8.core.x 11) 0 12 ∧ (s0.core.ring 7).on = false ∧
    (let q := withRing { ring7 3 with base := 0xFFF }; q.okRing (q.core.ring 7).word = false) ∧ (2 : BitVec 6).getLsbD 1 = true ∧
    (CB.mk 0 0 0 0 0 .cr false 0 2).ssp = 0 := by decide
theorem wit_ChannelRefusals :
    let s (q : List QMsg) (d : Bool) (w : Word) : State := chan q d (atRegs (xs [(10, w)]))
    ((s [] false 0).recvEntry 0 = some ch0 ∧ (s [] false 0x100000).recvEntry 0 = some ch0) ∧ ((s [] false 1).core.x 10).toNat % 256 ≠ 0 ∧
    (((s [] false 0x100000).core.x 10).toNat % 256 = 0 ∧ (s [] false 0x100000).okBanks 0x100000 256 = false) ∧
    (((s [.failed 2] false 0).channel 0).queue = .failed 2 :: [] ∧ (s [.failed 2] false 0).okBanks 0 256 = true) ∧
    ((s (List.replicate 64 (.failed 1)) false 0).sendEntry 0 = some ch0 ∧ (s [] false 0).sendEntry 0 = some ch0) ∧ (s (List.replicate 64 (.failed 1)) false 0).pathPaused ch0 = true ∧ (s [] false 0).pathPaused ch0 = false ∧
    (s [] false 0).chTableFree = true :=
  ⟨by decide +kernel, by decide, by decide, by decide, by decide +kernel, by decide, by decide, by decide +kernel⟩
theorem wit_BarrierHolds :
    let busy := withCmd (cmd0 (.ldg u ⟨5, 6, 0, 1, 3, .rlx, .pk, 1, false⟩))
    let fans : State := { s0 with memory := { s0.memory with dir := [⟨5, .pointers [3], false, [], none, (0, 0), some ⟨7, [3], [3], [], [], false, [(0, 1)]⟩⟩] } }
    (busy.scopeBusy (scopeLevel .cr) = true ∧ busy.core.front.arrv.contains (arrvKey u (scopeLevel .cr)) = false) ∧
    (fans.scopeBusy (scopeLevel .st) = false ∧ 2 ≤ scopeLevel .st ∧ fans.coveredLines fans.core.cid fans.core.cnum (fun _ => true) = [] ∧
      fans.coveredFans fans.core.cnum (fun _ => true) = [7]) ∧
    (s0.groupOf (scopeLevel .dm) = none ∧ s0.scopeBusy (scopeLevel .dm) = false ∧ 2 ≤ scopeLevel .dm ∧ s0.coveredLines s0.core.cid 0 (fun _ => true) = [] ∧
      s0.coveredFans 0 (fun _ => true) = []) ∧
    (∃ b, (group 1 1).groupOf (scopeLevel .cl) = some b ∧ (group 1 1).lastArrival (scopeLevel .cl) = b.gen ∧
      ∃ m ∈ b.arrived, m.1 ≠ (group 1 1).coreId (group 1 1).core ∧ m.2 ≤ b.gen ∧ ∀ d ∈ b.departed, d.1 ≠ m.1) :=
  ⟨by decide, by decide, by decide, _, rfl, by decide, _, .tail _ (.head _), by decide, by decide, by decide⟩
/-- A copy with the release flag behind an earlier access of its core. -/
theorem wit_CopyReleases :
    let k : Cmd := { cmd0 (.cpy u ⟨10, 11, 12, 1, 2, .pk, false, 0, 0⟩) with ops := shape64, born := 1 }
    let e : Cmd := { cmd0 (.ldg u ⟨5, 6, 0, 1, 3, .rlx, .pk, 2, false⟩) with seq := 2 }
    let s : State := { line0 (withCmd k) with core := { (line0 (withCmd k)).core with units := { (line0 (withCmd k)).core.units with cmds := [e, k] } } }
    s.cmd k.seq = some k ∧ s.releaseFree k = false ∧ s.mayPerform k = true ∧ (line0 (withCmd { k with stage := 2 })).releaseFree { k with stage := 2 } = true ∧
    s.okBanks 0 64 = true ∧ (line0 (withCmd k)).behind k 0 = false := by decide
theorem wit_TaskEntryAgain :
    let e (st : Nat) (en : Bool) : State := let s := hearth0 image false st
      { s with core := { s.core with ovl := [], task := some { placedTask with started := false, entered := en } } }
    (∀ st ∈ [0, 5], ∀ en ∈ [true, false], (e st en).core.cstate = st ∧ (e st en).core.task = some { placedTask with started := false, entered := en } ∧
      (match (e st en).readHeader launch0 0 with
        | (some (.ok h), v) => (match State.fillPages 1 h h.ovls v with
          | .error _ => true
          | _ => false)
        | _ => false) = true) ∧
    (let s : State := { hearth0 image true 1 with regs := { (hearth0 image true 1).regs with ev := { (hearth0 image true 1).regs.ev with evctl := 4 } } }
     s.memoryWf ∧ (s.regs.ev.evtail - s.regs.ev.evhead).toNat < 2 ^ fld s.regs.ev.evctl 0 4) := ⟨by decide +kernel, rfl, by decide +kernel⟩
/-- The node store with the nodes `ms`, whose headers are at 0x40000, and a command of core 0 with its scratchpad. -/
def kstate (r : BitVec 4) (ms : List KNode) (c : Cmd) (bank : List (Nat × List Byte)) : State := { s0 with
  core := { (withCmd c).core with regs := { s0.core.regs with bank := bank.foldl (fun m e => m.setN e.1 e.2) [] } }
  crucible := { s0.crucible with spaces := [{ space0 with hreg := 0x40000, hlen := 0x10000, rights := [15, r] }], nodes := ms }
  regs := { s0.regs with m := { s0.regs.m with tbase := 5, cridx := 0x100000001, crhbm := 0x10002000000000, crmark := 0x2000040000 } } }
def kcmd (i : Instr) (a : Word) (arg : Word) : Cmd := { cmd0 i with ops := [64, a, arg] }
def kform : CK := ⟨15, 20, 0, 1, false, 0, 0⟩
/-- An OPEN node of the caller, in slot 3. -/
def open0 (ow : Nat) (par : Nat) (w : List (Nat × Nat)) : KNode :=
  { knode0 .opened 0 with slot := 3, name := 10, owner := ow, hdr := 0x10200, parent := par, written := w }
def held0 : KNode := { knode0 .sealed 5 with refs := [(0, 2)] }
def rows8 : List (Nat × Nat) := (List.range 2).flatMap (fun p => (List.range 4).map (fun t => (p, t)))
def under (st : NState) : KNode := { knode0 st 0 with slot := 5, name := 30 }
theorem wit_StoreLookups :
    let bank : List (Nat × List Byte) := [(0, leBytes 8 1 ++ leBytes 4 512 ++ leBytes 4 (1024 + 2 * 2 ^ 20)), (512, leBytes 16 9 ++ leBytes 16 11)]
    let c := kcmd (.klook u kform) 0 0
    ∀ r ∈ [(15 : BitVec 4), 14], let s := kstate r [held0] c bank
    s.cmd 3 = some c ∧ s.kTurn c = true ∧
    (match s.lookBlock c with
      | some l => l.p.right s.asid 0 = r.getLsbD 0 && decide (l.names.length = 2) &&
        (List.range 2).all (fun d => decide ((s.readableName l.p.ns (l.names.getD d 0)).isSome = true ↔ d < 1)) && held0.handle s.mid != 0
      | none => false) = true := by decide +kernel
theorem wit_StoreOpens :
    let bank : List (Nat × List Byte) := [(0, leBytes 8 1 ++ leBytes 16 0x1234 ++ leBytes 4 512)]
    let c := kcmd (.kopen u kform) 0 0
    let s := kstate 15 [held0] c bank
    let p := s.crucible.spaces.headD space0
    s.kTurn c = true ∧ s.okBanks 0 32 = true ∧ s.space (BitVec.ofNat 64 (numAt (s.bankRead 0 0 32) 0 8)) = some p ∧ numAt (s.bankRead 0 0 32) 24 4 < 2 ^ 20 ∧
    zeroAt (s.bankRead 0 0 32) 28 4 = true ∧ s.okBanks 512 16 = true ∧ 64 % 16 = 0 ∧ s.okBanks 64 16 = true ∧
    (p.right s.asid 1 = true ∧ ({ p with rights := [15, 13] } : NSpace).right s.asid 1 = false) ∧
    ((open0 0 0 []).ownedBy s.mid s.caller = true ∧ (open0 1 0 []).ownedBy s.mid s.caller = false ∧ (open0 1 0 []).st.readable = false ∧
      held0.ownedBy s.mid s.caller = false ∧ held0.st.readable = true ∧ (s.takeRef s.caller held0).isSome = true) ∧
    (s.named p.ns 0x1234 = none ∧ s.mayRef s.caller.serial = true ∧
      (match s.roomFor p 4 with
        | (.done, v) => (v.headerPlace p).isSome
        | _ => false) = true) := by decide +kernel
theorem wit_StoreBlocks :
    let h3 := (open0 0 0 []).handle 0
    let arg : Word := 0x10400
    let w := kstate 15 [open0 0 0 [(0, 0)]] (kcmd (.kwr u kform) h3 arg) []
    let p := w.crucible.spaces.headD space0
    let l (a : Word) (m : KNode) (stage : Nat) : State × Cmd :=
      let c := { kcmd (.kld u kform) (held0.handle 0) a with stage := stage, pins := if stage = 1 then [2] else [] }
      (kstate 15 [m] c [], c)
    let e (a : Word) (m : KNode) : BitVec 3 := (l a m 0).1.kldError (l a m 0).2 (some ((l a m 0).1.info (l a m 0).1.caller m))
    (w.current h3 = some (open0 0 0 [(0, 0)]) ∧ w.space 1 = some p ∧ w.isRemote h3 = false ∧ fld arg 22 42 = 0 ∧ (open0 0 0 [(0, 0)]).frozen = false ∧
      (open0 0 0 [(0, 0)]).ownedBy w.mid w.caller = true ∧ p.right w.asid 1 = true ∧ fld arg 0 9 < p.nlayer ∧ fld arg 16 6 + (fld arg 10 6 + 1) ≤ p.bt ∧
      w.okBanks 64 (2 * p.rb) = true) ∧
    (e 0x400 held0 = 0 ∧ e 0x405 held0 ≠ 0 ∧ e 0x400 (knode0 .sealed 5) ≠ 0) ∧
    (let m := { held0 with pins := [(l 0x400 held0 1).1.pinId (l 0x400 held0 1).2] }
     let s := (l 0x400 m 1).1
     let k := (l 0x400 m 1).2
     s.node 2 = some m ∧ k.stage = 1 ∧ k.pins = [m.slot] ∧ k.ring = none ∧ (∀ q ∈ s.kldLens m p 0x400, (s.kldTouch (some (s.pinId k)) m p 0x400).okBanks (64 + q.1) q.2 = true)) := by
  decide +kernel
theorem wit_StoreRecords :
    let s (m : List KNode) (i : Instr) (h : Word) : State := kstate 15 m (kcmd i h 0) []
    let h3 := (open0 0 0 []).handle 0
    let sl (m : List KNode) : State := s m (.kseal u kform) h3
    let p := (sl []).crucible.spaces.headD space0
    let par (st : NState) (w : List (Nat × Nat)) : Prop := (sl [under st, open0 0 6 w]).current h3 = some (open0 0 6 w) ∧
      ((sl [under st, open0 0 6 w]).parent (open0 0 6 w)).map KNode.st = some st
    ((sl []).current h3 = none ∧ (sl []).isRemote h3 = false) ∧
    (held0.refsOf 0 (s [held0] (.kunref u kform) (held0.handle 0)).caller ≠ 0 ∧ (s [held0] (.kunref u kform) (held0.handle 0)).current (held0.handle 0) = some held0) ∧
    (par .opened [] ∧ par .sealing rows8 ∧ par .sealed rows8 ∧ par .sealed []) ∧ ((open0 0 6 rows8).complete p = true ∧ (open0 0 6 []).complete p = false) ∧
    ((sl [open0 1 0 []]).current h3 = some (open0 1 0 []) ∧ (open0 1 0 []).ownedBy 0 (sl []).caller = false) ∧
    ((open0 0 0 []).ownedBy 0 (sl []).caller = true ∧ 1 ≤ (open0 0 0 []).depth) ∧
    (p.right (sl []).asid 0 = true ∧ p.right (sl []).asid 3 = true ∧ (s [held0] (.krepl u kform) (held0.handle 0)).holds (sl []).caller held0 = true ∧
      held0.st.readable = true ∧ (s [held0] (.krepl u kform) (held0.handle 0)).readableName held0.ns held0.name = some held0) := by decide +kernel
theorem wit_ShotWrites :
    let s (l : List CLine) : State := { s0 with
      regs := { s0.regs with m := { s0.regs.m with shoota := 1, shootb := 0xA000000000000003 } }, memory := { s0.memory with lines := l } }
    let l : CLine := ⟨s0.core.cid, 0, List.replicate 128 7, true, [(0, 0)]⟩
    ((s []).shotLines (s []).regs.m.shootb = [] ∧ (s []).shotFans (s []).regs.m.shootb = false ∧ (s []).remoteQuiet = true) ∧
    ((s [l]).shotLines (s [l]).regs.m.shootb = [(s0.core.cid, 0)] ∧ (s [l]).frameBusy (0 * 128) = false) := by decide
theorem wit_RefusedRegisters :
    let s (n : Word) : State := { s0 with regs := { s0.regs with m := { s0.regs.m with mstate := n, nscmd := 0x8000000000000000 } } }
    (s 3).mstate = 3 ∧ (s 0).mstate ≠ 3 ∧ (s 0).mstate ≠ 15 ∧ (s 0).regs.m.nscmd.getLsbD 63 = true ∧ s0.regs.m.nscmd.getLsbD 63 = false ∧ s0.nsFree 0 = true ∧
    (let v : Word := 1 ||| 2 <<< 11 ||| 1 <<< 22; markBreak v < markHigh v) ∧ 1024 < markBreak (1025 <<< 22) ∧ 1024 < markCxl (1025 <<< 33) ∧
    s0.regs.ev.kill.getLsbD 62 = false ∧ (∃ c ∈ s0.cores, ∃ o ∈ c.ovl, o.asid ≠ 2) := by decide +kernel
theorem wit_ForeignFlits :
    isControl 1 = true ∧ isControl 7 = false ∧ leNat ((flit 0x40 0).take 2) / 16384 = 1 ∧ leNat ((flit 0x80 0).take 2) / 16384 ≠ 1 ∧
    16384 ≤ leNat ((flit 0x80 0).take 2) := by decide
theorem wit_KillsAndRemovals :
    let k : State := { s0 with regs := { s0.regs with ev := { s0.regs.ev with kill := 0x4000000000000002 } } }
    let t : State := { s0 with regs := { s0.regs with m := { s0.regs.m with crhbm := 0x10002000000000 } } }
    (k.hearth.writes = [] ∧ k.domain.killTags = [] ∧ k.domain.killFlits = []) ∧
    (t.tierFrame 0x200000 = true ∧ t.tierFrame 0x200001 = true ∧ t.tierFrame 8 = false ∧ t.frameGranules 0x200001 = []) ∧
    ((s0.stack s0.core.stk).removed = false ∧ s0.core.stk < 8 ∧ (∀ c ∈ s0.others, c.stk ≠ s0.core.stk) ∧ s0.core.drv.saved = none) ∧
    (let s := free (keeps (atState 6 s0)); s.areaFree = true) ∧ (atFront (fun f => f)).core.front.departed = false := by decide +kernel

/-! ### One step or one instruction on values of the spec -/

def pwqOf : Host.Outcome State Fault Refusal → List PVal
  | .next t => t.core.pipe.pwq.map (fun e => e.val)
  | _ => []
def stepped : Host.Outcome State Fault Refusal → Option State
  | .next t => some t
  | _ => none
def slotBytes8 : List Byte := [0x13, 0xFD, 0xFF, 0x7F, 0x04, 0x21, 0xF0, 0x0F, 0x00, 0x88, 0x05, 0x15, 0x50, 0x10, 0x00, 0x03, 0x35,
  0x00, 0x4C, 0x31, 0x8B, 0x12, 0xF0, 0x0F, 0x00]

/-- 07, worked encoding. -/
theorem test_bundle_bytes : decodeBundle slotBytes8 = .ok ⟨[.addi u ⟨4, 4, .imm (-3)⟩, .vadd ⟨false, false, 3, 5, 0, 0x30, false⟩ ⟨20, 21, 22, .s32, false, false⟩,
    .cpy u ⟨10, 11, 12, 2, 2, .pk, false, 0, 0⟩], 25⟩ := rfl
/-- 07, worked encoding: type code 13 in the V0 word. -/
theorem test_bundle_type13 : (match decodeBundle (slotBytes8.set 9 0xB4) with
    | .ok _ => false
    | .error _ => true) = true := by decide
/-- The placed ADDI x4, x4, −3 as the first instruction after reset. -/
theorem test_step_addi : pwqOf (step s0) = [.x 4 (-3)] := by decide +kernel
theorem test_step_pc : (stepped (step s0)).map (fun t => (t.core.front.pc, t.core.ctl.cyc)) = some (9, 1) := by decide +kernel
/-- R189. -/
theorem test_div_wraps : pwqOf (exec (.div u ⟨4, 5, 6, 0⟩) (atRegs (xs [(5, 0x8000000000000000), (6, -1)]))) = [.x 4 0x8000000000000000] := by decide
theorem test_rem_by_zero : pwqOf (exec (.rem u ⟨4, 5, 0, 0⟩) (atRegs (xs [(5, -7)]))) = [.x 4 (-7)] := by decide
/-- R188, Table 8.2. -/
theorem test_mulh_signs : pwqOf (exec (.mulh u ⟨4, 5, 6, 0⟩) (atRegs (xs [(5, -1), (6, 2)]))) = [.x 4 (-1)] := by decide
theorem test_mulhz : pwqOf (exec (.mulhz u ⟨4, 5, 6, 0⟩) (atRegs (xs [(5, -1), (6, 2)]))) = [.x 4 1] := by decide
/-- R190: a field cut at bit 63. -/
theorem test_ext_cut : pwqOf (exec (.ext u ⟨4, 5, 6, 0⟩) (atRegs (xs [(5, 0xF000000000000000), (6, 0x83C)]))) = [.x 4 0xF] := by decide
/-- R193: unsigned against signed. -/
theorem test_cmp_unsigned : pwqOf (exec (.cmp u ⟨1, 2, .lt, true, 5, .reg 0⟩) (atRegs (xs [(5, -1)]))) = [.f 2 0, .f 4 4] := by decide
theorem test_cmp_signed : pwqOf (exec (.cmp u ⟨1, 2, .lt, false, 5, .reg 0⟩) (atRegs (xs [(5, -1)]))) = [.f 2 2, .f 4 0] := by decide
/-- R197: CALL saves the successor in x63. -/
theorem test_call : pwqOf (exec (.call u ⟨1, 0⟩) (atFront (fun f => { f with nextPc := 9 }))) = [.x 63 9] := by decide
/-- R351: the saved words of the two pending vector results. -/
theorem test_saved_words : Pend.word0 ⟨1, 1, .v 0x1400 []⟩ = 0x0141000000001400 ∧ Pend.word0 ⟨2, 1, .v 0x1700 []⟩ = 0x0241000000001700 := by decide
/-- R217: the sum of the most positive and one wraps, and saturates. -/
theorem test_vadd_wraps : arith .add .s8 (fmtRm 0) false 127 (.bits 1) 0 = 128 ∧ arith .add .s8 (fmtRm 0) true 127 (.bits 1) 0 = 127 := by decide

end Sys2Proof.Tests
end

section
/-! ## The stores of the cores
The part of a core that `Core.storageWf` speaks of, with its number, is its store. This part of the development shows of each
function of the model what becomes of the stores, once; `step` and the events that name a core follow. -/
namespace Sys2Proof.Machine
open Sys2Proof

/-- A core's number and its storage: register space and banks. -/
abbrev Store := Nat × Memory × Memory

/-- The store of a core. -/
def Core.store (c : Core) : Store := (c.cnum, c.regs.rf, c.regs.bank)

/-- The stores of the core in focus and of the others. -/
abbrev Stores := Store × List Store

/-- The stores of the module's cores. -/
def State.stores (s : State) : Stores := (s.core.store, s.others.map Core.store)
@[simp] theorem Core.store_mk (cnum g regs ident ctl front pipe units phase ovl task drv) :
    Core.store ⟨cnum, g, regs, ident, ctl, front, pipe, units, phase, ovl, task, drv⟩ = (cnum, regs.rf, regs.bank) := (rfl)
@[simp] theorem Core.store_eta (c : Core) : (c.cnum, c.regs.rf, c.regs.bank) = c.store := (rfl)

@[simp] theorem State.stores_mk (core others regs stackv memory hearth groups channels buses crucible links domain board outward
    agenda turns ticks free) :
    State.stores ⟨core, others, regs, stackv, memory, hearth, groups, channels, buses, crucible, links, domain, board, outward, agenda,
      turns, ticks, free⟩ = (core.store, others.map Core.store) := (rfl)

@[simp] theorem State.stores_eta (s : State) : (s.core.store, s.others.map Core.store) = s.stores := (rfl)
@[simp] theorem State.stores_ite (p : Prop) [Decidable p] (s t : State) :
    (if p then s else t).stores = if p then s.stores else t.stores := apply_ite _ _ _ _
@[simp] theorem Core.store_ite (p : Prop) [Decidable p] (c d : Core) :
    (if p then c else d).store = if p then c.store else d.store := apply_ite _ _ _ _
@[simp] theorem foldl_stores {β : Type} (g : State → β → State) (l : List β) (s : State) (h : ∀ a b, (g a b).stores = a.stores) :
    (l.foldl g s).stores = s.stores := foldl_keeps State.stores g h l s
@[simp] theorem foldl_snd_stores {α β : Type} (g : α × State → β → α × State) (l : List β) (p : α × State)
    (h : ∀ a b, (g a b).2.stores = a.2.stores) : (l.foldl g p).2.stores = p.2.stores := foldl_keeps (fun a => a.2.stores) g h l p
@[simp] theorem foldl_fst_stores {α β : Type} (g : State × α → β → State × α) (l : List β) (p : State × α)
    (h : ∀ a b, (g a b).1.stores = a.1.stores) : (l.foldl g p).1.stores = p.1.stores := foldl_keeps (fun a => a.1.stores) g h l p
@[simp] theorem foldl_store {β : Type} (g : Core → β → Core) (l : List β) (c : Core) (h : ∀ a b, (g a b).store = a.store) :
    (l.foldl g c).store = c.store := foldl_keeps Core.store g h l c
@[simp] theorem map_store (f : Core → Core) (h : ∀ c, (f c).store = c.store) (l : List Core) :
    l.map (Core.store ∘ f) = l.map Core.store := by simp [h]

@[simp] theorem State.mapCores_stores (s : State) (f : Core → Core) (h : ∀ c, (f c).store = c.store) :
    (s.mapCores f).stores = s.stores := by
  simp [State.mapCores, h]

end Sys2Proof.Machine
end

section
/-! ## What leaves every store as it is
One equation for each function of the model that writes neither register space nor banks, in the order of the model's files. -/
namespace Sys2Proof.Machine
open Sys2Proof

/-! ### Shared operations -/

@[simp] theorem Core.setX_store (c : Core) (r v) : (c.setX r v).store = c.store := by
  simp [Core.setX]
@[simp] theorem Core.setF_store (c : Core) (mask val) : (c.setF mask val).store = c.store := (rfl)
@[simp] theorem Core.setP_store (c : Core) (r mask val) : (c.setP r mask val).store = c.store := by
  simp [Core.setP]
@[simp] theorem State.setStack_stores (s : State) (k st) : (s.setStack k st).stores = s.stores := (rfl)
@[simp] theorem Core.push_store (c : Core) (slot lat v) : (c.push slot lat v).store = c.store := (rfl)
@[simp] theorem Core.pushBank_store (c : Core) (lat cells) : (c.pushBank lat cells).store = c.store := (rfl)
@[simp] theorem Core.setLate_store (c : Core) (n v) : (c.setLate n v).store = c.store := by
  simp [Core.setLate]
@[simp] theorem Core.setRing_store (c : Core) (n r) : (c.setRing n r).store = c.store := (rfl)
@[simp] theorem Core.setToken_store (c : Core) (k t) : (c.setToken k t).store = c.store := (rfl)
@[simp] theorem State.homeStore_stores (s : State) (pa bs) : (s.homeStore pa bs).stores = s.stores := (rfl)
@[simp] theorem State.touchL2_stores (s : State) (line write) : (s.touchL2 line write).stores = s.stores := (rfl)
@[simp] theorem State.setEntry_stores (s : State) (d) : (s.setEntry d).stores = s.stores := (rfl)
@[simp] theorem State.dropEntry_stores (s : State) (d) : (s.dropEntry d).stores = s.stores := (rfl)
@[simp] theorem State.dropLine_stores (s : State) (ag line) : (s.dropLine ag line).stores = s.stores := (rfl)
@[simp] theorem State.setLine_stores (s : State) (l) : (s.setLine l).stores = s.stores := (rfl)
@[simp] theorem State.settleHost_stores (s : State) (num) : (s.settleHost num).stores = s.stores := (rfl)
@[simp] theorem State.fanDone_stores (s : State) (d f) : (s.fanDone d f).stores = s.stores := by
  simp [State.fanDone]

@[simp] theorem State.settleFan_stores (s : State) (line) : (s.settleFan line).stores = s.stores := by
  unfold State.settleFan
  split
  · simp
  · split <;> simp

@[simp] theorem State.startFan_stores (s : State) (line from_ keep byHost wrote) :
    (s.startFan line from_ keep byHost wrote).stores = s.stores := by
  unfold State.startFan; dsimp only; split <;> simp
@[simp] theorem State.checkIn_stores (s : State) (ag line keep) : (s.checkIn ag line keep).stores = s.stores := by
  unfold State.checkIn; split <;> simp

@[simp] theorem State.makeRoom_stores (s : State) (ag line) : (s.makeRoom ag line).stores = s.stores := by
  unfold State.makeRoom; dsimp only
  split
  · simp
  · split <;> simp

@[simp] theorem State.readMiss_stores (s : State) (ag line) : (s.readMiss ag line).stores = s.stores := by
  simp [State.readMiss]
@[simp] theorem State.checkOut_stores (s : State) (ag line) : (s.checkOut ag line).stores = s.stores := by
  simp [State.checkOut]
@[simp] theorem State.homeWrite_stores (s : State) (pa bs byHost wrote) : (s.homeWrite pa bs byHost wrote).stores = s.stores := by
  unfold State.homeWrite; dsimp only; split <;> simp
@[simp] theorem State.homePut_stores (s : State) (pa bs byHost wrote) : (s.homePut pa bs byHost wrote).stores = s.stores := by
  simp [State.homePut]
@[simp] theorem State.homeFetch_stores (s : State) (pa n) : (s.homeFetch pa n).2.stores = s.stores := by
  simp [State.homeFetch]

theorem State.invalidate_stores {s t : State} {ag line} (h : s.invalidate ag line = some t) : t.stores = s.stores := by
  unfold State.invalidate at h; dsimp only at h
  split at h
  · cases h
  · split at h
    · cases h
    · split at h
      · cases h
      · split at h
        · split at h <;> cases h <;> simp
        · cases h; simp

theorem State.ackFan_stores {s t : State} {ag line} (h : s.ackFan ag line = some t) : t.stores = s.stores := by
  unfold State.ackFan at h
  split at h
  · cases h
  · split at h
    · cases h
    · split at h
      · cases h
      · cases h; simp

@[simp] theorem State.post_stores (s : State) (e) : (s.post e).stores = s.stores := by
  simp [State.post]
@[simp] theorem State.logBank_stores (s : State) (b e filled) : (s.logBank b e filled).stores = s.stores := by
  simp [State.logBank]
@[simp] theorem State.logCe_stores (s : State) (b synd unit kind addr) : (s.logCe b synd unit kind addr).stores = s.stores := by
  simp [State.logCe]
@[simp] theorem State.logUe_stores (s : State) (b cnum unit kind addr) : (s.logUe b cnum unit kind addr).stores = s.stores := by
  simp [State.logUe]
@[simp] theorem Core.barrierDone_store (c : Core) (b g ab) : (c.barrierDone b g ab).store = c.store := by
  simp [Core.barrierDone]

@[simp] theorem State.settleGroup_stores (f) (s : State) (b) : (State.settleGroup f s b).1.stores = s.stores := by
  induction f generalizing s b with
  | zero => rfl
  | succ f ih =>
    unfold State.settleGroup; dsimp only; split
    · simp [ih]
    · rfl

@[simp] theorem State.settleGroups_stores (s : State) : s.settleGroups.stores = s.stores := by
  simp [State.settleGroups, foldl_fst_stores, State.settleGroup_stores]
@[simp] theorem State.arrive_stores (s : State) (lvl) : (s.arrive lvl).stores = s.stores := by
  unfold State.arrive; split <;> simp
@[simp] theorem dropLock_store (cid pos) (c : Core) : (dropLock cid pos c).store = c.store := by
  simp [dropLock]
@[simp] theorem dropHeldLock_store (cid pos) (c : Core) : (dropHeldLock cid pos c).store = c.store := by
  simp [dropHeldLock]
@[simp] theorem dropSavedLock_store (cid pos t) (c : Core) : (dropSavedLock cid pos t c).store = c.store := by
  unfold dropSavedLock; split <;> simp
@[simp] theorem State.dropMember_stores (s : State) (cnum cid pos grouped t) : (s.dropMember cnum cid pos grouped t).stores = s.stores := by
  unfold State.dropMember; split <;> simp
@[simp] theorem State.leaveLock_stores (s : State) : (s.leaveLock).stores = s.stores := by
  simp [State.leaveLock]
@[simp] theorem State.depart_stores (s : State) (status) : (s.depart status).stores = s.stores := by
  unfold State.depart; split <;> simp
@[simp] theorem State.stopGroup_stores (s : State) (st) : (s.stopGroup st).stores = s.stores := by
  simp [State.stopGroup]
@[simp] theorem State.resumeAt_stores (s : State) (cid mask) : (s.resumeAt cid mask).stores = s.stores := by
  simp [State.resumeAt]
@[simp] theorem State.resumeGroup_stores (s : State) : (s.resumeGroup).stores = s.stores := by
  simp [State.resumeGroup]
@[simp] theorem State.logFault_stores (s : State) (slot code) : (s.logFault slot code).stores = s.stores := by
  simp [State.logFault]
@[simp] theorem State.systemFaultAs_stores (s : State) (cls slot code tok info) :
    (s.systemFaultAs cls slot code tok info).stores = s.stores := by
  simp [State.systemFaultAs]
@[simp] theorem State.systemFault_stores (s : State) (slot code tok info) : (s.systemFault slot code tok info).stores = s.stores := by
  simp [State.systemFault]
@[simp] theorem Core.trapTaken_store (c : Core) (cause) : (c.trapTaken cause).store = c.store := (rfl)
@[simp] theorem State.trapEntry_stores (s : State) (cause code addr) : (s.trapEntry cause code addr).stores = s.stores := by
  simp [State.trapEntry]
@[simp] theorem Core.eretResume_store (c : Core) : (c.eretResume).store = c.store := by
  simp [Core.eretResume]
@[simp] theorem Core.rejoin_store (c : Core) : (c.rejoin).store = c.store := (rfl)
@[simp] theorem State.boundary_stores (s : State) (b) : (s.boundary b).stores = s.stores := (rfl)
@[simp] theorem State.irrevocable_stores (s : State) : (s.irrevocable).stores = s.stores := (rfl)

/-! ### Flags -/

@[simp] theorem Core.clearUpset_store (c : Core) : (c.clearUpset).store = c.store := (rfl)
@[simp] theorem State.triLog_stores (s : State) (t) : (s.triLog t).stores = s.stores := by
  simp [State.triLog]
@[simp] theorem State.triLogFault_stores (s : State) (t) : (s.triLogFault t).stores = s.stores := by
  simp [State.triLogFault]

/-! ### Wire -/

@[simp] theorem State.setLink_stores (s : State) (n l) : (s.setLink n l).stores = s.stores := (rfl)
@[simp] theorem State.emit_stores (s : State) (n m) : (s.emit n m).stores = s.stores := by
  simp [State.emit]
@[simp] theorem State.sendMsg_stores (s : State) (m) : (s.sendMsg m).stores = s.stores := by
  unfold State.sendMsg; split <;> simp

@[simp] theorem State.drainLink_stores (n f) (s : State) : (State.drainLink n f s).stores = s.stores := by
  induction f generalizing s with
  | zero => rfl
  | succ f ih => unfold State.drainLink; dsimp only; split <;> simp [ih]

@[simp] theorem State.takeTag_stores (s : State) (dst) : (s.takeTag dst).2.stores = s.stores := (rfl)
@[simp] theorem State.sendControl_stores (s : State) (n code arg) : (s.sendControl n code arg).stores = s.stores := by
  simp [State.sendControl]

/-! ### Control -/

@[simp] theorem Core.writeCtl_store (c : Core) (n v) : (c.writeCtl n v).store = c.store := by
  unfold Core.writeCtl; split <;> simp
@[simp] theorem Core.busFail_store (c : Core) (a trap) : (c.busFail a trap).store = c.store := (rfl)
@[simp] theorem Core.applyBnd_store (c : Core) (x) : (c.applyBnd x).store = c.store := by
  unfold Core.applyBnd; split <;> simp
@[simp] theorem State.chTouch_stores (s : State) (e) : (s.chTouch e).stores = s.stores := by
  simp [State.chTouch]
@[simp] theorem State.setChannel_stores (s : State) (c) : (s.setChannel c).stores = s.stores := (rfl)

/-! ### Vector -/

@[simp] theorem State.freezeFor_stores (s : State) (n) : (s.freezeFor n).stores = s.stores := by
  simp [State.freezeFor]

/-! ### Matrix -/

@[simp] theorem State.anvilStart_stores (s : State) : (s.anvilStart).stores = s.stores := by
  unfold State.anvilStart; dsimp only; split <;> simp
@[simp] theorem Plan.popRings_store (p num) (c : Core) : (Plan.popRings p num c).store = c.store := (rfl)

/-! ### Memory -/

@[simp] theorem State.hostForget_stores (s : State) (p) : (s.hostForget p).stores = s.stores := (rfl)
@[simp] theorem State.hostWriteBack_stores (s : State) (p) : (s.hostWriteBack p).stores = s.stores := (rfl)
@[simp] theorem State.hostRoom_stores (s : State) : (s.hostRoom).stores = s.stores := by
  unfold State.hostRoom; split <;> simp
@[simp] theorem State.hostFill_stores (s : State) (line) : (s.hostFill line).stores = s.stores := by
  simp [State.hostFill]
@[simp] theorem State.hostPut_stores (s : State) (asid line off bs) : (s.hostPut asid line off bs).stores = s.stores := by
  simp [State.hostPut]
@[simp] theorem State.hostFlush_stores (s : State) : (s.hostFlush).stores = s.stores := (rfl)
@[simp] theorem State.pte_stores (s : State) (table i) : (s.pte table i).2.stores = s.stores := by
  unfold State.pte; dsimp only; split <;> simp
@[simp] theorem State.asidOn_stores (s : State) (a) : (s.asidOn a).2.stores = s.stores := by
  simp [State.asidOn]

@[simp] theorem State.walkStep_stores (s : State) (table i) (f : Word → State → Walk × State) (h : ∀ e t, (f e t).2.stores = t.stores) :
    (s.walkStep table i f).2.stores = s.stores := by
  unfold State.walkStep; dsimp only; split
  · rfl
  · split <;> simp [h]

@[simp] theorem State.walk_stores (s : State) (asid va) : (s.walk asid va).2.stores = s.stores := by
  unfold State.walk; dsimp only
  refine State.walkStep_stores _ _ _ _ fun _ s => State.walkStep_stores _ _ _ _ fun _ s => ?_
  split
  · rfl
  · refine State.walkStep_stores _ _ _ _ fun _ s => ?_
    split
    · rfl
    · split
      · rfl
      · split
        · rfl
        · refine State.walkStep_stores _ _ _ _ fun _ s => ?_
          split
          · rfl
          · split
            · rfl
            · split
              · rfl
              · exact State.walkStep_stores _ _ _ _ fun _ _ => rfl

@[simp] theorem State.translate_stores (s : State) (asid va k) : (s.translate asid va k).2.stores = s.stores := by
  unfold State.translate; dsimp only
  split
  · simp
  · split <;> simp

@[simp] theorem State.look_stores (s : State) (asid va k) : (s.look asid va k).2.stores = s.stores := by
  unfold State.look; dsimp only
  split
  · simp
  · split
    · simp
    · simp
    · split
      · simp
      · split <;> simp

@[simp] theorem State.resolve_stores (asid k f) (s : State) (va n acc) : (State.resolve asid k f s va n acc).2.stores = s.stores := by
  induction f generalizing s va n acc with
  | zero => rfl
  | succ f ih =>
    unfold State.resolve; dsimp only
    split
    · simp
    · split <;> simp [ih]

@[simp] theorem State.segments_stores (s : State) (asid k va n) : (s.segments asid k va n).2.stores = s.stores := by
  simp [State.segments]

@[simp] theorem State.askSegs_stores (s : State) (born segs) : (s.askSegs born segs).2.stores = s.stores := by
  refine foldl_snd_stores _ _ _ fun a g => ?_
  dsimp only; split <;> simp

@[simp] theorem State.haveLine_stores (s : State) (ag line) : (s.haveLine ag line).stores = s.stores := by
  simp [State.haveLine]
@[simp] theorem State.ownLine_stores (s : State) (ag line) : (s.ownLine ag line).stores = s.stores := by
  unfold State.ownLine; split <;> simp

@[simp] theorem State.segRead_stores (s : State) (ag got g) : (s.segRead ag got g).2.stores = s.stores := by
  unfold State.segRead
  split
  · split <;> simp
  · simp
  · simp

@[simp] theorem State.segWrite_stores (s : State) (ag cnum asid g bs) : (s.segWrite ag cnum asid g bs).stores = s.stores := by
  unfold State.segWrite; split
  · refine foldl_stores _ _ _ fun s l => ?_
    dsimp only; split <;> simp
  · simp
  · rfl

@[simp] theorem State.releaseLines_stores (s : State) (ag lines keep) : (s.releaseLines ag lines keep).2.stores = s.stores := by
  simp [State.releaseLines]
@[simp] theorem State.stampHome_stores (s : State) (pa clk core) : (s.stampHome pa clk core).2.stores = s.stores := by
  unfold State.stampHome; dsimp only; split <;> simp
@[simp] theorem State.stampHost_stores (s : State) (line clk core) : (s.stampHost line clk core).2.stores = s.stores := (rfl)
@[simp] theorem State.snoop_stores (s : State) (line inval store) : (s.snoop line inval store).stores = s.stores := by
  unfold State.snoop; split <;> simp
@[simp] theorem State.hostMemWrite_stores (s : State) (addr pa bs) : (s.hostMemWrite addr pa bs).stores = s.stores := by
  simp [State.hostMemWrite]
@[simp] theorem State.hostMemRead_stores (s : State) (addr pa n) : (s.hostMemRead addr pa n).stores = s.stores := by
  simp [State.hostMemRead]
@[simp] theorem State.hostMemFail_stores (s : State) (r) : (s.hostMemFail r).stores = s.stores := by
  simp [State.hostMemFail]

@[simp] theorem State.serveHeld_stores (s : State) : s.serveHeld.stores = s.stores := by
  refine foldl_stores _ _ _ fun s r => ?_
  dsimp only; split <;> simp

/-! ### The Crucible store -/

@[simp] theorem State.setNode_stores (s : State) (n) : (s.setNode n).stores = s.stores := (rfl)
@[simp] theorem State.dropNode_stores (s : State) (slot) : (s.dropNode slot).stores = s.stores := (rfl)
@[simp] theorem State.holdRemote_stores (s : State) (m serial up) : (s.holdRemote m serial up).stores = s.stores := (rfl)

theorem State.takeRef_stores {s t : State} {w n} (h : s.takeRef w n = some t) : t.stores = s.stores := by
  unfold State.takeRef at h
  split at h
  · cases h
  · split at h <;> cases h <;> simp

theorem State.victimE0_stores {s : State} {cxl leaf n t} (h : s.victimE0 cxl leaf = some (n, t)) : t.stores = s.stores := by
  simp only [State.victimE0, Option.map_eq_some_iff, Prod.mk.injEq] at h
  obtain ⟨_, _, _, rfl⟩ := h; rfl

theorem State.victimE1_stores {s : State} {leaf n t} (h : s.victimE1 leaf = some (n, t)) : t.stores = s.stores := by
  simp only [State.victimE1, Option.ite_none_right_eq_some, Option.map_eq_some_iff, Prod.mk.injEq] at h
  obtain ⟨_, _, _, _, rfl⟩ := h; rfl

@[simp] theorem State.nextVictim_stores (s : State) (cxl) : (s.nextVictim cxl).2.stores = s.stores := by
  unfold State.nextVictim; split
  next r h =>
    rcases Option.or_eq_some_iff.1 h with h | ⟨_, h⟩
    · exact State.victimE0_stores h
    · split at h
      · cases h
      · exact State.victimE1_stores h
  next => rfl

@[simp] theorem State.sendK_stores (s : State) (dst tag r) : (s.sendK dst tag r).stores = s.stores := by
  simp [State.sendK]
@[simp] theorem State.answer_stores (s : State) (dst tag bs) : (s.answer dst tag bs).stores = s.stores := by
  simp [State.answer]
@[simp] theorem State.setKdir_stores (s : State) (d) : (s.setKdir d).stores = s.stores := (rfl)
@[simp] theorem State.dropKdir_stores (s : State) (name) : (s.dropKdir name).stores = s.stores := (rfl)
@[simp] theorem State.dirRegister_stores (s : State) (name mod h repl) : (s.dirRegister name mod h repl).stores = s.stores := by
  unfold State.dirRegister; split <;> simp
@[simp] theorem State.dirCounts_stores (s : State) (name holder m refs pins) : (s.dirCounts name holder m refs pins).stores = s.stores := by
  unfold State.dirCounts; split <;> simp
@[simp] theorem State.noteRemote_stores (s : State) (slot m) : (s.noteRemote slot m).stores = s.stores := by
  unfold State.noteRemote; split <;> simp
@[simp] theorem State.noteAll_stores (s : State) (n) : (s.noteAll n).stores = s.stores := by
  simp [State.noteAll]
@[simp] theorem State.homeMoved_stores (s : State) (name m) : (s.homeMoved name m).stores = s.stores := by
  simp [State.homeMoved]
@[simp] theorem State.dirMoveHome_stores (s : State) (d) : (s.dirMoveHome d).stores = s.stores := by
  unfold State.dirMoveHome; split <;> simp
@[simp] theorem State.dirDrop_stores (s : State) (name h) : (s.dirDrop name h).stores = s.stores := by
  unfold State.dirDrop; split <;> simp
@[simp] theorem State.register_stores (s : State) (n) : (s.register n).stores = s.stores := by
  simp [State.register]
@[simp] theorem State.unregister_stores (s : State) (n) : (s.unregister n).stores = s.stores := by
  simp [State.unregister]
@[simp] theorem State.blockTouch_stores (s : State) (b off n) : (s.blockTouch b off n).stores = s.stores := by
  simp [State.blockTouch]
@[simp] theorem State.blockPut_stores (s : State) (b off bs) : (s.blockPut b off bs).stores = s.stores := by
  simp [State.blockPut]
@[simp] theorem State.settleEvict_stores (s : State) (slot) : (s.settleEvict slot).stores = s.stores := by
  unfold State.settleEvict; split <;> simp
@[simp] theorem State.evict_stores (s : State) (n) : (s.evict n).stores = s.stores := by
  simp [State.evict]
@[simp] theorem State.dispose_stores (s : State) (n) : (s.dispose n).2.stores = s.stores := by
  unfold State.dispose; split <;> simp

@[simp] theorem State.reclaimFor_stores (need f) (s : State) : (State.reclaimFor need f s).2.stores = s.stores := by
  induction f generalizing s with
  | zero => rfl
  | succ f ih =>
    unfold State.reclaimFor; dsimp only
    split
    · rfl
    · split
      · rfl
      · split
        · simp
        · split <;> simp [ih]

@[simp] theorem State.walkOn_stores (f) (s : State) : (State.walkOn f s).stores = s.stores := by
  induction f generalizing s with
  | zero => rfl
  | succ f ih =>
    unfold State.walkOn; dsimp only
    split
    · simp
    · split
      · simp
      · split
        · simp
        · split <;> simp [ih]

@[simp] theorem State.walkCxlOn_stores (f) (s : State) : (State.walkCxlOn f s).stores = s.stores := by
  induction f generalizing s with
  | zero => rfl
  | succ f ih =>
    unfold State.walkCxlOn; dsimp only
    split
    · simp
    · split <;> simp [ih]

@[simp] theorem State.reclaimTest_stores (s : State) : (s.reclaimTest).stores = s.stores := by
  simp [State.reclaimTest]
@[simp] theorem State.releasePins_stores (s : State) (slots pin) : (s.releasePins slots pin).stores = s.stores := by
  simp [State.releasePins]

theorem State.reclaimSlot_stores {s t : State} (h : s.reclaimSlot = some t) : t.stores = s.stores := by
  simp only [State.reclaimSlot, Option.map_eq_some_iff] at h
  obtain ⟨⟨n, u⟩, h, rfl⟩ := h
  rcases Option.or_eq_some_iff.1 h with h | ⟨_, h⟩
  · rcases Option.or_eq_some_iff.1 h with h | ⟨_, h⟩ <;> simp [State.victimE0_stores h]
  · simp [State.victimE1_stores h]

@[simp] theorem State.addNode_stores (s : State) (n) : (s.addNode n).stores = s.stores := (rfl)
@[simp] theorem State.freeOpen_stores (s : State) (n) : (s.freeOpen n).stores = s.stores := (rfl)
@[simp] theorem State.launchNodes_stores (s : State) (serial asid) : (s.launchNodes serial asid).stores = s.stores := by
  simp [State.launchNodes]
@[simp] theorem State.sealHeader_stores (s : State) (n layer form ranks payload) :
    (s.sealHeader n layer form ranks payload).stores = s.stores := by
  simp [State.sealHeader]

@[simp] theorem State.sealBlock_stores (s : State) (p slot i) : (s.sealBlock p slot i).stores = s.stores := by
  unfold State.sealBlock
  split
  · simp
  · split <;> simp

/-! ### Hearth -/

@[simp] theorem State.setReading_stores (s : State) (r) : (s.setReading r).stores = s.stores := (rfl)
@[simp] theorem State.endRead_stores (s : State) (who) : (s.endRead who).stores = s.stores := (rfl)

@[simp] theorem State.hearthRead_stores (s : State) (who asid k va n) : (s.hearthRead who asid k va n).2.stores = s.stores := by
  unfold State.hearthRead; dsimp only; split
  · simp
  · rfl
  · simp
  · split
    · rfl
    · split
      · split <;> simp
      · refine (foldl_snd_stores _ _ _ fun a g => ?_).trans (s.segments_stores asid k va n)
        split
        · split
          · split <;> simp
          · simp
          · rfl
        · rfl

@[simp] theorem State.awaitWrite_stores (s : State) (asid tag) : (s.awaitWrite asid tag).stores = s.stores := (rfl)

@[simp] theorem State.hearthWrite_stores (s : State) (asid va bs) : (s.hearthWrite asid va bs).stores = s.stores := by
  unfold State.hearthWrite; dsimp only; split
  · refine (foldl_stores _ _ _ fun s g => ?_).trans (s.segments_stores asid _ va _)
    split <;> simp
  · simp

@[simp] theorem State.condWord_stores (s : State) (l va) : (s.condWord l va).2.stores = s.stores := by
  unfold State.condWord; dsimp only; split <;> simp

@[simp] theorem State.act_stores (s : State) (l x) : (s.act l x).2.stores = s.stores := by
  unfold State.act; dsimp only
  split
  · split
    · simp
    · split
      · simp
      · split
        · simp
        · split <;> simp
        · simp
        · simp
  · split
    · split
      · split
        · simp
        · simp
        · split <;> simp
      · simp
    · simp

@[simp] theorem State.acts_stores (f) (s : State) (l as) : (State.acts f s l as).2.stores = s.stores := by
  induction f generalizing s l as with
  | zero => rfl
  | succ f ih =>
    cases as with
    | nil => rfl
    | cons a as =>
      unfold State.acts; dsimp only
      split
      · simp
      · split <;> simp [ih]

@[simp] theorem State.setLaunch_stores (s : State) (l) : (s.setLaunch l).stores = s.stores := (rfl)
@[simp] theorem State.walkGraph_stores (s : State) (l as) : (s.walkGraph l as).stores = s.stores := by
  simp [State.walkGraph]
@[simp] theorem State.resumeWalk_stores (s : State) (l) : (s.resumeWalk l).stores = s.stores := by
  simp [State.resumeWalk]
@[simp] theorem State.assign_store (s l i n order) (c : Core) : (State.assign s l i n order c).store = c.store := by
  unfold State.assign; split <;> simp
@[simp] theorem State.dispatch_stores (s : State) (l i n cores) : (s.dispatch l i n cores).stores = s.stores := by
  simp [State.dispatch]

@[simp] theorem State.select1_stores (s : State) : (s.select1).2.stores = s.stores := by
  unfold State.select1; dsimp only
  split
  · simp
  · split
    · simp
    · split <;> simp

@[simp] theorem State.select_stores (f) (s : State) : (State.select f s).stores = s.stores := by
  induction f generalizing s with
  | zero => rfl
  | succ f ih =>
    simp [State.select, ih]

@[simp] theorem State.endLaunch_stores (s : State) (l) : (s.endLaunch l).stores = s.stores := by
  simp [State.endLaunch]
@[simp] theorem State.hearthRun_stores (s : State) : (s.hearthRun).stores = s.stores := by
  simp [State.hearthRun]
@[simp] theorem State.regate_stores (s : State) : (s.regate).stores = s.stores := (rfl)
@[simp] theorem State.setQueue_stores (s : State) (q k) : (s.setQueue q k).stores = s.stores := (rfl)
@[simp] theorem State.stopQueue_stores (s : State) (q code) : (s.stopQueue q code).stores = s.stores := by
  simp [State.stopQueue]
@[simp] theorem State.queueWord_stores (s : State) (q k va old) : (s.queueWord q k va old).2.stores = s.stores := by
  unfold State.queueWord; dsimp only; split <;> simp

@[simp] theorem State.syncQueue_stores (s : State) (q) : (s.syncQueue q).stores = s.stores := by
  unfold State.syncQueue; dsimp only
  split
  · simp
  · split <;> simp

@[simp] theorem State.readRecord_stores (s : State) (q k) : (s.readRecord q k).2.stores = s.stores := by
  have ha := s.asidOn_stores k.asid
  unfold State.readRecord; dsimp only
  split
  · rfl
  · split
    next e => rw [e] at ha; exact ha
    next e => rw [e] at ha; exact ha
    next u e =>
      have hu : u.stores = s.stores := by rw [e] at ha; exact ha
      split
      · simp [hu]
      · split
        · simp [hu]
        · split
          · simp [hu]
          · split
            · simp [hu]
            · split
              · simp [hu]
              · split
                · simp [hu]
                · split <;> simp [hu]
              · simp [hu]
      · simp [hu]

@[simp] theorem State.acceptRecord_stores (s : State) (q k l) : (s.acceptRecord q k l).stores = s.stores := by
  simp [State.acceptRecord]

@[simp] theorem State.readHeader_stores (s : State) (l tt) : (s.readHeader l tt).2.stores = s.stores := by
  unfold State.readHeader; dsimp only
  split
  · simp
  · simp
  · simp
  · split
    · simp
    · simp
    · simp
    · split
      · simp
      · split <;> simp

theorem State.fillPage_stores {s t : State} {asid e o} (h : s.fillPage asid e o = .ok t ∨ s.fillPage asid e o = .wait t) :
    t.stores = s.stores := by
  unfold State.fillPage at h; dsimp only at h
  split at h
  · rcases h with h | h <;> cases h; rfl
  · split at h <;> rcases h with h | h <;> cases h <;> simp

theorem State.fillPages_stores {s t : State} {asid e os}
    (h : State.fillPages asid e os s = .ok t ∨ State.fillPages asid e os s = .wait t) : t.stores = s.stores := by
  induction os generalizing s with
  | nil => rcases h with h | h <;> cases h; rfl
  | cons o os ih =>
    unfold State.fillPages at h
    split at h
    next u hu => rw [ih h]; exact State.fillPage_stores (.inl hu)
    next r hr => exact State.fillPage_stores h

@[simp] theorem State.entryFault_stores (s : State) (t code info pc) : (s.entryFault t code info pc).stores = s.stores := by
  simp [State.entryFault]
@[simp] theorem State.pageFault_stores (s : State) (va) : (s.pageFault va).stores = s.stores := by
  simp [State.pageFault]
@[simp] theorem State.goOn_stores (s : State) : (s.goOn).stores = s.stores := by
  simp [State.goOn]

@[simp] theorem State.taskDone_stores (s : State) (t) : (s.taskDone t).stores = s.stores := by
  unfold State.taskDone
  split
  · simp
  · split <;> simp

@[simp] theorem State.ovlSettle_stores (s : State) : (s.ovlSettle).stores = s.stores := by
  simp [State.ovlSettle]
@[simp] theorem Core.retired_store (c : Core) : (c.retired).store = c.store := (rfl)

/-! ### Recovery -/

@[simp] theorem State.logCommand_stores (s : State) (i ops data) : (s.logCommand i ops data).stores = s.stores := by
  unfold State.logCommand; dsimp only; split <;> simp
@[simp] theorem State.markIrrevocable_stores (s : State) (b) : (s.markIrrevocable b).stores = s.stores := by
  simp [State.markIrrevocable]

@[simp] theorem State.markIrredispatch_stores (s : State) (b) : (s.markIrredispatch b).stores = s.stores := by
  unfold State.markIrredispatch
  split
  · split
    · split <;> simp
    · simp
  · simp

@[simp] theorem State.setCstate_stores (s : State) (v) : (s.setCstate v).stores = s.stores := by
  simp [State.setCstate]
@[simp] theorem State.departRun_stores (s : State) (status) : (s.departRun status).stores = s.stores := by
  simp [State.departRun]
@[simp] theorem Core.cancelPhase_store (c : Core) : (c.cancelPhase).store = c.store := by
  simp [Core.cancelPhase]
@[simp] theorem Core.dropSaved_store (p) (c : Core) : (c.dropSaved p).store = c.store := by
  simp [Core.dropSaved]
@[simp] theorem State.touchPairs_stores (s : State) (a n) : (s.touchPairs a n).stores = s.stores := (rfl)

/-! ### Memory accesses -/

@[simp] theorem State.setCmd_stores (s : State) (k) : (s.setCmd k).stores = s.stores := (rfl)
@[simp] theorem State.finish_stores (s : State) (k code) : (s.finish k code).stores = s.stores := by
  unfold State.finish; split <;> simp
@[simp] theorem State.park_stores (s : State) (k va write) : (s.park k va write).stores = s.stores := by
  simp [State.park]

@[simp] theorem State.plan_stores (s : State) (k rs) : (State.plan s k rs).2.stores = s.stores := by
  induction rs generalizing s with
  | nil => rfl
  | cons r rs ih => unfold State.plan; dsimp only; split <;> simp [ih]

@[simp] theorem State.ask_stores (s : State) (k segs) : (s.ask k segs).stores = s.stores := by
  simp [State.ask]
@[simp] theorem State.refused_stores (s : State) (k line) : (s.refused k line).stores = s.stores := (rfl)

@[simp] theorem State.readRanges_stores (s : State) (k rs) : (Sum.elim id Prod.snd (s.readRanges k rs)).stores = s.stores := by
  unfold State.readRanges
  extract_lets p
  have hp : p.2.stores = s.stores := s.plan_stores .read rs
  split
  · simp [hp]
  · simp [hp]
  · simp [hp]
  · split
    · simp [hp]
    · split
      · simp [hp]
      · extract_lets r
        have hr : r.2.stores = s.stores := (foldl_snd_stores _ _ _ fun a g => by split <;> simp).trans hp
        split <;> simp [hr]

theorem State.readRanges_inl {s t : State} {k rs} (h : s.readRanges k rs = .inl t) : t.stores = s.stores := by
  simpa [h] using s.readRanges_stores k rs
theorem State.readRanges_inr {s : State} {k rs r} (h : s.readRanges k rs = .inr r) : r.2.stores = s.stores := by
  simpa [h] using s.readRanges_stores k rs
@[simp] theorem State.writeRemote_stores (s : State) (born g bs) : (s.writeRemote born g bs).2.stores = s.stores := by
  unfold State.writeRemote; split <;> simp

@[simp] theorem State.writeSegs_stores (s : State) (born segs bs) : (s.writeSegs born segs bs).2.stores = s.stores := by
  unfold State.writeSegs; dsimp only
  exact foldl_keeps (fun a : List (BitVec 32) × List Byte × State => a.2.2.stores) _ (fun a g => by simp) _ _

@[simp] theorem State.releaseOwn_stores (s : State) (k segs) : (s.releaseOwn k segs).2.stores = s.stores := by
  unfold State.releaseOwn; split <;> simp
@[simp] theorem State.written_stores (s : State) (k acks fans code) : (s.written k acks fans code).stores = s.stores := by
  simp [State.written]

@[simp] theorem State.writeRanges_stores (s : State) (k rs bs) : (s.writeRanges k rs bs).stores = s.stores := by
  unfold State.writeRanges; dsimp only
  split
  · simp
  · simp
  · simp
  · split <;> simp

@[simp] theorem State.loadInto_stores (s : State) (i n v) : (s.loadInto i n v).stores = s.stores := by
  unfold State.loadInto; split <;> simp
@[simp] theorem State.setClock_stores (s : State) (sc t) : (s.setClock sc t).stores = s.stores := by
  simp [State.setClock]

@[simp] theorem State.homeAccess_stores (s : State) (k pa) : (s.homeAccess k pa).stores = s.stores := by
  unfold State.homeAccess; dsimp only
  split
  · simp
  · split
    · simp
    · split
      · simp
      · split
        · split <;> simp
        · split <;> simp

@[simp] theorem State.hostAccess_stores (s : State) (k pa) : (s.hostAccess k pa).stores = s.stores := by
  unfold State.hostAccess; dsimp only
  split
  · split <;> simp
  · split <;> simp

@[simp] theorem State.remoteAccess_stores (s : State) (k kind m pa) : (s.remoteAccess k kind m pa).stores = s.stores := by
  simp [State.remoteAccess]

@[simp] theorem State.atHome_stores (s : State) (k) : (s.atHome k).stores = s.stores := by
  unfold State.atHome; dsimp only
  split
  · simp
  · split
    · simp
    · simp
    · simp
    · simp
    · split <;> simp

@[simp] theorem State.takeRemote_stores (s : State) (k) : (s.takeRemote k).stores = s.stores := by
  simp [State.takeRemote]

@[simp] theorem State.rowSide_stores (s : State) (sp write a n) : (s.rowSide sp write a n).2.stores = s.stores := by
  unfold State.rowSide
  split
  · simp
  · split <;> simp

@[simp] theorem State.planRows_stores (ssp dsp n rs) (s : State) : (State.planRows ssp dsp n rs s).2.2.stores = s.stores := by
  induction rs generalizing s with
  | nil => rfl
  | cons r rs ih =>
    unfold State.planRows; dsimp only
    split
    · simp
    · split <;> simp [ih]

@[simp] theorem State.rowRead_stores (s : State) (k ue ssp n p) : (s.rowRead k ue ssp n p).2.stores = s.stores := by
  unfold State.rowRead; split
  · rfl
  · split
    · rfl
    · split
      · refine foldl_snd_stores _ _ _ fun a g => ?_
        split <;> simp
      · rfl

@[simp] theorem State.watchRead_stores (s : State) (k final) : (s.watchRead k final).stores = s.stores := by
  unfold State.watchRead; dsimp only
  split
  · simp
  · split
    · simp
    · split
      next h => exact State.readRanges_inl h
      next h => have hr := State.readRanges_inr h; split <;> simpa using hr

@[simp] theorem State.enqueue_stores (s : State) (entry m) : (s.enqueue entry m).stores = s.stores := (rfl)
@[simp] theorem State.pathLost_stores (s : State) (e) : (s.pathLost e).stores = s.stores := (rfl)

/-! ### Copies -/

@[simp] theorem State.logged_stores (s : State) (i h ops data) : (s.logged i h ops data).stores = s.stores := by
  simp [State.logged]
@[simp] theorem State.start_stores (s : State) (i h tok ops addr data ring) : (s.start i h tok ops addr data ring).stores = s.stores := by
  simp [State.start]
@[simp] theorem State.touchAll_stores (s : State) (ext) : (s.touchAll ext).stores = s.stores := by
  simp [State.touchAll]
@[simp] theorem State.markArrival_stores (s : State) (k) : (s.markArrival k).stores = s.stores := (rfl)
@[simp] theorem State.setBus_stores (s : State) (b) : (s.setBus b).stores = s.stores := (rfl)
@[simp] theorem State.resumeChannel_stores (s : State) (e) : (s.resumeChannel e).stores = s.stores := by
  simp [State.resumeChannel]

/-! ### Crucible commands -/

@[simp] theorem State.kFail_stores (s : State) (k code) : (s.kFail k code).stores = s.stores := by
  simp [State.kFail]
@[simp] theorem State.kAsk_stores (s : State) (k m stage r) : (s.kAsk k m stage r).stores = s.stores := by
  simp [State.kAsk]
@[simp] theorem State.lookAsk_stores (s : State) (k stage r) : (s.lookAsk k stage r).stores = s.stores := by
  simp [State.lookAsk]
@[simp] theorem State.askInfo_stores (s : State) (k gone) (h : gone.stores = s.stores) : (s.askInfo k gone).stores = s.stores := by
  simp [State.askInfo, h]
@[simp] theorem State.putHeaders_stores (s : State) (p n parent toks) : (s.putHeaders p n parent toks).stores = s.stores := by
  simp [State.putHeaders]

@[simp] theorem State.roomFor_stores (s : State) (p need) : (s.roomFor p need).2.stores = s.stores := by
  unfold State.roomFor; split
  · rfl
  · split
    · split
      next h => exact State.reclaimSlot_stores h
      next => rfl
    · simp

@[simp] theorem State.sealAct_stores (s : State) (w n) : (s.sealAct w n).s.stores = s.stores := by
  unfold State.sealAct
  split
  · split
    · rfl
    · split
      · rfl
      · split
        · rfl
        · split
          · rfl
          · split <;> simp
  all_goals rfl

@[simp] theorem State.kAct_stores (s : State) (w op n arg) : (s.kAct w op n arg).s.stores = s.stores := by
  unfold State.kAct
  split
  · exact s.sealAct_stores w n
  · simp
  · split
    next h => exact State.takeRef_stores h
    next => rfl
  · split <;> simp
  · split
    · simp
    · split <;> simp

@[simp] theorem State.settleRemote_stores (s : State) (op st m) : (s.settleRemote op st m).stores = s.stores := by
  simp [State.settleRemote]

@[simp] theorem State.doKwr_stores (s : State) (k) : (s.doKwr k).stores = s.stores := by
  unfold State.doKwr; dsimp only
  split
  · simp
  · split
    · simp
    · split
      · simp
      · split
        · simp
        · split
          · simp
          · split <;> simp

@[simp] theorem State.kldTouch_stores (s : State) (pin n p arg) : (s.kldTouch pin n p arg).stores = s.stores := by
  refine foldl_stores _ _ _ fun t i => ?_
  dsimp only; split <;> simp

@[simp] theorem State.specMarks_stores (s : State) (k) : (s.specMarks k).stores = s.stores := by
  unfold State.specMarks
  split
  · simp
  · split <;> simp

@[simp] theorem State.replEnd_stores (s : State) (k) : (s.replEnd k).stores = s.stores := by
  simp [State.replEnd]
@[simp] theorem State.askImage_stores (s : State) (k d) : (s.askImage k d).stores = s.stores := by
  simp [State.askImage]

theorem State.beginReplica_stores {s t : State} {k p} (h : s.beginReplica k p = some t) : t.stores = s.stores := by
  have hr := s.roomFor_stores p (sumN (k.image.blocks.map (fun b => granulesOf b.bytes.length)))
  unfold State.beginReplica at h; dsimp only at h
  split at h
  next e => rw [e] at hr; cases h; simpa using hr
  next e => rw [e] at hr; split at h <;> cases h; simpa using hr
  next e =>
    rw [e] at hr
    split at h
    · cases h; simpa using hr
    · split at h <;> cases h <;> simpa using hr

@[simp] theorem State.kAbandon_stores (s : State) (k) : (s.kAbandon k).stores = s.stores := by
  unfold State.kAbandon; dsimp only
  split
  · split
    · simp
    · split <;> simp
  · split
    · simp
    · split <;> simp

@[simp] theorem State.setBad_stores (s : State) (n d) : (s.setBad n d).stores = s.stores := by
  unfold State.setBad; split <;> simp

@[simp] theorem State.serveK_stores (s : State) (src tag r) : (s.serveK src tag r).stores = s.stores := by
  unfold State.serveK; dsimp only
  split
  · simp
  · simp
  · simp
  · split
    · simp
    · split
      · simp
      · split
        · simp
        · simp [State.kAct_stores]
  · split
    · simp
    · split
      · simp
      · split
        · simp
        · split <;> simp
  · split
    · simp
    · split
      · split <;> simp
      · simp
  · simp
  · simp
  · simp
  · simp
  · simp
  · split <;> simp
  · rfl

/-! ### Pace -/

@[simp] theorem State.tick_stores (s : State) (weight) : (s.tick weight).stores = s.stores := by
  unfold State.tick; dsimp only; split <;> simp
@[simp] theorem State.frozen_stores (s : State) (count) : (s.frozen count).stores = s.stores := by
  simp [State.frozen]
@[simp] theorem State.raiseVote_stores (s : State) : (s.raiseVote).stores = s.stores := by
  simp [State.raiseVote]
@[simp] theorem Core.unhold_store (c : Core) (grant) : (c.unhold grant).store = c.store := (rfl)

/-! ### Contexts -/

@[simp] theorem State.sysWrite_stores (s : State) (pa bs) : (s.sysWrite pa bs).stores = s.stores := by
  simp [State.sysWrite]
@[simp] theorem State.sysTouch_stores (s : State) (pa n) : (s.sysTouch pa n).stores = s.stores := by
  simp [State.sysTouch]
@[simp] theorem State.writeArea_stores (s : State) (t mode) : (s.writeArea t mode).stores = s.stores := by
  simp [State.writeArea]
@[simp] theorem State.stopForSave_stores (s : State) (mode) : (s.stopForSave mode).stores = s.stores := by
  simp [State.stopForSave]
@[simp] theorem Core.parkedAs_store (c : Core) (v) : (c.parkedAs v).store = c.store := (rfl)
@[simp] theorem State.leaveSaved_stores (s : State) (v) : (s.leaveSaved v).stores = s.stores := by
  simp [State.leaveSaved]
@[simp] theorem State.discardSaved_stores (s : State) (p) : (s.discardSaved p).stores = s.stores := by
  unfold State.discardSaved; split <;> simp
@[simp] theorem State.areaTouch_stores (s : State) : (s.areaTouch).stores = s.stores := by
  simp [State.areaTouch]

theorem State.refill_stores {s t : State} {k} (h : s.refill k = .ok t ∨ s.refill k = .wait t) : t.stores = s.stores := by
  unfold State.refill at h; dsimp only at h
  split at h
  · rcases h with h | h <;> cases h; rfl
  · split at h
    · split at h
      · rcases h with h | h <;> cases h; simp
      · rcases h with h | h <;> cases h
      · rw [State.fillPages_stores h]; simp
    · rcases h with h | h <;> cases h; rfl

/-! ### The driver -/

@[simp] theorem State.fence_stores (s : State) (tags) : (s.fence tags).stores = s.stores := (rfl)
@[simp] theorem State.dropSends_stores (s : State) (chans) : (s.dropSends chans).stores = s.stores := by
  simp [State.dropSends]
@[simp] theorem State.dropCommands_stores (s : State) : (s.dropCommands).stores = s.stores := by
  simp [State.dropCommands]
@[simp] theorem State.cutOff_stores (s : State) (status) : (s.cutOff status).stores = s.stores := by
  simp [State.cutOff]
@[simp] theorem State.dropReads_stores (s : State) (a) : (s.dropReads a).stores = s.stores := (rfl)
@[simp] theorem State.hostClean_stores (s : State) (a) : (s.hostClean a).stores = s.stores := (rfl)
@[simp] theorem State.setFret_stores (s : State) (old n) : (s.setFret old n).stores = s.stores := by
  simp [State.setFret]
@[simp] theorem State.moveGranules_stores (s : State) (old new) : (s.moveGranules old new).stores = s.stores := (rfl)
@[simp] theorem State.countGone_stores (s : State) (gone) : (s.countGone gone).stores = s.stores := by
  simp [State.countGone]
@[simp] theorem State.markPaths_stores (s : State) (m down) : (s.markPaths m down).stores = s.stores := (rfl)
@[simp] theorem State.crucibleWithout_stores (s : State) (m) : (s.crucibleWithout m).stores = s.stores := by
  simp [State.crucibleWithout]
@[simp] theorem State.nextMaster_stores (s : State) (m) : (s.nextMaster m).stores = s.stores := by
  simp [State.nextMaster]
@[simp] theorem State.removeModule_stores (s : State) (mid) : (s.removeModule mid).stores = s.stores := by
  simp [State.removeModule]

/-! ### Bring-up -/

@[simp] theorem State.setM_stores (s : State) (m) : (s.setM m).stores = s.stores := (rfl)
theorem State.withPwr_stores (s : State) (w : Word) :
    State.stores { s with regs := { s.regs with telem := { s.regs.telem with pwr := w } } } = s.stores := rfl
@[simp] theorem State.relimit_stores (s : State) : s.relimit.stores = s.stores := s.withPwr_stores _
@[simp] theorem State.go_stores (s : State) : (s.go).stores = s.stores := by
  simp [State.go]
@[simp] theorem State.writeHcfg_stores (s : State) (v) : (s.writeHcfg v).stores = s.stores := by
  simp [State.writeHcfg]
@[simp] theorem State.dropTlb_stores (s : State) (p) : (s.dropTlb p).stores = s.stores := (rfl)
@[simp] theorem State.shoot_stores (s : State) (v) : (s.shoot v).stores = s.stores := by
  simp [State.shoot]
@[simp] theorem State.ovlInvalidate_stores (s : State) (p) : (s.ovlInvalidate p).stores = s.stores := by
  simp [State.ovlInvalidate]
@[simp] theorem State.writeCrmark_stores (s : State) (v) : (s.writeCrmark v).stores = s.stores := by
  simp [State.writeCrmark]
@[simp] theorem State.writeHlccfg_stores (s : State) (v) : (s.writeHlccfg v).stores = s.stores := by
  simp [State.writeHlccfg]
@[simp] theorem State.readmit_stores (s : State) (v) : (s.readmit v).stores = s.stores := by
  simp [State.readmit]
@[simp] theorem State.nsTouch_stores (s : State) (slot) : (s.nsTouch slot).stores = s.stores := by
  simp [State.nsTouch]
@[simp] theorem State.nsStatus_stores (s : State) (k) : (s.nsStatus k).stores = s.stores := by
  simp [State.nsStatus]
@[simp] theorem State.nsMake_stores (s0 : State) (slot) : (s0.nsMake slot).stores = s0.stores := by
  simp [State.nsMake]
@[simp] theorem State.nsDrop_stores (s : State) (slot) : (s.nsDrop slot).stores = s.stores := by
  unfold State.nsDrop; split <;> simp
@[simp] theorem State.nsGrant_stores (s : State) (slot) : (s.nsGrant slot).stores = s.stores := by
  unfold State.nsGrant; split <;> simp
@[simp] theorem State.nsRun_stores (s : State) : (s.nsRun).stores = s.stores := by
  simp [State.nsRun]
@[simp] theorem State.nsStart_stores (s : State) (op slot) : (s.nsStart op slot).stores = s.stores := by
  simp [State.nsStart]
@[simp] theorem State.writeLq3_stores (s : State) (q v) : (s.writeLq3 q v).stores = s.stores := by
  simp [State.writeLq3]
@[simp] theorem State.restartQueue_stores (s : State) (q) : (s.restartQueue q).stores = s.stores := by
  simp [State.restartQueue]

@[simp] theorem State.writeLq_stores (s : State) (q k v) : (s.writeLq q k v).stores = s.stores := by
  unfold State.writeLq
  split
  · simp
  · split <;> simp

@[simp] theorem State.sstat_stores (s : State) (stk code) : (s.sstat stk code).stores = s.stores := (rfl)
@[simp] theorem State.writeSlab_stores (s : State) (stk i v) : (s.writeSlab stk i v).stores = s.stores := by
  simp [State.writeSlab]
@[simp] theorem State.writeRoles_stores (s : State) (stk i pairs v) : (s.writeRoles stk i pairs v).stores = s.stores := by
  simp [State.writeRoles]
@[simp] theorem State.loadWs_stores (s : State) (stk v) : (s.loadWs stk v).stores = s.stores := by
  simp [State.loadWs]

theorem State.engineRead_stores {s t : State} {src len bs} (h : s.engineRead src len = some (bs, t)) : t.stores = s.stores := by
  unfold State.engineRead at h
  split at h
  · simp only [Option.some.injEq, Prod.ext_iff] at h; simp [← h.2]
  · split at h <;> cases h; rfl

@[simp] theorem State.reformed_stores (s : State) : (s.reformed).stores = s.stores := by
  simp [State.reformed]
@[simp] theorem State.writeDomain_stores (s : State) (v) : (s.writeDomain v).stores = s.stores := by
  simp [State.writeDomain]
@[simp] theorem State.writeModule_stores (s : State) (off v) : (s.writeModule off v).stores = s.stores := by
  unfold State.writeModule; dsimp only; split <;> simp
@[simp] theorem State.writeStack_stores (s : State) (stk off v) : (s.writeStack stk off v).stores = s.stores := by
  unfold State.writeStack; split <;> simp
@[simp] theorem State.writeCore_stores (s : State) (n v) : (s.writeCore n v).stores = s.stores := by
  simp [State.writeCore]

/-! ### Links -/

@[simp] theorem State.learn_stores (s : State) (m inc) : (s.learn m inc).stores = s.stores := (rfl)
@[simp] theorem State.learnStack_stores (s : State) (m) : (s.learnStack m).stores = s.stores := (rfl)
@[simp] theorem State.failLink_stores (s : State) (n l) : (s.failLink n l).stores = s.stores := (rfl)
@[simp] theorem State.drain_stores (s : State) (n) : (s.drain n).stores = s.stores := by
  simp [State.drain]
@[simp] theorem State.switchRoute_stores (s : State) (d w) : (s.switchRoute d w).stores = s.stores := by
  simp [State.switchRoute]
@[simp] theorem State.takeAck_stores (s : State) (n ack) : (s.takeAck n ack).stores = s.stores := by
  unfold State.takeAck; dsimp only; split <;> simp
@[simp] theorem State.takeNak_stores (s : State) (n seq) : (s.takeNak n seq).stores = s.stores := by
  simp [State.takeNak]
@[simp] theorem State.takePause_stores (s : State) (n vl on) : (s.takePause n vl on).stores = s.stores := by
  simp [State.takePause]
@[simp] theorem State.takeCpause_stores (s : State) (n ch on) : (s.takeCpause n ch on).stores = s.stores := by
  simp [State.takeCpause]
@[simp] theorem State.takeControl_stores (s : State) (n code arg) : (s.takeControl n code arg).stores = s.stores := by
  unfold State.takeControl; split <;> simp
@[simp] theorem State.occupy_stores (s : State) (n vl add sub) : (s.occupy n vl add sub).stores = s.stores := by
  simp [State.occupy]
@[simp] theorem State.nakFor_stores (s : State) (n) : (s.nakFor n).stores = s.stores := by
  simp [State.nakFor]
@[simp] theorem State.arriveMsg_stores (s : State) (n m) : (s.arriveMsg n m).stores = s.stores := by
  simp [State.arriveMsg]
@[simp] theorem State.takePayload_stores (s : State) (n vl p) : (s.takePayload n vl p).stores = s.stores := by
  simp [State.takePayload]
@[simp] theorem State.consume_stores (s : State) (n m) : (s.consume n m).stores = s.stores := by
  simp [State.consume]
@[simp] theorem State.respond_stores (s : State) (m r) : (s.respond m r).stores = s.stores := by
  simp [State.respond]

theorem State.serveMem_stores {s t : State} {r x ls} (h : s.serveMem r = some (x, ls, t)) : t.stores = s.stores := by
  unfold State.serveMem at h
  extract_lets n ls at h
  split at h
  · cases h
  · split at h
    · cases h; rfl
    · split at h
      · cases h; simp
      · rename_i old y cmp s1 st _ _ _
        have h1 : s1.stores = s.stores := by
          unfold s1; split
          · simp
          · simp
          · split <;> simp
        cases h
        simp [st, apply_ite Prod.snd, h1]

@[simp] theorem Core.response_store (tag r) (c : Core) : (c.response tag r).store = c.store := (rfl)
@[simp] theorem State.takeResponse_stores (s : State) (tag r) : (s.takeResponse tag r).stores = s.stores := by
  simp [State.takeResponse]

@[simp] theorem State.placed_stores (s : State) (entry) : (s.placed entry).stores = s.stores := by
  refine State.mapCores_stores _ _ fun c => ?_
  split <;> simp

@[simp] theorem State.idleFlit_stores (s : State) (n) : (s.idleFlit n).stores = s.stores := by
  simp [State.idleFlit]
@[simp] theorem State.lostOver_stores (s : State) (n) : (s.lostOver n).stores = s.stores := by
  simp [State.lostOver]
@[simp] theorem State.publishGroup_stores (s : State) (b) : (s.publishGroup b).stores = s.stores := by
  simp [State.publishGroup]
@[simp] theorem State.publish_stores (s : State) : (s.publish).stores = s.stores := by
  simp [State.publish]

/-! ### The board -/

@[simp] theorem State.measured_stores (s : State) (m) : (s.measured m).stores = s.stores := (rfl)
@[simp] theorem State.spdmAnswer_stores (s : State) (kind bs) : (s.spdmAnswer kind bs).stores = s.stores := by
  simp [State.spdmAnswer]

/-! ### Scalar -/

@[simp] theorem Core.cancelCmd_store (c : Core) (k) : (c.cancelCmd k).store = c.store := (rfl)

/-! ### Issue -/

@[simp] theorem State.calm_stores (s : State) : (s.calm).stores = s.stores := (rfl)
@[simp] theorem State.atBundle_stores (s : State) (pc len) : (s.atBundle pc len).stores = s.stores := (rfl)
@[simp] theorem State.ungrant_stores (s : State) : (s.ungrant).stores = s.stores := (rfl)
@[simp] theorem State.failAt_stores (s : State) (t) : (s.failAt t).stores = s.stores := by
  unfold State.failAt; split <;> simp

end Sys2Proof.Machine
end

section
/-! ## Stores that come of others
`Keeps` says what a function that writes stores may do: the same core stays in focus, no core is lost, and what was in canonical
form is so still. -/
namespace Sys2Proof.Machine
open Sys2Proof

/-- Register space and banks are in canonical form. -/
def Store.canonical (x : Store) : Prop := x.2.1.wf = true ∧ x.2.2.wf = true

/-- The store `y` comes of `x`: of the same core, and canonical if `x` is. -/
structure Store.Keeps (x y : Store) : Prop where
  num : y.1 = x.1
  canonical : x.canonical → y.canonical

/-- The numbers of the cores. -/
def Stores.nums (a : Stores) : List Nat := a.1.1 :: a.2.map Prod.fst

/-- The storage of every core is in canonical form. -/
def Stores.canonical (a : Stores) : Prop := a.1.canonical ∧ ∀ x ∈ a.2, x.canonical

/-- The stores `b` come of `a`: the same core is in focus, no core is lost, and what was canonical is so still. -/
structure Stores.Keeps (a b : Stores) : Prop where
  num : b.1.1 = a.1.1
  nums : a.nums ⊆ b.nums
  canonical : a.canonical → b.canonical

theorem State.stores_canonical (s : State) : s.stores.canonical ↔ ∀ c ∈ s.cores, c.storageWf := by
  unfold Stores.canonical State.stores State.cores
  simp only [List.mem_map, forall_exists_index, and_imp, forall_apply_eq_imp_iff₂, List.forall_mem_cons]
  rfl

theorem State.stores_nums (s : State) : s.stores.nums = s.cores.map Core.cnum := by
  unfold Stores.nums State.stores State.cores
  rw [List.map_map, List.map_cons]; rfl

@[simp] theorem Store.Keeps.refl (x : Store) : x.Keeps x := ⟨rfl, id⟩
theorem Store.Keeps.trans {x y z : Store} (h : x.Keeps y) (k : y.Keeps z) : x.Keeps z :=
  ⟨k.num.trans h.num, k.canonical ∘ h.canonical⟩
@[simp] theorem Stores.Keeps.refl (a : Stores) : a.Keeps a := ⟨rfl, List.Subset.refl _, id⟩
theorem Stores.Keeps.trans {a b c : Stores} (h : a.Keeps b) (k : b.Keeps c) : a.Keeps c :=
  ⟨k.num.trans h.num, List.Subset.trans h.nums k.nums, k.canonical ∘ h.canonical⟩

/-- The store in focus follows its own, the others are the same. -/
theorem Stores.Keeps.focus {a : Stores} {x y : Store} {l : List Store} (h : a.Keeps (x, l)) (k : x.Keeps y) : a.Keeps (y, l) :=
  h.trans ⟨k.num, by simp [Stores.nums, k.num], fun c => ⟨k.canonical c.1, c.2⟩⟩

/-- Every store follows its own. -/
theorem State.mapCores_keeps {a : Stores} {s : State} {f : Core → Core} (h : a.Keeps s.stores)
    (hf : ∀ c : Core, c.store.Keeps (f c).store) :
    a.Keeps (s.mapCores f).stores := by
  refine h.trans ⟨(hf s.core).num, ?_, ?_⟩
  · have hn : Core.cnum ∘ f = Core.cnum := funext fun c => (hf c).num
    have e : (s.mapCores f).cores.map Core.cnum = s.cores.map Core.cnum := by
      unfold State.cores State.mapCores; rw [List.map_cons, List.map_cons, List.map_map, hn]
      exact congrArg₂ List.cons (hf s.core).num rfl
    rw [State.stores_nums, State.stores_nums, e]
    exact List.Subset.refl _
  · simp only [State.stores_canonical, State.cores, State.mapCores, List.forall_mem_cons, List.forall_mem_map]
    exact fun ⟨h1, h2⟩ => ⟨(hf _).canonical h1, fun c hc => (hf c).canonical (h2 c hc)⟩

/-- A core that is found comes into focus. -/
theorem State.focus_num {s t : State} {c : Nat} (h : s.focus c = some t) : t.core.cnum = c := by
  unfold State.focus at h
  split at h
  · cases h; assumption
  · split at h
    · cases h
    next k hk => cases h; simpa using List.find?_some hk

/-- Bringing a core into focus loses no core. -/
theorem State.focus_nums {s t : State} {c : Nat} (h : s.focus c = some t) : s.stores.nums ⊆ t.stores.nums := by
  unfold State.focus at h
  split at h
  · cases h; exact List.Subset.refl _
  · split at h
    · cases h
    next k hk =>
      cases h
      have hn : k.cnum = c := by simpa using List.find?_some hk
      rw [State.stores_nums, State.stores_nums]
      intro n hs
      simp only [State.cores, List.mem_map, List.mem_cons, List.mem_filter] at hs ⊢
      obtain ⟨d, rfl | hd, rfl⟩ := hs
      · exact ⟨_, .inr (.inl rfl), rfl⟩
      · by_cases hc : d.cnum = c
        · exact ⟨k, .inl rfl, hn.trans hc.symm⟩
        · exact ⟨d, .inr (.inr ⟨hd, by simpa using hc⟩), rfl⟩

/-- Bringing a core into focus keeps the storage of every core. -/
theorem State.focus_canonical {s t : State} {c : Nat} (h : s.focus c = some t) (hs : s.stores.canonical) : t.stores.canonical := by
  rw [State.stores_canonical] at hs ⊢
  unfold State.focus at h
  split at h
  · cases h; exact hs
  · split at h
    · cases h
    next k hk =>
      cases h
      intro d hd
      simp only [State.cores, List.mem_cons, List.mem_filter] at hd
      rcases hd with rfl | rfl | ⟨hd, -⟩
      · exact hs _ (.tail _ (List.mem_of_find?_eq_some hk))
      · exact hs _ (.head _)
      · exact hs _ (.tail _ hd)

/-- A core of the module can be brought into focus. -/
theorem State.focus_of_mem {s : State} {c : Nat} (h : c ∈ s.stores.nums) : ∃ t, s.focus c = some t := by
  unfold State.focus
  split
  · exact ⟨_, rfl⟩
  next hc =>
    rw [State.stores_nums] at h
    simp only [State.cores, List.mem_map, List.mem_cons] at h
    obtain ⟨d, rfl | hd, rfl⟩ := h
    · exact absurd rfl hc
    · split
      next hf => exact absurd (List.find?_eq_none.1 hf d hd) (by simp)
      next => exact ⟨_, rfl⟩

/-- What is done in another core's focus, with the focus given back, keeps the stores. -/
theorem State.refocus_keeps {s t u : State} {c : Nat} (hc : s.focus c = some t) (h : t.stores.Keeps u.stores) :
    s.stores.Keeps ((u.focus s.core.cnum).getD u).stores := by
  have hn := List.Subset.trans (State.focus_nums hc) h.nums
  obtain ⟨v, hv⟩ := State.focus_of_mem (hn (List.mem_cons_self ..) : s.core.cnum ∈ u.stores.nums)
  rw [hv]
  exact ⟨State.focus_num hv, List.Subset.trans hn (State.focus_nums hv),
    fun k => State.focus_canonical hv (h.canonical (State.focus_canonical hc k))⟩

theorem State.atCore_keeps {a : Stores} {s : State} {c : Nat} {f : State → State} (h : a.Keeps s.stores)
    (hf : ∀ u : State, u.stores.Keeps (f u).stores) : a.Keeps (s.atCore c f).stores := by
  unfold State.atCore
  split
  · exact h
  next hc => exact h.trans (State.refocus_keeps hc (hf _))

/-- Whatever state an event comes to, its stores come of `a`. -/
def Stores.KeepsSome (a : Stores) (o : Option State) : Prop := ∀ t, o = some t → a.Keeps t.stores

/-- Whatever state a slot's effect is, its stores come of `a`. -/
def Stores.KeepsOk (a : Stores) (r : SlotRes) : Prop := ∀ t, r = .ok t → a.Keeps t.stores

/-- Whatever state comes next, its stores come of `a`. -/
def Stores.KeepsNext (a : Stores) (o : Host.Outcome State Fault Refusal) : Prop := ∀ t, o = .next t → a.Keeps t.stores
@[simp] theorem Stores.keepsSome_some {a : Stores} {t : State} : a.KeepsSome (some t) ↔ a.Keeps t.stores := by simp [Stores.KeepsSome]
@[simp] theorem Stores.keepsSome_none {a : Stores} : a.KeepsSome none := by simp [Stores.KeepsSome]
@[simp] theorem Stores.keepsOk_ok {a : Stores} {t : State} : a.KeepsOk (.ok t) ↔ a.Keeps t.stores := by simp [Stores.KeepsOk]
@[simp] theorem Stores.keepsOk_fault {a : Stores} {code tok info} : a.KeepsOk (.fault code tok info) := by simp [Stores.KeepsOk]
@[simp] theorem Stores.keepsOk_hold {a : Stores} {hs} : a.KeepsOk (.hold hs) := by simp [Stores.KeepsOk]
@[simp] theorem Stores.keepsOk_illop {a : Stores} {i} : a.KeepsOk (.illop i) := by simp [SlotRes.illop]
@[simp] theorem Stores.keepsNext_next {a : Stores} {t : State} : a.KeepsNext (.next t) ↔ a.Keeps t.stores := by simp [Stores.KeepsNext]
@[simp] theorem Stores.keepsNext_refused {a : Stores} {r} : a.KeepsNext (.refused r) := by simp [Stores.KeepsNext]
@[simp] theorem Stores.keepsNext_enabledOr {a : Stores} {nm o} : a.KeepsNext (enabledOr nm o) ↔ a.KeepsSome o := by
  cases o <;> simp [enabledOr]
@[simp] theorem Stores.keeps_ite {a : Stores} {p : Prop} [Decidable p] {b c : Stores} :
    a.Keeps (if p then b else c) ↔ if p then a.Keeps b else a.Keeps c := by split <;> rfl
@[simp] theorem Stores.keepsSome_ite {a : Stores} {p : Prop} [Decidable p] {b c : Option State} :
    a.KeepsSome (if p then b else c) ↔ if p then a.KeepsSome b else a.KeepsSome c := by split <;> rfl
@[simp] theorem Stores.keepsOk_ite {a : Stores} {p : Prop} [Decidable p] {b c : SlotRes} :
    a.KeepsOk (if p then b else c) ↔ if p then a.KeepsOk b else a.KeepsOk c := by split <;> rfl
@[simp] theorem Stores.keepsNext_ite {a : Stores} {p : Prop} [Decidable p] {b c : Host.Outcome State Fault Refusal} :
    a.KeepsNext (if p then b else c) ↔ if p then a.KeepsNext b else a.KeepsNext c := by split <;> rfl

theorem State.atCore?_keeps {a : Stores} {s : State} {c : Nat} {f : State → Option State} (h : a.Keeps s.stores)
    (hf : ∀ u : State, u.stores.KeepsSome (f u)) : a.KeepsSome (s.atCore? c f) := by
  unfold State.atCore?
  split
  · simp
  next hc =>
    split
    · simp
    next ht => exact Stores.keepsSome_some.2 (h.trans (State.refocus_keeps hc (hf _ _ ht)))

@[simp] theorem foldl_keepsStores {β : Type} {a : Stores} (g : State → β → State) (l : List β) {s : State} (h : a.Keeps s.stores)
    (hg : ∀ (u : State) b, u.stores.Keeps (g u b).stores) : a.Keeps (l.foldl g s).stores := by
  induction l generalizing s with
  | nil => exact h
  | cons b l ih => exact ih (h.trans (hg s b))

end Sys2Proof.Machine
end

section
/-! ## What writes stores
Each write goes through `Memory.setCells`, `Memory.setN` or `Memory.filter`, which keep the canonical form. -/
namespace Sys2Proof.Machine
open Sys2Proof

/-- A fold keeps the canonical form if every step does. -/
theorem foldl_wf {β : Type} (g : Memory → β → Memory) (hg : ∀ m b, m.wf = true → (g m b).wf = true) (l : List β) {m : Memory}
    (h : m.wf = true) : (l.foldl g m).wf = true := by
  induction l generalizing m with
  | nil => exact h
  | cons b l ih => exact ih (hg m b h)

@[simp] theorem State.putBank_keeps {a : Stores} {s : State} (h : a.Keeps s.stores) (cells) : a.Keeps (s.putBank cells).stores :=
  Stores.Keeps.focus h ⟨rfl, fun k => ⟨k.1, Memory.setCells_wf k.2⟩⟩
theorem Core.setVec_keeps (c : Core) (addr bytes) : c.store.Keeps (c.setVec addr bytes).store :=
  ⟨rfl, fun k => ⟨Memory.setCells_wf k.1, k.2⟩⟩

theorem Core.landVal_keeps (c : Core) (v) : c.store.Keeps (c.landVal v).store := by
  cases v with
  | v a bs => exact c.setVec_keeps a bs
  | _ => simp [Core.landVal]

theorem foldl_landVal_keeps (l : List Pend) (c : Core) : c.store.Keeps (l.foldl (fun k e => k.landVal e.val) c).store := by
  induction l generalizing c with
  | nil => exact .refl _
  | cons e l ih => exact (c.landVal_keeps e.val).trans (ih _)

theorem Core.land_keeps (c : Core) : c.store.Keeps c.land.store :=
  (foldl_landVal_keeps _ c).trans ⟨rfl, fun k => ⟨k.1, foldl_wf _ (fun _ _ => Memory.setCells_wf) _ k.2⟩⟩

theorem Core.begin_keeps (c : Core) : c.store.Keeps c.begin.store := by
  have h := Core.land_keeps (if c.front.after = .resume ∧ c.front.bubbles = 0 then c.rejoin else c)
  rwa [Core.store_ite, Core.rejoin_store, ite_self] at h

@[simp] theorem State.finishJob_keeps {a : Stores} {s : State} (h : a.Keeps s.stores) (j) : a.Keeps (s.finishJob j).stores :=
  Stores.Keeps.focus h ⟨rfl, fun k => ⟨Memory.setCells_wf k.1, Memory.setCells_wf k.2⟩⟩

@[simp] theorem State.enter_keeps {a : Stores} {s : State} (h : a.Keeps s.stores) (t x1 e) : a.Keeps (s.enter t x1 e).stores := by
  refine Stores.Keeps.focus h ⟨rfl, fun k => ⟨?_, ?_⟩⟩
  · show Memory.wf (if _ then [] else _) = true
    split
    · rfl
    · exact k.1
  · show Memory.wf (if _ then _ else _) = true
    split
    · exact Memory.filter_wf _ k.2
    · exact k.2

@[simp] theorem State.restoreCheckpoint_keeps {a : Stores} {s : State} (h : a.Keeps s.stores) (t) :
    a.Keeps (s.restoreCheckpoint t).stores := by
  unfold State.restoreCheckpoint
  rw [State.stores_mk, Core.store_mk]
  exact Stores.Keeps.focus h ⟨rfl, fun k => ⟨foldl_wf _ (fun _ _ => Memory.setN_wf) _ k.1, k.2⟩⟩

@[simp] theorem State.restoreArea_keeps {a : Stores} {s : State} (h : a.Keeps s.stores) (v) : a.Keeps (s.restoreArea v).stores := by
  unfold State.restoreArea
  rw [State.stores_mk, Core.store_mk]
  unfold State.areaRegs
  refine Stores.Keeps.focus h ⟨rfl, fun k => ⟨foldl_wf _ (fun _ _ => Memory.setN_wf) _ k.1, foldl_wf _ (fun m g hm => ?_) _ k.2⟩⟩
  refine foldl_wf _ (fun m n hm => ?_) _ hm
  split
  · exact hm
  · exact Memory.setN_wf hm

theorem Core.cleared_keeps (c : Core) : c.store.Keeps c.cleared.store := ⟨rfl, fun _ => ⟨rfl, rfl⟩⟩
theorem Core.zero_canonical (n : Nat) : (Core.zero n).store.canonical := ⟨rfl, rfl⟩

/-- A new core with canonical storage joins the module. -/
theorem Stores.Keeps.append {a : Stores} {x y : Store} {l : List Store} (h : a.Keeps (x, l)) (hy : y.canonical) :
    a.Keeps (x, l ++ [y]) := by
  refine h.trans ⟨rfl, ?_, fun k => ⟨k.1, ?_⟩⟩
  · rw [Stores.nums, Stores.nums, List.map_append, ← List.cons_append]; exact List.subset_append_left _ _
  · simp only [List.mem_append, List.mem_singleton]
    rintro z (hz | rfl)
    · exact k.2 z hz
    · exact hy

@[simp] theorem State.withCore_keeps {a : Stores} {s : State} (h : a.Keeps s.stores) (c) : a.Keeps (s.withCore c).stores := by
  unfold State.withCore
  split
  · exact h
  · rw [State.stores_mk, List.map_append]; exact Stores.Keeps.append h (Core.zero_canonical c)

@[simp] theorem State.resetModule_keeps {a : Stores} {s : State} (h : a.Keeps s.stores) : a.Keeps s.resetModule.stores := by
  unfold State.resetModule
  rw [State.relimit_stores]
  exact State.mapCores_keeps h Core.cleared_keeps

end Sys2Proof.Machine
end

section
/-! ## Slots
What an instruction does is the outcome of its slot: the state that its body leaves, or the state with the slot held or stopped. -/
namespace Sys2Proof.Machine
open Sys2Proof

section
variable {a : Stores} {s : State}

@[simp] theorem settle_keeps (h : a.Keeps s.stores) {body} (hb : a.KeepsOk body) (slot) : a.KeepsNext (settle slot s body) := by
  cases body with
  | ok t => simpa [settle] using hb
  | fault code tok info => simpa [settle] using h
  | hold hs => simpa [settle] using h

@[simp] theorem issue_keeps (h : a.Keeps s.stores) {body} (hb : a.KeepsOk body) (hd slot) : a.KeepsNext (issue hd slot s body) := by
  simp [issue, settle_keeps h hb, h]
@[simp] theorem vissue_keeps (h : a.Keeps s.stores) {body} (hb : a.KeepsOk body) (hd es) : a.KeepsNext (vissue hd es s body) := by
  simp [vissue, settle_keeps h hb, h]

@[simp] theorem cissue_keeps (h : a.Keeps s.stores) {body} (hb : a.KeepsOk body) (i hd specOk) :
    a.KeepsNext (cissue i hd specOk s body) := by
  unfold cissue
  exact issue_keeps h (by simp [hb]) _ _

@[simp] theorem tokenRoom_keeps {r} (hr : a.KeepsOk r) (tok) : a.KeepsOk (tokenRoom s tok r) := by
  simp [tokenRoom, hr]

@[simp] theorem scalarResult_keeps (h : a.Keeps s.stores) (hd lat v dests) : a.KeepsOk (scalarResult hd lat s v dests) := by
  unfold scalarResult; dsimp only; split
  · split <;> simp [h]
  · simp [h]

@[simp] theorem xResult_keeps (h : a.Keeps s.stores) (hd lat d v) : a.KeepsOk (xResult hd lat s d v) := by
  unfold xResult; exact scalarResult_keeps h _ _ _ _
@[simp] theorem cmpResult_keeps (h : a.Keeps s.stores) (i hd ft ff t) : a.KeepsOk (cmpResult i hd s ft ff t) := by
  unfold cmpResult; simp [scalarResult_keeps h]
@[simp] theorem vResult_keeps (h : a.Keeps s.stores) (hd lat da bytes) : a.KeepsOk (vResult hd s lat da bytes) := by
  simp [vResult, h]

@[simp] theorem elementwise_keeps (h : a.Keeps s.stores) (i hd o lat legal readsD unary f) :
    a.KeepsNext (elementwise i hd o lat legal readsD unary s f) := by
  unfold elementwise; dsimp only
  refine vissue_keeps h ?_ _ _
  split
  · simp
  · split <;> simp [h]

@[simp] theorem widening_keeps (h : a.Keeps s.stores) (i hd o mad) : a.KeepsNext (widening i hd o mad s) := by
  unfold widening; dsimp only
  refine vissue_keeps h ?_ _ _
  split <;> simp [h]

@[simp] theorem reduction_keeps (h : a.Keeps s.stores) (i hd o op lat) : a.KeepsNext (reduction i hd o op lat s) := by
  unfold reduction; dsimp only
  refine vissue_keeps h ?_ _ _
  split
  · simp
  · split <;> simp [h]

@[simp] theorem vload_keeps (h : a.Keeps s.stores) {post : State → State} (hp : ∀ u, (post u).stores = u.stores) (i hd o lat es addr slow) :
    a.KeepsOk (vload i hd o lat s es addr slow post) := by
  unfold vload; dsimp only
  split
  · simp
  · split <;> simp [h, hp]

@[simp] theorem vstore_keeps (h : a.Keeps s.stores) {post : State → State} (hp : ∀ u, (post u).stores = u.stores) (i o lat es addr slow) :
    a.KeepsOk (vstore i o lat s es addr slow post) := by
  unfold vstore; dsimp only
  split
  · simp
  · split <;> simp [h, hp]

@[simp] theorem queue_keeps (h : a.Keeps s.stores) (i hd p) : a.KeepsNext (queue i hd s p) := by
  unfold queue
  refine issue_keeps h ?_ _ _
  split
  · simp
  · split
    · simp
    · split
      · simp
      · split <;> simp [h]

@[simp] theorem barIssue_keeps (h : a.Keeps s.stores) {body : State → Host.Outcome State Fault Refusal}
    (hb : ∀ u : State, a.Keeps u.stores → a.KeepsNext (body u)) (i hd o) : a.KeepsNext (barIssue i hd o s body) := by
  unfold barIssue
  split
  · simpa using h
  · split
    · exact settle_keeps h (by simp) _
    · exact hb _ (by simpa using h)

@[simp] theorem busIssue_keeps (h : a.Keeps s.stores) {f : State → State} (hf : ∀ u, (f u).stores = u.stores) (i hd x) :
    a.KeepsNext (busIssue i hd x s f) := by
  unfold busIssue
  exact cissue_keeps h (by simp [hf, h]) _ _ _

@[simp] theorem State.onLink_keeps {t : State} (h : a.Keeps t.stores) (n) : a.KeepsSome (s.onLink n t) := by
  simp [State.onLink, h]

end

end Sys2Proof.Machine
end

section
/-! ## The operations behind instructions and events -/
namespace Sys2Proof.Machine
open Sys2Proof

section
variable {a : Stores} {s : State}

@[simp] theorem State.invalidate_keeps (h : a.Keeps s.stores) (ag line) : a.KeepsSome (s.invalidate ag line) :=
  fun _ ht => by rwa [State.invalidate_stores ht]
@[simp] theorem State.ackFan_keeps (h : a.Keeps s.stores) (ag line) : a.KeepsSome (s.ackFan ag line) :=
  fun _ ht => by rwa [State.ackFan_stores ht]
@[simp] theorem State.fromAgent_keeps (h : a.Keeps s.stores) {r} (hr : a.KeepsSome r) (ag) : a.KeepsSome (s.fromAgent ag r) := by
  simp [State.fromAgent, h, hr]
@[simp] theorem State.waited_keeps (h : a.Keeps s.stores) (who) : a.KeepsSome (s.waited who) := by
  simp [State.waited, h]

@[simp] theorem State.takeCheckpoint_keeps (h : a.Keeps s.stores) (t) : a.Keeps (s.takeCheckpoint t).stores := by
  unfold State.takeCheckpoint; split
  · exact h
  · exact State.putBank_keeps h _

@[simp] theorem State.flipDone_keeps (h : a.Keeps s.stores) : a.Keeps s.flipDone.stores := by
  unfold State.flipDone; split <;> simp [h]

@[simp] theorem State.replayPhase_keeps (h : a.Keeps s.stores) (t) : a.Keeps (s.replayPhase t).stores := by
  have hr := State.restoreCheckpoint_keeps (s := { s with core := s.core.cancelPhase }) (a := a) (by simpa using h) t
  simp [State.replayPhase, hr]

@[simp] theorem State.redispatch_keeps (h : a.Keeps s.stores) (t) : a.Keeps (s.redispatch t).stores := by
  unfold State.redispatch; extract_lets s1 tl src s2 s3 mine kept s4
  have h1 : a.Keeps s1.stores := foldl_keepsStores _ _ h fun u c => State.atCore_keeps (.refl _) fun u => by simp
  have h3 : a.Keeps s3.stores := by unfold s3; split <;> simpa [s2] using h1
  have h4 : a.Keeps s4.stores := by simpa [s4] using h3
  simpa using h4

@[simp] theorem State.recoverRest_keeps (h : a.Keeps s.stores) : a.Keeps s.recoverRest.stores := by
  unfold State.recoverRest; split <;> simp [h]
@[simp] theorem State.recover_keeps (h : a.Keeps s.stores) : a.Keeps s.recover.stores := by
  unfold State.recover; split <;> simp [h]

@[simp] theorem State.performAccess_keeps (h : a.Keeps s.stores) (k) : a.Keeps (s.performAccess k).stores := by
  unfold State.performAccess; dsimp only; split
  · split
    · simpa using h
    · split
      next ht => rwa [State.readRanges_inl ht]
      next hr => simpa [State.readRanges_inr hr] using h
  · split <;> simpa using h
  · split
    · simpa using h
    · split
      next ht => rwa [State.readRanges_inl ht]
      next r hr =>
        rw [State.finish_stores]
        exact Stores.Keeps.focus (by simpa [State.readRanges_inr hr] using h) (Core.setVec_keeps _ _ _)
  · split <;> simpa using h
  all_goals simpa using h

@[simp] theorem State.startRelease_keeps (h : a.Keeps s.stores) (k all) : a.KeepsSome (s.startRelease k all) := by
  simp [State.startRelease, h]
@[simp] theorem State.relCas_keeps (h : a.Keeps s.stores) (k) : a.KeepsSome (s.relCas k) := by
  unfold State.relCas; split <;> simp [h]

@[simp] theorem State.scRelCas_keeps (h : a.Keeps s.stores) (k) : a.KeepsSome (s.scRelCas k) := by
  unfold State.scRelCas; split
  · simp [h]
  · split <;> simp [h]
  · simp [h]

@[simp] theorem State.casRead_keeps (h : a.Keeps s.stores) (k) : a.KeepsSome (s.casRead k) := by
  simp [State.casRead, h]
@[simp] theorem State.accessComplete_keeps (h : a.Keeps s.stores) (k) : a.KeepsSome (s.accessComplete k) := by
  simp [State.accessComplete, h]

@[simp] theorem State.moveRows_keeps (h : a.Keeps s.stores) (k ue born ssp dsp n ps) :
    a.Keeps (State.moveRows k ue born ssp dsp n ps s).2.2.stores := by
  induction ps generalizing s with
  | nil => exact h
  | cons p ps ih =>
    unfold State.moveRows; dsimp only; split
    · simpa using h
    · refine ih ?_
      split
      · exact State.putBank_keeps (by simpa using h) _
      · simpa using h

@[simp] theorem State.performCopy_keeps (h : a.Keeps s.stores) (k ue) : a.Keeps (s.performCopy k ue).stores := by
  unfold State.performCopy; dsimp only
  split
  · simpa using h
  · simpa using h
  · split
    · simpa using h
    · split
      · simpa using h
      · split
        · simpa using h
        · simp [State.moveRows_keeps, h]

@[simp] theorem State.copyPush_keeps (h : a.Keeps s.stores) (k ue) : a.KeepsSome (s.copyPush k ue) := by
  simp [State.copyPush, h]
@[simp] theorem State.deliver_keeps (h : a.Keeps s.stores) (k e) : a.KeepsSome (s.deliver k e) := by
  simp [State.deliver, h]

@[simp] theorem memIssue_keeps (h : a.Keeps s.stores) (i hd o legal ops irrev) : a.KeepsNext (memIssue i hd o legal ops irrev s) := by
  unfold memIssue
  refine cissue_keeps h ?_ _ _ _
  split
  · simp
  · exact tokenRoom_keeps (by simp [h]) _

@[simp] theorem vecIssue_keeps (h : a.Keeps s.stores) (i hd o legal) : a.KeepsNext (vecIssue i hd o legal s) := by
  unfold vecIssue; dsimp only
  split
  · simpa using h
  · refine settle_keeps h ?_ _
    split
    · simp
    · split
      · simp
      · exact tokenRoom_keeps (by simp [h]) _

@[simp] theorem State.barWait_keeps (h : a.Keeps s.stores) (hd lvl) : a.KeepsNext (s.barWait hd lvl) :=
  settle_keeps h (by split <;> simp [h]) _

@[simp] theorem State.barArrive_keeps (h : a.Keeps s.stores) (hd lvl w) : a.KeepsNext (s.barArrive hd lvl w) := by
  unfold State.barArrive; dsimp only
  split
  · split <;> simp [h]
  · split
    · exact settle_keeps h (by simp) _
    · split <;> simp [h]

@[simp] theorem State.busCycle_keeps (h : a.Keeps s.stores) : a.Keeps s.busCycle.stores := by
  unfold State.busCycle; dsimp only
  rw [State.stores_mk, State.stores_eta]
  refine foldl_keepsStores _ _ h fun u b => foldl_keepsStores _ _ (.refl _) fun u l => State.atCore_keeps (.refl _) fun u => ?_
  split <;> simp

@[simp] theorem kissue_keeps (h : a.Keeps s.stores) (i hd o specOk changes ext) : a.KeepsNext (kissue i hd o specOk changes s ext) := by
  unfold kissue; dsimp only
  exact cissue_keeps h (tokenRoom_keeps (by simp [h]) _) _ _ _

@[simp] theorem recordIssue_keeps (h : a.Keeps s.stores) (i hd o n changes) : a.KeepsNext (recordIssue i hd o n changes s) := by
  unfold recordIssue; exact kissue_keeps h _ _ _ _ _ _
@[simp] theorem State.kPut_keeps (h : a.Keeps s.stores) (p bs) : a.Keeps (s.kPut p bs).stores := by
  unfold State.kPut; exact State.putBank_keeps h _
@[simp] theorem State.kRecord_keeps (h : a.Keeps s.stores) (k x status depth probes hi) :
    a.Keeps (s.kRecord k x status depth probes hi).stores := by
  simp [State.kRecord, State.kPut_keeps h]

@[simp] theorem State.doKhash_keeps (h : a.Keeps s.stores) (k) : a.Keeps (s.doKhash k).stores := by
  unfold State.doKhash; dsimp only
  split
  · simp [h]
  · split
    · simp [h]
    · split
      · simp [h]
      · split
        · simp [h]
        · rw [State.finish_stores]; exact State.kPut_keeps (by simp [h]) _ _

@[simp] theorem State.lookDone_keeps (h : a.Keeps s.stores) (k x status d probes coll n) :
    a.Keeps (s.lookDone k x status d probes coll n).stores := State.kRecord_keeps h _ _ _ _ _ _

@[simp] theorem State.lookFound_keeps (h : a.Keeps s.stores) (k ref l r) : a.Keeps (s.lookFound k ref l r).stores := by
  unfold State.lookFound; dsimp only
  split
  · exact State.lookDone_keeps h ..
  · split
    · split
      next ht => exact State.lookDone_keeps (by rwa [State.takeRef_stores ht]) ..
      next => exact State.lookDone_keeps h ..
    · split
      · split
        · exact State.lookDone_keeps h ..
        · split <;> simp [h]
      · exact State.lookDone_keeps (by split <;> simp [h]) ..

@[simp] theorem State.doKlook_keeps (h : a.Keeps s.stores) (k verify ref dom) : a.Keeps (s.doKlook k verify ref dom).stores := by
  unfold State.doKlook; dsimp only
  split
  · simp [h]
  · split
    · exact State.lookFound_keeps h ..
    · split
      · exact State.lookDone_keeps h ..
      · split
        · simp [h]
        · split
          · exact State.lookDone_keeps h ..
          · split
            · simp [h]
            · exact State.lookFound_keeps h ..

@[simp] theorem State.askInfo_keeps (h : a.Keeps s.stores) (k) {gone : State} (hg : a.Keeps gone.stores) :
    a.Keeps (s.askInfo k gone).stores := by
  simp [State.askInfo, h, hg]

@[simp] theorem State.openAt_keeps (h : a.Keeps s.stores) (k p parent name toks) : a.KeepsSome (s.openAt k p parent name toks) := by
  have hr := s.roomFor_stores p (4 * p.nlayer)
  unfold State.openAt; extract_lets w depth carry
  have hc : ∀ n st, a.Keeps (carry n st).stores := fun n st => by
    unfold carry; split
    next ht => simp [State.takeRef_stores ht, h]
    next => simp [h]
  split
  · simp [h]
  · split
    · simp [h]
    · split
      · split
        · exact Stores.keepsSome_some.2 (hc _ _)
        · split
          · exact Stores.keepsSome_some.2 (hc _ _)
          · simp [h]
      · split
        · simp [h]
        · split
          · simp [h]
          · split
            next e => rw [e] at hr; simp [hr, h]
            next e => rw [e] at hr; split <;> simp [hr, h]
            next e =>
              rw [e] at hr
              split
              · simp [hr, h]
              · split <;> simp [hr, h]

@[simp] theorem State.doKopen_keeps (h : a.Keeps s.stores) (k) : a.KeepsSome (s.doKopen k) := by
  unfold State.doKopen; dsimp only
  split
  · simp [h]
  · split
    · simp [h]
    · split
      · simp [h]
      · split
        · simp [h]
        · split
          · split <;> simp [h]
          · split
            · split
              · simp [h]
              · split <;> simp [h]
            · split
              · simp [h]
              · split <;> simp [h]

@[simp] theorem State.kStatus_keeps (h : a.Keeps s.stores) (k st depth hi) : a.Keeps (s.kStatus k st depth hi).stores := by
  simp [State.kStatus, h]
@[simp] theorem State.kStop_keeps (h : a.Keeps s.stores) (k e depth) : a.Keeps (s.kStop k e depth).stores := by
  simp [State.kStop, h]

@[simp] theorem State.sealEnd_keeps (h : a.Keeps s.stores) (k) : a.KeepsSome (s.sealEnd k) := by
  unfold State.sealEnd; dsimp only
  split
  · simp [h]
  · split <;> simp [h]

@[simp] theorem State.doNode_keeps (h : a.Keeps s.stores) (k) : a.KeepsSome (s.doNode k) := by
  unfold State.doNode; dsimp only
  split
  · simp [h]
  · split
    · simp [h]
    · split
      · split
        · simp [h]
        · split
          · split
            · simp [h]
            · split
              · simp [h]
              · split <;> simp [h]
          · split <;> simp [h]
      · split
        · simp [h]
        · split
          · simp
          · split
            · simp [h]
            · split <;> simp [h]

@[simp] theorem State.doKstat_keeps (h : a.Keeps s.stores) (k) : a.Keeps (s.doKstat k).stores := by
  unfold State.doKstat; dsimp only
  split
  · simp [h]
  · split
    · split
      · simp [h]
      · split
        · split <;> simp [h]
        · simp [h]
    · split <;> simp [h]

@[simp] theorem State.kldDeliver_keeps (h : a.Keeps s.stores) (k ext ps ue) : a.Keeps (s.kldDeliver k ext ps ue).stores := by
  unfold State.kldDeliver; dsimp only
  split
  · simp [h]
  · rw [State.finish_stores]
    exact foldl_keepsStores _ _ (by simp [h]) fun u q => State.kPut_keeps (.refl _) _ _

@[simp] theorem State.doKld_keeps (h : a.Keeps s.stores) (k verify) : a.Keeps (s.doKld k verify).stores := by
  unfold State.doKld; dsimp only
  split
  · split
    · split
      · simp [h]
      · split <;> simp [h]
    · split
      · split
        · simp [h]
        · split <;> simp [h]
      · split
        · simp [h]
        · exact State.kldDeliver_keeps h ..
  · split
    · split
      · simp [h]
      · split <;> simp [h]
    · rw [State.releasePins_stores]
      split
      · simp [h]
      · split
        · simp [h]
        · exact State.kldDeliver_keeps (by simp [h]) ..

@[simp] theorem State.startRepl_keeps (h : a.Keeps s.stores) (k i) : a.Keeps (s.startRepl k i).stores := by
  unfold State.startRepl
  split
  · simp [h]
  · split
    · simp [h]
    · split
      · simp [h]
      · split
        · simp [h]
        · split <;> simp [h]

@[simp] theorem State.doKrepl_keeps (h : a.Keeps s.stores) (k) : a.KeepsSome (s.doKrepl k) := by
  simp [State.doKrepl, h]
@[simp] theorem State.beginReplica_keeps (h : a.Keeps s.stores) (k p) : a.KeepsSome (s.beginReplica k p) :=
  fun _ ht => by rwa [State.beginReplica_stores ht]
@[simp] theorem State.nextReplica_keeps (h : a.Keeps s.stores) (k n) : a.Keeps (s.nextReplica k n).stores := by
  simp [State.nextReplica, h]

@[simp] theorem State.moveBlock_keeps (h : a.Keeps s.stores) (k) : a.KeepsSome (s.moveBlock k) := by
  unfold State.moveBlock; dsimp only
  split
  · simp [h]
  · split
    · simp [h]
    · split
      · simp [h]
      · split
        · simp [h]
        · split
          · simp [h]
          · split
            · simp
            · split
              · split <;> simp [h]
              · split <;> simp [h]

@[simp] theorem State.releaseParked_keeps (h : a.Keeps s.stores) : a.Keeps s.releaseParked.stores := by
  unfold State.releaseParked; split <;> simp [h]

@[simp] theorem State.killAsid_keeps (h : a.Keeps s.stores) (x) : a.Keeps (s.killAsid x).stores := by
  unfold State.killAsid; dsimp only
  rw [State.hearthRun_stores, State.regate_stores, State.hostClean_stores]
  exact foldl_keepsStores _ _ (by simp [h]) fun u c => State.atCore_keeps (.refl _) fun u => by simp

@[simp] theorem State.writeReg_keeps (h : a.Keeps s.stores) (off v) : a.Keeps (s.writeReg off v).stores := by
  have hc : a.Keeps ((s.withCore ((off - 0x1000000) / 0x8000)).atCore ((off - 0x1000000) / 0x8000)
      (fun s => s.writeCore (off / 8 % 0x1000) v)).stores :=
    State.atCore_keeps (State.withCore_keeps h _) fun u => by simp
  simp [State.writeReg, h, hc]

@[simp] theorem State.begin_keeps (h : a.Keeps s.stores) : a.Keeps s.begin.stores :=
  Stores.Keeps.focus h s.core.begin_keeps
@[simp] theorem State.endEmpty_keeps (h : a.Keeps s.stores) (flip) : a.Keeps (s.endEmpty flip).stores := by
  simp [State.endEmpty, h]

@[simp] theorem State.commit_keeps (h : a.Keeps s.stores) (t) : a.Keeps (s.commit t).stores := by
  unfold State.commit; split
  · simp [h]
  · dsimp only; rw [State.tick_stores]; split <;> simp [h]

end

end Sys2Proof.Machine
end

section
/-! ## Events that act at a core -/
namespace Sys2Proof.Machine
open Sys2Proof

/-- An event that acts with core `n` in focus and gives the focus back, through a part that keeps the stores: one that may not be
enabled, one that always acts, one that makes a record of the core first. -/
inductive ActsAt (n : Nat) : (State → Host.Outcome State Fault Refusal) → Prop
  | maybe {nm : String} {f : State → Option State} (hf : ∀ u : State, u.stores.KeepsSome (f u)) :
      ActsAt n (fun s => enabledOr nm (s.atCore? n f))
  | always {f : State → State} (hf : ∀ u : State, u.stores.Keeps (f u).stores) : ActsAt n (fun s => .next (s.atCore n f))
  | known {f : State → State} (hf : ∀ u : State, u.stores.Keeps (f u).stores) :
      ActsAt n (fun s => .next ((s.withCore n).atCore n f))

theorem ActsAt.keeps {n e} (he : ActsAt n e) {a : Stores} {s : State} (h : a.Keeps s.stores) : a.KeepsNext (e s) := by
  cases he with
  | maybe hf => simpa using State.atCore?_keeps h hf
  | always hf => simpa using State.atCore_keeps h hf
  | known hf => simpa using State.atCore_keeps (State.withCore_keeps h n) hf

theorem execMatrixReadHoldClear_actsAt (c) : ActsAt c (execMatrixReadHoldClear c) :=
  .maybe fun u => by split <;> simp
theorem execMatrixComplete_actsAt (c) : ActsAt c (execMatrixComplete c) :=
  .maybe fun u => by split <;> simp

theorem execTaskEntry_actsAt (c) : ActsAt c (execTaskEntry c) := .maybe fun u => by
  split
  · simp
  · extract_lets who
    split
    · simp
    · split
      · simp
      · split
        · extract_lets r
          have hr : r.2.stores = u.stores := State.readHeader_stores ..
          split
          · simp [hr]
          · simp [hr]
          · split
            · split <;> simp [hr]
            next v ht =>
              have hv : v.stores = u.stores := (State.fillPages_stores (.inr ht)).trans hr
              simp [hv]
            next v ht =>
              have hv : v.stores = u.stores := (State.fillPages_stores (.inl ht)).trans hr
              split <;> simp [hv]
        · simp

theorem execCoreRetire_actsAt (c) : ActsAt c (execCoreRetire c) := .maybe fun u => by
  split
  · simp
  · split
    · simp
    · extract_lets ls
      split
      · simp
      · split
        · simp
        · rename_i s1 s2 _ _
          have h1 : s1.stores = u.stores := by unfold s1; split <;> simp
          have h2 : s2.stores = u.stores := by simpa [s2] using h1
          split <;> simp [h2]

theorem execMemoryAccessComplete_actsAt (c seq) : ActsAt c (execMemoryAccessComplete c seq) := .maybe fun u => by split <;> simp
theorem execScPerform_actsAt (c seq) : ActsAt c (execScPerform c seq) := .maybe fun u => by split <;> simp
theorem execCopyComplete_actsAt (c o) : ActsAt c (execCopyComplete c o) := .maybe fun u => by split <;> simp
theorem execRetryBackoffExpire_actsAt (c seq) : ActsAt c (execRetryBackoffExpire c seq) := .maybe fun u => by split <;> simp
theorem execWaitaddrPoll_actsAt (c seq) : ActsAt c (execWaitaddrPoll c seq) := .maybe fun u => by split <;> simp
theorem execWaitaddrTimeout_actsAt (c seq) : ActsAt c (execWaitaddrTimeout c seq) := .maybe fun u => by split <;> simp

theorem execLsendDelivered_actsAt (c seq) : ActsAt c (execLsendDelivered c seq) := .maybe fun u => by
  split
  · simp
  · split
    · split
      · simp
      · split
        · simp
        · split
          · simp
          · split
            · simp
            · split <;> simp
    · simp

theorem execReplicaBlockMoved_actsAt (c seq) : ActsAt c (execReplicaBlockMoved c seq) := .maybe fun u => by
  split
  · simp
  · split <;> simp

theorem execCrucibleCommandComplete_actsAt (c seq) : ActsAt c (execCrucibleCommandComplete c seq) := .maybe fun u => by
  split
  · simp
  · split
    · simp
    · split
      · simp
      · split <;> simp

theorem execResultLanding_actsAt (c) : ActsAt c (execResultLanding c) := .maybe fun u => by
  have hl : u.stores.Keeps (u.core.land.store, u.others.map Core.store) := Stores.Keeps.focus (.refl u.stores) u.core.land_keeps
  simp [hl]

theorem execHeldBundleIssue_actsAt (c) : ActsAt c (execHeldBundleIssue c) := .maybe fun u => by simp
theorem execGatherFreezeEnd_actsAt (c) : ActsAt c (execGatherFreezeEnd c) := .maybe fun u => by simp
theorem execBellowsFreezeEnd_actsAt (c) : ActsAt c (execBellowsFreezeEnd c) := .maybe fun u => by simp

theorem execProgramTrapEntry_actsAt (c) : ActsAt c (execProgramTrapEntry c) := .maybe fun u => by
  split
  · simp
  · dsimp only
    generalize hv : (if u.core.front.after = .resume then { u with core := u.core.rejoin } else u : State) = v
    have h : v.stores = u.stores := by rw [← hv]; simp
    split <;> simp [h]

theorem execEretResume_actsAt (c) : ActsAt c (execEretResume c) := .maybe fun u => by simp
theorem execCctlPhase_actsAt (c) : ActsAt c (execCctlPhase c) := .known fun u => by simp
theorem execCctlForce_actsAt (c) : ActsAt c (execCctlForce c) := .always fun u => by simp
theorem execCctlCancel_actsAt (c) : ActsAt c (execCctlCancel c) := .always fun u => by simp
theorem execCctlResume_actsAt (c) : ActsAt c (execCctlResume c) := .always fun u => by simp
theorem execCctlEnd_actsAt (c) : ActsAt c (execCctlEnd c) := .always fun u => by simp
theorem execTokclr_actsAt (c mask) : ActsAt c (execTokclr c mask) := .always fun u => by simp
theorem execXlrespRetry_actsAt (c unit) : ActsAt c (execXlrespRetry c unit) := .always fun u => by split <;> simp
theorem execXlrespRefuse_actsAt (c unit) : ActsAt c (execXlrespRefuse c unit) := .always fun u => by split <;> simp
theorem execContextSaveDone_actsAt (c) : ActsAt c (execContextSaveDone c) := .maybe fun u => by split <;> simp
theorem execContextRestore_actsAt (c) : ActsAt c (execContextRestore c) := .maybe fun u => by simp

theorem execContextRestoreDone_actsAt (c) : ActsAt c (execContextRestoreDone c) := .maybe fun u => by
  split
  · simp
  · extract_lets who
    split
    · simp
    · rename_i t slabs fin _
      have hfin : ∀ w : State, u.stores.Keeps w.stores → u.stores.Keeps (fin w).stores := fun w hw => by simp [fin, hw]
      split
      · simp [hfin]
      next v ht =>
        have hv : v.stores = u.stores := State.refill_stores (.inr ht)
        simp [hv]
      next v ht =>
        have hv : v.stores = u.stores := State.refill_stores (.inl ht)
        simp [hfin, hv]

end Sys2Proof.Machine
end

section
/-! ## Instructions and events
Those whose proof splits along their own branches; `exec_keeps` puts every instruction and event together. -/
namespace Sys2Proof.Machine
open Sys2Proof

section
variable {z : Stores} {s : State}

@[simp] theorem execVbcast_keeps (hs : z.Keeps s.stores) (h o) : z.KeepsNext (execVbcast h o s) := by
  unfold execVbcast
  refine vissue_keeps hs ?_ _ _
  split
  · simp
  · split
    · simp [hs]
    · split
      · simp
      · split <;> simp [hs]

@[simp] theorem execBflip_keeps (hs : z.Keeps s.stores) (h) : z.KeepsNext (execBflip h s) := by
  unfold execBflip
  refine issue_keeps hs ?_ _ _
  split
  · simp
  · split <;> simp [hs]

@[simp] theorem execHostSnoopResponse_keeps (hs : z.Keeps s.stores) (line) : z.KeepsNext (execHostSnoopResponse line s) := by
  unfold execHostSnoopResponse
  rw [Stores.keepsNext_enabledOr]
  split
  · simp
  · split <;> simp [hs]

@[simp] theorem execHostCxlMemWrite_keeps (hs : z.Keeps s.stores) (x bytes) : z.KeepsNext (execHostCxlMemWrite x bytes s) := by
  unfold execHostCxlMemWrite
  rw [Stores.keepsNext_enabledOr]
  cases s.inHdm x.port x.addr bytes.length <;> simp [hs]

@[simp] theorem execSealComplete_keeps (hs : z.Keeps s.stores) (slot) : z.KeepsNext (execSealComplete slot s) := by
  unfold execSealComplete
  rw [Stores.keepsNext_enabledOr]
  split
  · simp
  · extract_lets parentOk
    split
    · simp
    · split
      · simp
      · extract_lets s1
        have h1 : s1.stores = s.stores := by simp [s1]
        split <;> simp [h1, hs]

@[simp] theorem execTailWordChange_keeps (hs : z.Keeps s.stores) (q) : z.KeepsNext (execTailWordChange q s) := by
  unfold execTailWordChange
  rw [Stores.keepsNext_enabledOr]
  dsimp only
  split
  · simp
  · split
    · simp [hs]
    · split <;> simp [hs]

@[simp] theorem execLaunchRecord_keeps (hs : z.Keeps s.stores) (q) : z.KeepsNext (execLaunchRecord q s) := by
  unfold execLaunchRecord
  rw [Stores.keepsNext_enabledOr]
  dsimp only
  split
  · simp
  · split <;> simp [hs]

@[simp] theorem execBar_keeps (hs : z.Keeps s.stores) (h o) : z.KeepsNext (execBar h o s) := by
  unfold execBar; exact barIssue_keeps hs (fun u hu => State.barArrive_keeps hu _ _ _) _ _ _
@[simp] theorem execBara_keeps (hs : z.Keeps s.stores) (h o) : z.KeepsNext (execBara h o s) := by
  unfold execBara; exact barIssue_keeps hs (fun u hu => State.barArrive_keeps hu _ _ _) _ _ _
@[simp] theorem execBarw_keeps (hs : z.Keeps s.stores) (h o) : z.KeepsNext (execBarw h o s) := by
  unfold execBarw; exact barIssue_keeps hs (fun u hu => State.barWait_keeps hu _ _) _ _ _

@[simp] theorem execSstep_keeps (hs : z.Keeps s.stores) (h o) : z.KeepsNext (execSstep h o s) := by
  unfold execSstep
  exact barIssue_keeps hs (fun u hu => by simp [hu]) _ _ _

@[simp] theorem execLrecv_keeps (hs : z.Keeps s.stores) (h o) : z.KeepsNext (execLrecv h o s) := by
  unfold execLrecv; dsimp only
  refine cissue_keeps hs ?_ _ _ _
  split
  · simp
  · split
    · simp
    · split
      · simp
      · split
        · simp
        · split
          · simp
          · split <;> simp [hs]

@[simp] theorem execUeDetected_keeps (hs : z.Keeps s.stores) (c bank unit kind addr) :
    z.KeepsNext (execUeDetected c bank unit kind addr s) := by
  unfold execUeDetected
  rw [Stores.keepsNext_enabledOr]
  split
  · simp
  · extract_lets s1
    split
    · simp
    · exact Stores.keepsSome_some.2 (State.atCore_keeps (by simp [s1, hs]) fun u => by simp)

@[simp] theorem execStackRemoval_keeps (hs : z.Keeps s.stores) (stk) : z.KeepsNext (execStackRemoval stk s) := by
  unfold execStackRemoval
  rw [Stores.keepsNext_enabledOr]
  split
  · simp
  · extract_lets gone st s1 mem s2 s3 s4
    have h3 : z.Keeps s3.stores := by simp [s3, s2, s1, hs]
    have h4 : z.Keeps s4.stores := foldl_keepsStores _ _ h3 fun u c => State.atCore_keeps (.refl _) fun u => by
      dsimp only; split <;> simp
    simp [h4]

theorem bindCore_canonical (now c st w) : (bindCore now c st w).store.canonical := ⟨rfl, rfl⟩

theorem State.writeCbind_keeps (hs : z.Keeps s.stores) (stk f v) : z.Keeps (s.writeCbind stk f v).stores := by
  have hn : ((s.coreOf stk f).getD (Core.zero (stk * 112 + f))).cnum = stk * 112 + f := by
    unfold State.coreOf
    cases hf : s.cores.find? (fun c => c.cnum == stk * 112 + f) with
    | none => rfl
    | some k => simpa using List.find?_some hf
  unfold State.writeCbind; dsimp only
  split
  · rw [State.hearthRun_stores, State.stores_ite, Stores.keeps_ite]
    split
    · exact State.atCore_keeps (by simp [hs]) fun u => by simp
    · simp [hs]
  · split
    · simp [hs]
    · split
      · simp [hs]
      · rw [State.hearthRun_stores]
        split
        · refine State.mapCores_keeps (by simp [hs]) fun k => ?_
          split
          next hk => exact ⟨hn.trans hk.symm, fun _ => bindCore_canonical ..⟩
          next => exact .refl _
        · rw [State.stores_mk, List.map_append]
          exact Stores.Keeps.append (by simp [hs]) (bindCore_canonical ..)

@[simp] theorem execCbindWrite_keeps (hs : z.Keeps s.stores) (stk f v) : z.KeepsNext (execCbindWrite stk f v s) := by
  simp [execCbindWrite, State.writeCbind_keeps hs]

@[simp] theorem execWsLoadDone_keeps (hs : z.Keeps s.stores) (stk ue) : z.KeepsNext (execWsLoadDone stk ue s) := by
  unfold execWsLoadDone
  rw [Stores.keepsNext_enabledOr]
  extract_lets st
  split
  · simp
  · split
    · simp [hs]
    next he => simp [State.engineRead_stores he, hs]

@[simp] theorem execMemoryRequestMsg_keeps (hs : z.Keeps s.stores) (n) : z.KeepsNext (execMemoryRequestMsg n s) := by
  unfold execMemoryRequestMsg
  rw [Stores.keepsNext_enabledOr]
  extract_lets l
  split
  · simp [hs]
  · split
    · simp
    · split
      · simp
      next hm => simp [State.serveMem_stores hm, hs]

theorem State.unpower_canonical (s : State) : s.unpower.stores.canonical := ⟨Core.zero_canonical 0, by simp [State.unpower, State.reset]⟩

end

section
variable {z : Stores} {s : State}

@[simp] theorem execLdsp_keeps (hs : z.Keeps s.stores) (h o) : z.KeepsNext (execLdsp h o s) := by
  unfold execLdsp; split <;> simp [hs]
@[simp] theorem execStsp_keeps (hs : z.Keeps s.stores) (h o) : z.KeepsNext (execStsp h o s) := by
  unfold execStsp; split <;> simp [hs]
@[simp] theorem execBrm_keeps (hs : z.Keeps s.stores) (h o lit) : z.KeepsNext (execBrm h o lit s) := by
  unfold execBrm; split <;> simp [hs]

@[simp] theorem execWait_keeps (hs : z.Keeps s.stores) (h o) : z.KeepsNext (execWait h o s) := by
  unfold execWait; dsimp only
  split
  · split <;> simp [hs]
  · simp [hs]

@[simp] theorem execMvfc_keeps (hs : z.Keeps s.stores) (h o) : z.KeepsNext (execMvfc h o s) := by
  unfold execMvfc; dsimp only
  split
  · simp [hs]
  · split <;> simp [hs]

@[simp] theorem execVsat_keeps (hs : z.Keeps s.stores) (h o) : z.KeepsNext (execVsat h o s) := by
  unfold execVsat; extract_lets c b hb per dests es body
  have hb : z.KeepsOk body := by unfold body; split <;> simp [hs]
  split
  · simp [hs]
  · exact vissue_keeps hs hb _ _

@[simp] theorem execVcvt_keeps (hs : z.Keeps s.stores) (h o) : z.KeepsNext (execVcvt h o s) := by
  unfold execVcvt; extract_lets
  split
  · simp [hs]
  · refine vissue_keeps hs ?_ _ _
    split <;> simp [hs]

@[simp] theorem execVcmp_keeps (hs : z.Keeps s.stores) (h o) : z.KeepsNext (execVcmp h o s) := by
  unfold execVcmp; dsimp only
  split
  · simp [hs]
  · split <;> simp [hs]

@[simp] theorem execVpset_keeps (hs : z.Keeps s.stores) (h o) : z.KeepsNext (execVpset h o s) := by
  unfold execVpset; dsimp only; split <;> simp [hs]

@[simp] theorem execVscan_keeps (hs : z.Keeps s.stores) (h o) : z.KeepsNext (execVscan h o s) := by
  unfold execVscan; dsimp only
  split
  · simp [hs]
  · split <;> simp [hs]

@[simp] theorem execVperm_keeps (hs : z.Keeps s.stores) (h o) : z.KeepsNext (execVperm h o s) := by
  unfold execVperm; dsimp only; split <;> simp [hs]
@[simp] theorem execVslide_keeps (hs : z.Keeps s.stores) (h o) : z.KeepsNext (execVslide h o s) := by
  unfold execVslide; dsimp only; split <;> simp [hs]

@[simp] theorem execViota_keeps (hs : z.Keeps s.stores) (h o) : z.KeepsNext (execViota h o s) := by
  unfold execViota; dsimp only
  split
  · simp [hs]
  · split <;> simp [hs]

@[simp] theorem execVmovi_keeps (hs : z.Keeps s.stores) (h o) : z.KeepsNext (execVmovi h o s) := by
  unfold execVmovi; dsimp only
  split
  · simp [hs]
  · split <;> simp [hs]

@[simp] theorem execVgetl_keeps (hs : z.Keeps s.stores) (h o) : z.KeepsNext (execVgetl h o s) := by
  unfold execVgetl; dsimp only
  split
  · simp [hs]
  · refine vissue_keeps hs ?_ _ _
    split <;> simp [hs]

@[simp] theorem execVputl_keeps (hs : z.Keeps s.stores) (h o) : z.KeepsNext (execVputl h o s) := by
  unfold execVputl; dsimp only
  split
  · simp [hs]
  · refine vissue_keeps hs ?_ _ _
    split <;> simp [hs]

@[simp] theorem execVgather_keeps (hs : z.Keeps s.stores) (h o) : z.KeepsNext (execVgather h o s) := by
  unfold execVgather; split <;> simp [hs]
@[simp] theorem execVscatter_keeps (hs : z.Keeps s.stores) (h o) : z.KeepsNext (execVscatter h o s) := by
  unfold execVscatter; split <;> simp [hs]

@[simp] theorem execVcmpt_keeps (hs : z.Keeps s.stores) (h o) : z.KeepsNext (execVcmpt h o s) := by
  unfold execVcmpt; dsimp only
  split
  · split
    · simp [hs]
    · split <;> simp [hs]
  · simp [hs]

@[simp] theorem execLsend_keeps (hs : z.Keeps s.stores) (h o) : z.KeepsNext (execLsend h o s) := by
  unfold execLsend; dsimp only
  split
  · simp [hs]
  · split
    · simp [hs]
    · split <;> simp [hs]

@[simp] theorem execUnplaceableReport_keeps (hs : z.Keeps s.stores) (serial) : z.KeepsNext (execUnplaceableReport serial s) := by
  unfold execUnplaceableReport; split <;> simp [hs]
@[simp] theorem execCheckIn_keeps (hs : z.Keeps s.stores) (agent line) : z.KeepsNext (execCheckIn agent line s) := by
  unfold execCheckIn; split <;> simp [hs]
@[simp] theorem execSilentDrop_keeps (hs : z.Keeps s.stores) (agent line) : z.KeepsNext (execSilentDrop agent line s) := by
  unfold execSilentDrop; split <;> simp [hs]
@[simp] theorem execHostCxlMemRead_keeps (hs : z.Keeps s.stores) (a len) : z.KeepsNext (execHostCxlMemRead a len s) := by
  unfold execHostCxlMemRead; split <;> simp [hs]
@[simp] theorem execCxlMemHeldTimeout_keeps (hs : z.Keeps s.stores) (idx) : z.KeepsNext (execCxlMemHeldTimeout idx s) := by
  unfold execCxlMemHeldTimeout; split <;> simp [hs]
@[simp] theorem execDemoteComplete_keeps (hs : z.Keeps s.stores) (slot) : z.KeepsNext (execDemoteComplete slot s) := by
  unfold execDemoteComplete; split <;> simp [hs]
@[simp] theorem execLeaseExpire_keeps (hs : z.Keeps s.stores) (slot) : z.KeepsNext (execLeaseExpire slot s) := by
  unfold execLeaseExpire; split <;> simp [hs]
@[simp] theorem execFrameMigrateDone_keeps (hs : z.Keeps s.stores) : z.KeepsNext (execFrameMigrateDone s) := by
  unfold execFrameMigrateDone; split <;> simp [hs]

@[simp] theorem execFrameReleaseRemap_keeps (hs : z.Keeps s.stores) : z.KeepsNext (execFrameReleaseRemap s) := by
  unfold execFrameReleaseRemap; dsimp only
  split
  · simp [hs]
  · split <;> simp [hs]

@[simp] theorem execRoleDrainDone_keeps (hs : z.Keeps s.stores) (stk k) : z.KeepsNext (execRoleDrainDone stk k s) := by
  unfold execRoleDrainDone; split <;> simp [hs]
@[simp] theorem execLimiterWrite_keeps (hs : z.Keeps s.stores) (off v) : z.KeepsNext (execLimiterWrite off v s) := by
  unfold execLimiterWrite; split <;> simp [hs]
@[simp] theorem execRouteSwitch_keeps (hs : z.Keeps s.stores) (d) : z.KeepsNext (execRouteSwitch d s) := by
  unfold execRouteSwitch; split <;> simp [hs]
@[simp] theorem execResponseMsg_keeps (hs : z.Keeps s.stores) (n) : z.KeepsNext (execResponseMsg n s) := by
  unfold execResponseMsg; split <;> simp [hs]

@[simp] theorem execLinkMessageMsg_keeps (hs : z.Keeps s.stores) (n) : z.KeepsNext (execLinkMessageMsg n s) := by
  unfold execLinkMessageMsg; dsimp only
  split
  · simp [hs]
  · split <;> simp [hs]

@[simp] theorem execBarrierMsg_keeps (hs : z.Keeps s.stores) (n) : z.KeepsNext (execBarrierMsg n s) := by
  unfold execBarrierMsg; dsimp only; split <;> simp [hs]
@[simp] theorem execNodeDirectoryMsg_keeps (hs : z.Keeps s.stores) (n) : z.KeepsNext (execNodeDirectoryMsg n s) := by
  unfold execNodeDirectoryMsg; split <;> simp [hs]
@[simp] theorem execTimeBaseMsg_keeps (hs : z.Keeps s.stores) (n) : z.KeepsNext (execTimeBaseMsg n s) := by
  unfold execTimeBaseMsg; split <;> simp [hs]
@[simp] theorem execManagementMsg_keeps (hs : z.Keeps s.stores) (n) : z.KeepsNext (execManagementMsg n s) := by
  unfold execManagementMsg; split <;> simp [hs]
@[simp] theorem execSecurityFloorAdvance_keeps (hs : z.Keeps s.stores) : z.KeepsNext (execSecurityFloorAdvance s) := by
  unfold execSecurityFloorAdvance; split <;> simp [hs]
@[simp] theorem execSpdmGetMeasurements_keeps (hs : z.Keeps s.stores) (idx) : z.KeepsNext (execSpdmGetMeasurements idx s) := by
  unfold execSpdmGetMeasurements; split <;> simp [hs]

/-- Every event that names a core acts in its focus. -/
theorem eventCore_actsAt {i : Instr} {n : Nat} (h : eventCore i = some n) : ActsAt n (exec i) := by
  cases i <;> cases h
  case resultLanding => exact execResultLanding_actsAt n
  case heldBundleIssue => exact execHeldBundleIssue_actsAt n
  case gatherFreezeEnd => exact execGatherFreezeEnd_actsAt n
  case bellowsFreezeEnd => exact execBellowsFreezeEnd_actsAt n
  case programTrapEntry => exact execProgramTrapEntry_actsAt n
  case eretResume => exact execEretResume_actsAt n
  case matrixReadHoldClear => exact execMatrixReadHoldClear_actsAt n
  case matrixComplete => exact execMatrixComplete_actsAt n
  case copyComplete _ => exact execCopyComplete_actsAt n _
  case memoryAccessComplete _ => exact execMemoryAccessComplete_actsAt n _
  case crucibleCommandComplete _ => exact execCrucibleCommandComplete_actsAt n _
  case lsendDelivered _ => exact execLsendDelivered_actsAt n _
  case waitaddrPoll _ => exact execWaitaddrPoll_actsAt n _
  case waitaddrTimeout _ => exact execWaitaddrTimeout_actsAt n _
  case retryBackoffExpire _ => exact execRetryBackoffExpire_actsAt n _
  case taskEntry => exact execTaskEntry_actsAt n
  case coreRetire => exact execCoreRetire_actsAt n
  case scPerform _ => exact execScPerform_actsAt n _
  case replicaBlockMoved _ => exact execReplicaBlockMoved_actsAt n _
  case cctlPhase => exact execCctlPhase_actsAt n
  case cctlForce => exact execCctlForce_actsAt n
  case cctlResume => exact execCctlResume_actsAt n
  case cctlEnd => exact execCctlEnd_actsAt n
  case cctlCancel => exact execCctlCancel_actsAt n
  case contextSaveDone => exact execContextSaveDone_actsAt n
  case contextRestore => exact execContextRestore_actsAt n
  case contextRestoreDone => exact execContextRestoreDone_actsAt n
  case tokclr _ => exact execTokclr_actsAt n _
  case xlrespRetry _ => exact execXlrespRetry_actsAt n _
  case xlrespRefuse _ => exact execXlrespRefuse_actsAt n _

/-- Every instruction and event keeps the stores, but those that cut the power. -/
theorem exec_keeps (hs : z.Keeps s.stores) {i : Instr} (hp : i ≠ .powerRemoval) (ht : ∀ die, i ≠ .thermalShutdown die) :
    z.KeepsNext (exec i s) := by
  cases i
  case nop | add | addi | sub | mul | mulh | mulhz | div | divz | rem | remz | and | or | xor | andn | andi | ori | xori | shl |
  shr | shra | shli | shri | shrai | rot | clz | popc | min | max | minz | maxz | mov | movi | ext | ins | lea | sext | cmp |
  cmpi | tbit | pset | pget | pput | cmpt | br | jmp | call | ret | brloop | endTask | fmt | view | mvtc | lock | unlock | specx |
  trap | eret | tick =>
    simp [exec, execNop, execAdd, execAddi, execSub, execMul, execMulh, execMulhz, execDiv, execDivz, execRem, execRemz, execAnd,
    execOr, execXor, execAndn, execAndi, execOri, execXori, execShl, execShr, execShra, execShli, execShri, execShrai, execRot,
    execClz, execPopc, execMin, execMax, execMinz, execMaxz, execMov, execMovi, execExt, execIns, execLea, execSext, execCmp,
    execCmpi, execTbit, execPset, execPget, execPput, execCmpt, execBr, execJmp, execCall, execRet, execBrloop, execEndTask,
    execFmt, execView, execMvtc, execLock, execUnlock, execSpecx, execTrap, execEret, execTick, hs]
  case vnop | vadd | vsub | vmul | vmad | vmin | vmax | vabs | vneg | vand | vor | vxor | vshl | vshr | vshra | vclz | vpopc |
  vwadd | vwmad | vrcp | vrsq | vexp2 | vlog2 | vpcnt | vpany | vrsum | vrmax | vrmin | vmov | vld | vst | vlds | vsts =>
    simp [exec, execVnop, execVadd, execVsub, execVmul, execVmad, execVmin, execVmax, execVabs, execVneg, execVand, execVor,
    execVxor, execVshl, execVshr, execVshra, execVclz, execVpopc, execVwadd, execVwmad, execVrcp, execVrsq, execVexp2, execVlog2,
    execVpcnt, execVpany, execVrsum, execVrmax, execVrmin, execVmov, execVld, execVst, execVlds, execVsts, hs]
  case mnop | mld | mst | mzero | mma | mmas | mnorm | mout | mcvt | mtrn | mfac | lrmul | lradd | mtemper | mdense | lrmma | mrank =>
    simp [exec, execMnop, execMld, execMst, execMzero, execMma, execMmas, execMnorm, execMout, execMcvt, execMtrn, execMfac,
    execLrmul, execLradd, execMtemper, execMdense, execLrmma, execMrank, hs]
  case cnop | cpy | cpyr | radv | ldg | stg | vldg | vstg | amo | cas | fence | waitaddr | bind | unbind | bcast | latch | khash |
  klook | kopen | kwr | kseal | klease | kref | kunref | kld | krepl | kstat | kdrop =>
    simp [exec, execCnop, execCpy, execCpyr, execRadv, execLdg, execStg, execVldg, execVstg, execAmo, execCas, execFence,
    execWaitaddr, execBind, execUnbind, execBcast, execLatch, execKhash, execKlook, execKopen, execKwr, execKseal, execKlease,
    execKref, execKunref, execKld, execKrepl, execKstat, execKdrop, hs]
  case wsRefreshWindowEnd | ageBoundary | readMiss | checkOut | invalidation | invalidationAck | moduleRemoval | hostSnoop |
  hdmDecoderCommit | storeTick | ceDetected | errorBankClear | evheadWrite | kill | killDone | frameMigrate | moduleReset |
  fwauthDone | meminitDone | mstateGo | hcfgWrite | shootdown | shootdownDone | ovlinvByIdent | ovlinvByAsid | ovlinvAll |
  nsCreate | nsDestroy | nsRights | zadmit | lqEnable | lqDisable | lqRestart | slabEntryWrite | bankRoleWrite | wsLoad |
  crmarkWrite | hlccfgWrite | thermalCapTick | linkEnable | linkTrained | routeWrite | registerWrite | dataFlit | linkNak |
  linkPause | linkResume | linkCpause | linkCresume | linkIdle | nakRepeat | pauseRepeat | resumeRepeat | pldmFirmwareUpdate |
  spdmNegotiateAlgorithms | spdmGetCertificate | spdmChallenge | powerUp | cxlLinkDown =>
    simp [exec, execWsRefreshWindowEnd, execAgeBoundary, execReadMiss, execCheckOut, execInvalidation, execInvalidationAck,
    execModuleRemoval, execHostSnoop, execHdmDecoderCommit, execStoreTick, execCeDetected, execErrorBankClear, execEvheadWrite,
    execKill, execKillDone, execFrameMigrate, execModuleReset, execFwauthDone, execMeminitDone, execMstateGo, execHcfgWrite,
    execShootdown, execShootdownDone, execOvlinvByIdent, execOvlinvByAsid, execOvlinvAll, execNsCreate, execNsDestroy,
    execNsRights, execZadmit, execLqEnable, execLqDisable, execLqRestart, execSlabEntryWrite, execBankRoleWrite, execWsLoad,
    execCrmarkWrite, execHlccfgWrite, execThermalCapTick, execLinkEnable, execLinkTrained, execRouteWrite, execRegisterWrite,
    execDataFlit, execLinkNak, execLinkPause, execLinkResume, execLinkCpause, execLinkCresume, execLinkIdle, execNakRepeat,
    execPauseRepeat, execResumeRepeat, execPldmFirmwareUpdate, execSpdmNegotiateAlgorithms, execSpdmGetCertificate,
    execSpdmChallenge, execPowerUp, execCxlLinkDown, hs]
  case ldsp | stsp | brm | wait | mvfc | bflip | vsat | vcvt | vcmp | vpset | vscan | vperm | vbcast | vslide | viota | vmovi |
  vgetl | vputl | vgather | vscatter | vcmpt | bar | bara | barw | sstep | lsend | lrecv | tailWordChange | launchRecord |
  unplaceableReport | checkIn | silentDrop | stackRemoval | hostSnoopResponse | hostCxlMemWrite | hostCxlMemRead |
  cxlMemHeldTimeout | sealComplete | demoteComplete | leaseExpire | ueDetected | frameMigrateDone | frameReleaseRemap |
  cbindWrite | roleDrainDone | wsLoadDone | limiterWrite | routeSwitch | memoryRequestMsg | responseMsg | linkMessageMsg |
  barrierMsg | nodeDirectoryMsg | timeBaseMsg | managementMsg | securityFloorAdvance | spdmGetMeasurements => simp [exec, hs]
  case resultLanding | heldBundleIssue | gatherFreezeEnd | bellowsFreezeEnd | programTrapEntry | eretResume | matrixReadHoldClear |
  matrixComplete | copyComplete | memoryAccessComplete | crucibleCommandComplete | lsendDelivered | waitaddrPoll |
  waitaddrTimeout | retryBackoffExpire | taskEntry | coreRetire | scPerform | replicaBlockMoved | cctlPhase | cctlForce |
  cctlResume | cctlEnd | cctlCancel | contextSaveDone | contextRestore | contextRestoreDone | tokclr | xlrespRetry | xlrespRefuse =>
    exact (eventCore_actsAt rfl).keeps hs
  case powerRemoval => exact absurd rfl hp
  case thermalShutdown => exact absurd rfl (ht _)

end

end Sys2Proof.Machine
end

section
/-! ## One step keeps the canonical form -/
namespace Sys2Proof.Machine
open Sys2Proof

theorem execThermalShutdown_canonical {s t : State} {die : BitVec 16} (h : execThermalShutdown die s = .next t) : t.stores.canonical := by
  unfold execThermalShutdown at h
  split at h
  · cases h
  · cases h; exact s.unpower_canonical

/-- Every instruction and event keeps the storage of every core in canonical form; what cuts the power leaves empty storage. -/
theorem exec_canonical {s t : State} {i : Instr} (h : exec i s = .next t) (hs : s.stores.canonical) : t.stores.canonical := by
  by_cases hp : i = .powerRemoval
  · subst hp
    cases h
    exact s.unpower_canonical
  by_cases ht : ∃ die, i = .thermalShutdown die
  · obtain ⟨die, rfl⟩ := ht
    exact execThermalShutdown_canonical h
  · exact (exec_keeps (.refl _) hp (fun die e => ht ⟨die, e⟩) t h).canonical hs

theorem foldl_canonical {β : Type} {g : State → β → State}
    (hg : ∀ (u : State) b, u.stores.canonical → (g u b).stores.canonical) (l : List β)
    {s : State} (hs : s.stores.canonical) : (l.foldl g s).stores.canonical :=
  List.foldlRecOn l g hs fun u hu b _ => hg u b hu

theorem State.focus_getD_canonical {s : State} (hs : s.stores.canonical) (c : Nat) : ((s.focus c).getD s).stores.canonical := by
  cases h : s.focus c with
  | none => exact hs
  | some t => exact State.focus_canonical h hs

theorem State.atCore_canonical {s : State} (hs : s.stores.canonical) {f : State → State}
    (hf : ∀ u : State, u.stores.canonical → (f u).stores.canonical) (c : Nat) : (s.atCore c f).stores.canonical := by
  unfold State.atCore
  split
  · exact hs
  next hc => exact State.focus_getD_canonical (hf _ (State.focus_canonical hc hs)) _

theorem State.atEach_canonical {s : State} (hs : s.stores.canonical) {f : State → State}
    (hf : ∀ u : State, u.stores.canonical → (f u).stores.canonical) (ms : List Nat) : (s.atEach ms f).stores.canonical :=
  foldl_canonical (fun _ m hu => State.atCore_canonical hu hf m) ms hs

theorem Trial.slot_canonical {t : Trial} (ht : t.st.stores.canonical) (i : Instr) : (t.slot i).st.stores.canonical := by
  unfold Trial.slot
  split
  next hi =>
    have hs := exec_canonical hi ht
    split
    · exact hs
    · simpa using hs
    · exact ht
  · exact ht

theorem Trial.slots_canonical (is : List Instr) {t : Trial} (ht : t.st.stores.canonical) : (is.foldl Trial.slot t).st.stores.canonical :=
  List.foldlRecOn (motive := fun t : Trial => t.st.stores.canonical) is Trial.slot ht fun _ hu i _ => Trial.slot_canonical hu i
theorem State.begin_canonical {s : State} (hs : s.stores.canonical) : s.begin.stores.canonical :=
  (State.begin_keeps (.refl _)).canonical hs

theorem State.present_canonical {s : State} (hs : s.stores.canonical) : s.present.st.stores.canonical := by
  have hb := State.begin_canonical hs
  unfold State.present; dsimp only
  split
  · exact hb
  · split
    · exact hb
    · split
      · exact hb
      · exact hb
      · exact Trial.slots_canonical _ (by simpa using hb)

theorem State.trials_canonical (ms : List Nat) {s : State} (hs : s.stores.canonical) : (State.trials ms s).1.stores.canonical := by
  induction ms generalizing s with
  | nil => exact hs
  | cons m ms ih =>
    unfold State.trials
    split
    · exact ih hs
    next hf => exact ih (State.present_canonical (State.focus_canonical hf hs))

theorem State.keepArrivals_canonical {s b : State} (hs : s.stores.canonical) (hb : b.stores.canonical) :
    (s.keepArrivals b).stores.canonical :=
  ⟨hs.1, hb.2⟩

theorem State.hold_canonical {s : State} (hs : s.stores.canonical) (t : Trial) : (s.hold t).stores.canonical := by
  have hb := State.begin_canonical hs
  unfold State.hold
  extract_lets s1
  have h1 : s1.stores.canonical := by
    unfold s1
    split
    · exact State.keepArrivals_canonical hs (Trial.slots_canonical _ (by simpa using hb))
    · exact hs
  exact h1

theorem State.commit_canonical {s : State} (hs : s.stores.canonical) (t : Trial) : (s.commit t).stores.canonical :=
  (State.commit_keeps (.refl _) t).canonical hs

theorem State.issueSet_canonical {s : State} (hs : s.stores.canonical) (ms gs : List Nat) : (s.issueSet ms gs).stores.canonical := by
  have hr := State.trials_canonical ms hs
  have heach {u : State} (hu : u.stores.canonical) {f : State → State} (hf : ∀ v : State, (f v).stores = v.stores) (l : List Nat) :
      (u.atEach l f).stores.canonical := State.atEach_canonical hu (fun v hv => by rwa [hf]) l
  unfold State.issueSet
  extract_lets r
  split
  · refine heach (foldl_canonical (fun u e hu => State.atCore_canonical hu (fun v hv => State.hold_canonical hv _) _) _ hs) (fun v => ?_) _
    simp
  · split
    · refine heach (foldl_canonical (fun u e hu => ?_) _ hs) (fun v => ?_) _
      · split
        · exact State.atCore_canonical hu (fun v hv => by simpa using hv) _
        · exact hu
      · simp
    · split
      · refine heach (State.atEach_canonical hs (fun v hv => (State.recoverRest_keeps (.refl _)).canonical hv) _) (fun v => ?_) _
        simp
      · rename_i s1 s2 _ _ _
        have h1 : s1.stores.canonical :=
          foldl_canonical (fun u e hu => State.atCore_canonical hu (fun v hv => State.commit_canonical hv _) _) _
            ((State.busCycle_keeps (.refl _)).canonical hr)
        have h2 : s2.stores.canonical := by
          unfold s2; split
          · exact heach h1 (fun v => by split <;> simp) _
          · exact h1
        split
        · exact heach h2 (fun v => by split <;> simp) _
        · exact h2

theorem State.turn_canonical {s : State} (hs : s.stores.canonical) (ms gs : List Nat) : (s.turn ms gs).stores.canonical := by
  unfold State.turn
  dsimp only
  split
  · exact State.atEach_canonical hs (fun v hv => by simpa using hv) _
  · exact State.issueSet_canonical hs _ _

theorem State.period_canonical {s : State} (hs : s.stores.canonical) : s.period.stores.canonical := by
  unfold State.period
  dsimp only
  split
  · exact State.atEach_canonical hs (fun v hv => by simpa using hv) _
  · split
    · exact State.turn_canonical hs _ _
    · exact State.atEach_canonical (State.turn_canonical hs _ _) (fun v hv => by simpa using hv) _

theorem State.tryEvent_canonical {s t : State} (hs : s.stores.canonical) {i : Instr} (h : s.tryEvent i = some t) : t.stores.canonical := by
  unfold State.tryEvent at h
  split at h
  next hi => cases h; exact exec_canonical hi hs
  · cases h

theorem State.after_canonical {s : State} (hs : s.stores.canonical) (i : Instr) : (s.after i).stores.canonical := by
  unfold State.after
  cases h : s.tryEvent i with
  | none => exact hs
  | some t => exact State.tryEvent_canonical hs h

theorem State.tickNow_canonical {s : State} (hs : s.stores.canonical) : s.tickNow.stores.canonical :=
  foldl_canonical (fun _ i hu => State.after_canonical hu i) _ (State.after_canonical hs _)

/-- The first event of a list that can come about. -/
theorem State.findSome?_tryEvent_canonical {s t : State} (hs : s.stores.canonical) {is : List Instr}
    (h : is.findSome? s.tryEvent = some t) :
    t.stores.canonical := by
  obtain ⟨i, -, hi⟩ := List.exists_of_findSome?_eq_some h
  exact State.tryEvent_canonical hs hi

theorem State.auto_canonical {s t : State} (hs : s.stores.canonical) (h : s.auto = some t) : t.stores.canonical := by
  unfold State.auto at h
  split at h
  · rw [← Option.some.inj h]
    exact State.tickNow_canonical hs
  · split at h
    next hd =>
      cases h
      exact State.findSome?_tryEvent_canonical hs hd
    · split at h
      · cases h; simpa using hs
      · split at h
        · cases h; exact (State.recover_keeps (.refl _)).canonical hs
        · split at h
          · cases h; simpa using hs
          · split at h
            · cases h; simpa using hs
            · split at h
              · cases h; simpa using hs
              · cases h

theorem State.autoGroup_canonical {s t : State} (hs : s.stores.canonical) (h : s.autoGroup = some t) : t.stores.canonical := by
  obtain ⟨m, -, hm⟩ := List.exists_of_findSome?_eq_some h
  split at hm
  next hf => exact State.auto_canonical (State.focus_canonical hf hs) hm
  · cases hm

theorem State.progress_canonical {s : State} (hs : s.stores.canonical) : s.progress.stores.canonical := by
  unfold State.progress
  split
  · refine foldl_canonical (fun u is hu => ?_) _ hs
    cases h : is.findSome? u.tryEvent with
    | none => exact hu
    | some t => exact State.findSome?_tryEvent_canonical hu h
  · exact hs

theorem State.chosen_canonical {s : State} (hs : s.stores.canonical) : s.chosen.stores.canonical := by
  unfold State.chosen
  split
  · exact State.focus_getD_canonical hs _
  · exact State.focus_getD_canonical hs _

theorem State.advance_canonical {s : State} (hs : s.stores.canonical) : s.advance.stores.canonical := by
  have hc := State.chosen_canonical hs
  unfold State.advance; dsimp only
  split
  next ha => exact State.autoGroup_canonical hc ha
  · refine State.period_canonical (State.atEach_canonical ?_ (fun _ hu => State.progress_canonical hu) _)
    simpa using hc

/-- A step keeps the storage of every core in canonical form. -/
theorem step_canonical {s t : State} (hs : s.stores.canonical) (h : step s = .next t) : t.stores.canonical := by
  unfold step State.move at h
  split at h
  · split at h
    · exact exec_canonical h hs
    · cases h
  · split at h
    · split at h
      · cases h
      · split at h
        · cases h; exact hs
        · split at h
          next hi => cases h; rw [State.publish_stores]; exact exec_canonical hi hs
          next hn => exact absurd h (hn _)
    · cases h; rw [State.publish_stores]; exact State.advance_canonical hs

/-- Settles O9: what each instruction, event and part of a step does to the cores' stores, carried up to `step`. -/
theorem storageStaysCanonical : Obligations.StorageStaysCanonical := by
  intro s t hs h
  rw [← State.stores_canonical] at hs ⊢
  exact step_canonical hs h

end Sys2Proof.Machine
end

section
/-! ## Events follow the focus -/
namespace Sys2Proof.Machine
open Sys2Proof

/-- A core that can be brought into focus is one of the module. -/
theorem State.exists_core_of_focus {s u : State} {n : Nat} (h : s.focus n = some u) : ∃ k ∈ s.cores, k.cnum = n := by
  unfold State.focus at h
  split at h
  next hc => exact ⟨s.core, .head _, hc⟩
  · split at h
    · cases h
    next k hk => exact ⟨k, .tail _ (List.mem_of_find?_eq_some hk), by simpa using List.find?_some hk⟩

theorem State.withCore_of_focus {s u : State} {n : Nat} (h : s.focus n = some u) : s.withCore n = s := by
  obtain ⟨k, hk, hn⟩ := State.exists_core_of_focus h
  exact if_pos (.inl (List.any_eq_true.2 ⟨k, hk, by simpa using hn⟩))

theorem State.atCore_of_focus {s u : State} {n : Nat} (h : s.focus n = some u) (f : State → State) :
    s.atCore n f = ((f u).focus s.core.cnum).getD (f u) := by
  unfold State.atCore; rw [h]

theorem State.atCore?_of_focus {s u : State} {n : Nat} (h : s.focus n = some u) (f : State → Option State) :
    s.atCore? n f = (f u).map (fun v => (v.focus s.core.cnum).getD v) := by
  unfold State.atCore?; rw [h]
  dsimp only
  cases f u <;> rfl

/-- An event that acts at a core acts in its focus, and gives the focus back. -/
theorem ActsAt.next_of_focus {n : Nat} {e : State → Host.Outcome State Fault Refusal} (he : ActsAt n e) {s u t : State}
    (hu : s.focus n = some u) (h : e u = .next t) : e s = .next ((t.focus s.core.cnum).getD t) := by
  obtain rfl := State.focus_num hu
  cases he with
  | @maybe nm f hf =>
    beta_reduce at h ⊢
    rw [State.atCore?_of_focus (State.focus_self u)] at h
    rw [State.atCore?_of_focus hu]
    cases hv : f u with
    | none => rw [hv] at h; cases h
    | some v =>
      have hn : v.core.cnum = u.core.cnum := (hf u v hv).num
      rw [hv, Option.map_some, ← hn, State.focus_self] at h
      cases h
      rfl
  | @always f hf =>
    beta_reduce at h ⊢
    rw [State.atCore_self u f (hf u).num] at h
    cases h
    rw [State.atCore_of_focus hu]
  | @known f hf =>
    beta_reduce at h ⊢
    rw [State.withCore_of_focus (State.focus_self u), State.atCore_self u f (hf u).num] at h
    cases h
    rw [State.withCore_of_focus hu, State.atCore_of_focus hu]

/-- Settles O12: each event that names a core acts in that core's focus, and keeps the core's number. -/
theorem eventsFollowFocus : Obligations.EventsFollowFocus := by
  intro s u t i n hi hu h
  exact (eventCore_actsAt hi).next_of_focus hu h

end Sys2Proof.Machine
end

section
/-! ## The entry state of a task -/
namespace Sys2Proof.Machine
open Sys2Proof

/-- A vector that holds one value everywhere reads it inside and its default outside. -/
theorem vget_replicate {α : Type} (n i : Nat) (a : α) : vget (Vector.replicate n a) i a = a := by
  unfold vget; split <;> simp

/-- The scalar registers that an entry state loads: x1, x2 and x3, every other zero. -/
theorem vget_entryX (a b c : Word) (i : Nat) :
    vget (vset (vset (vset Regs.zero.x 1 a) 2 b) 3 c) i 0 = if i = 1 then a else if i = 2 then b else if i = 3 then c else 0 := by
  by_cases h3 : i = 3
  · subst h3; exact vget_vset_same _ _ _ _ (by decide)
  rw [vget_vset_other _ _ _ _ _ (Ne.symm h3)]
  by_cases h2 : i = 2
  · subst h2; exact vget_vset_same _ _ _ _ (by decide)
  rw [vget_vset_other _ _ _ _ _ (Ne.symm h2)]
  by_cases h1 : i = 1
  · subst h1; exact vget_vset_same _ _ _ _ (by decide)
  rw [vget_vset_other _ _ _ _ _ (Ne.symm h1)]
  rw [if_neg h1, if_neg h2, if_neg h3]
  exact vget_replicate 64 i 0

/-- The x registers after entry, by number. -/
theorem State.enter_x (s : State) (k : Task) (arg : Word) (e : Entry) (r : XReg) :
    (s.enter k arg e).core.x r = if r.toNat = 1 then arg else if r.toNat = 2 then BitVec.ofNat 64 k.serial
      else if r.toNat = 3 then BitVec.ofNat 64 k.iter else 0 := by
  by_cases hr : r = 0
  · subst hr; rfl
  · exact (if_neg hr).trans (vget_entryX _ _ _ _)

/-- The scalar predicates after entry. -/
theorem State.enter_f (s : State) (k : Task) (arg : Word) (e : Entry) (r : FReg) (hr : r ≠ 0) : (s.enter k arg e).core.f r = false := by
  have h : ∀ r : FReg, r ≠ 0 → (r == 0 || (1 : BitVec 16).getLsbD r.toNat) = false := by decide
  exact h r hr

/-- The lane predicates after entry. -/
theorem State.enter_pslice (s : State) (k : Task) (arg : Word) (e : Entry) (r : PReg) (g : Nat) (hr : r ≠ 0) (hg : g < 4) :
    (s.enter k arg e).core.pslice r g = 0 := by
  have h0 : 0 < r.toNat := Nat.pos_of_ne_zero fun h => hr (BitVec.eq_of_toNat_eq h)
  have hp : vget Regs.zero.p (4 * r.toNat + g) 0 = 0 := by
    have hlt : ¬ 4 * r.toNat + g < 4 := by omega
    unfold vget Regs.zero
    split
    · rw [Vector.getElem_ofFn]; exact if_neg hlt
    · rfl
  exact (if_neg hr).trans hp

/-- The tokens after entry. -/
theorem State.enter_token (s : State) (k : Task) (arg : Word) (e : Entry) (n : KTok) : (s.enter k arg e).core.token n = Token.zero :=
  vget_replicate 8 n.toNat Token.zero

/-- The core issues after entry. -/
theorem State.enter_cstate (s : State) (k : Task) (arg : Word) (e : Entry) : (s.enter k arg e).core.cstate = 1 :=
  fld_putFld _ 60 4 1 (by decide)

/-- Settles O54: the registers, predicates, tokens and state that `State.enter` puts in place. -/
theorem entryState : Obligations.EntryState := by
  intro s k arg e
  refine ⟨s.enter_x k arg e 1, s.enter_x k arg e 2, s.enter_x k arg e 3, fun r hr => ?_, s.enter_f k arg e,
    s.enter_pslice k arg e, rfl, rfl, rfl, rfl, rfl, rfl, rfl, rfl, rfl, rfl, rfl, fun n => ?_, rfl, s.enter_cstate k arg e, rfl⟩
  · rw [State.enter_x, if_neg (by omega), if_neg (by omega), if_neg (by omega)]
  · rw [State.enter_token]; exact ⟨rfl, rfl⟩

end Sys2Proof.Machine
end

section
/-! ## Messages that arrive
Sending and consuming messages moves links and what leaves the module, nothing else; the messages of each class then act on the state
that this leaves (15 R338, R339; 05 R135). -/
namespace Sys2Proof.Machine
open Sys2Proof

/-! ### What a wire carries -/

/-- Two states are the same but for their links and what has left the module. -/
abbrev State.butWire (s t : State) : Prop := ∃ l o, t = { s with links := l, outward := o }

theorem State.butWire_refl (s : State) : s.butWire s := ⟨_, _, rfl⟩
theorem State.butWire_trans {s t u : State} (h : s.butWire t) (k : t.butWire u) : s.butWire u := by
  obtain ⟨l, o, rfl⟩ := h
  obtain ⟨m, p, rfl⟩ := k
  exact ⟨m, p, rfl⟩

theorem State.setLink_butWire (s : State) (n : Nat) (l : Link) : s.butWire (s.setLink n l) := ⟨_, _, rfl⟩

theorem State.sendControl_butWire (s : State) (n code arg : Nat) : s.butWire (s.sendControl n code arg) := by
  unfold State.sendControl; dsimp only; split <;> exact ⟨_, _, rfl⟩

theorem State.occupy_butWire (s : State) (n vl add sub : Nat) : s.butWire (s.occupy n vl add sub) := by
  unfold State.occupy; extract_lets l o s1
  have h : ∀ k : Link, s.butWire (s1.setLink n k) := fun _ => ⟨_, _, rfl⟩
  split
  · exact State.butWire_trans (h _) (State.sendControl_butWire _ _ _ _)
  · split
    · exact State.butWire_trans (h _) (State.sendControl_butWire _ _ _ _)
    · exact s.setLink_butWire _ _

theorem State.consume_butWire (s : State) (n : Nat) (m : Msg) : s.butWire (s.consume n m) :=
  State.butWire_trans (s.setLink_butWire _ _) (State.occupy_butWire _ _ _ _ _)

theorem State.consume_memory (s : State) (n : Nat) (m : Msg) : (s.consume n m).memory = s.memory := by
  obtain ⟨l, o, h⟩ := s.consume_butWire n m
  rw [h]

theorem State.emit_butWire (s : State) (n : Nat) (m : Msg) : s.butWire (s.emit n m) :=
  List.foldlRecOn (motive := s.butWire) _ _ s.butWire_refl fun _ h _ _ => State.butWire_trans h ⟨_, _, rfl⟩

theorem State.sendMsg_butWire (s : State) (m : Msg) : s.butWire (s.sendMsg m) := by
  unfold State.sendMsg
  split
  · exact s.butWire_refl
  · dsimp only
    split
    · exact s.emit_butWire _ _
    · exact s.setLink_butWire _ _

/-! ### Links and channels by number -/

/-- The link just written. -/
theorem State.link_setLink (s : State) (n : Nat) (l : Link) (h : n < 16) : (s.setLink n l).link n = l := vget_vset_same _ _ _ _ h

/-- The entry of a channel is the one by which it is found. -/
theorem State.channel_entry (s : State) (i : Nat) : (s.channel i).entry = i := by
  unfold State.channel
  cases h : s.channels.find? (fun c => c.entry == i) with
  | none => rfl
  | some c => simpa using List.find?_some h

/-- The channel just written. -/
theorem State.channel_setChannel (s : State) (c : Channel) : (s.setChannel c).channel c.entry = c := by
  have h : (s.channels.filter (fun d => d.entry != c.entry)).find? (fun d => d.entry == c.entry) = none := by
    simp [List.find?_eq_none]
  simp [State.channel, State.setChannel, List.find?_append, h]

/-! ### Messages of each class -/

/-- The oldest memory request at its lines, served, is answered at once where its fan-outs are done. -/
theorem execMemoryRequestMsg_answered {s u : State} {n : Nat} {m : Msg} {r : MemResp} {fans : List Nat} (hs : (s.link n).serving = [])
    (hm : (s.link n).rx.find? (fun q => q.cls == 0 && s.oldestAt (MemReq.read q.body)) = some m)
    (hr : s.serveMem (MemReq.read m.body) = some (r, fans, u)) (hf : (u.consume n m).fansRun fans = false) :
    execMemoryRequestMsg n s = .next ((u.consume n m).respond m r) := by
  simp only [execMemoryRequestMsg, hs, List.find?_nil, hm, hr, hf]
  rfl

/-- Otherwise its answer waits on the link. -/
theorem execMemoryRequestMsg_waits {s u : State} {n : Nat} {m : Msg} {r : MemResp} {fans : List Nat} (hs : (s.link n).serving = [])
    (hm : (s.link n).rx.find? (fun q => q.cls == 0 && s.oldestAt (MemReq.read q.body)) = some m)
    (hr : s.serveMem (MemReq.read m.body) = some (r, fans, u)) (hf : (u.consume n m).fansRun fans = true) :
    execMemoryRequestMsg n s = .next ((u.consume n m).setLink n
      { (u.consume n m).link n with serving := ((u.consume n m).link n).serving ++ [(m, r.bytes, fans)] }) := by
  simp only [execMemoryRequestMsg, hs, List.find?_nil, hm, hr, hf]
  rfl

/-- A request that waited is answered once its fan-outs are done. -/
theorem execMemoryRequestMsg_done {s : State} {n : Nat} {e : Msg × List Byte × List Nat} (hs : (s.link n).serving = [e])
    (hf : s.fansRun e.2.2 = false) :
    execMemoryRequestMsg n s = .next ((s.setLink n { s.link n with serving := [] }).respond e.1 (MemResp.read e.2.1)) := by
  simp [execMemoryRequestMsg, hs, hf]

/-- The state that a response reaches. -/
theorem execResponseMsg_first {s : State} {n : Nat} {m : Msg} (h : (s.link n).first 1 = some m) :
    execResponseMsg n s = .next ((s.consume n m).takeResponse m.tag (MemResp.read m.body)).hearthRun := by
  simp only [execResponseMsg, h, enabledOr_some]

/-- A link message with room in its channel's queue joins it, and its sender is told. -/
theorem execLinkMessageMsg_head {s : State} {n : Nat} {m : Msg} {rest : List Msg} (h : (s.link n).rx = m :: rest) (hc : m.cls = 2)
    (hq : (s.channel m.chan).queue.length < 64) : ∃ (c : Channel) (k : Msg), c.entry = m.chan ∧
      c.queue = (s.channel m.chan).queue ++ [qmsgOf m.body] ∧
      execLinkMessageMsg n s = .next (((s.consume n m).setChannel c).sendMsg k) := by
  simp only [execLinkMessageMsg, h, List.find?_cons, hc, hq, decide_true, beq_self_eq_true, Bool.and_self, enabledOr_some]
  refine ⟨_, _, ?_, ?_, rfl⟩
  · exact s.channel_entry m.chan
  · rfl

/-- The groups that a barrier message names learn what it says. -/
def State.tellGroups (s : State) (b : BMsg) : State :=
  { s with groups := s.groups.map (fun (g : BGroup) => if g.named b then g.take b else g) }

/-- The oldest barrier message of a link, where its group is known or it is stale. -/
theorem execBarrierMsg_head {s : State} {n : Nat} {m : Msg} {rest : List Msg} {ok : Bool} (h : (s.link n).rx = m :: rest)
    (hc : m.cls = 3) (hb : s.barrierReady (BMsg.read m.body) = some ok) :
    execBarrierMsg n s = .next (if ok then ((s.consume n m).tellGroups (BMsg.read m.body)).settleGroups else s.consume n m) := by
  have hf : (m :: rest).filter (fun q => q.cls == 3) = m :: rest.filter (fun q => q.cls == 3) := List.filter_cons_of_pos (by simp [hc])
  simp only [execBarrierMsg, h, hf, List.zipIdx_cons, List.find?_cons, List.take_zero, List.any_nil, hb, Option.isSome_some,
    Bool.not_false, Bool.and_self, Option.some.injEq]
  cases ok <;> rfl

theorem execNodeDirectoryMsg_first {s : State} {n : Nat} {m : Msg} (h : (s.link n).first 4 = some m) :
    execNodeDirectoryMsg n s = .next ((s.consume n m).serveK m.src m.tag (KReq.read m.body)) := by
  simp only [execNodeDirectoryMsg, h, enabledOr_some]

/-- The module with a master's time as its time base, unless that would set it back (log 27). -/
def State.timedBy (s : State) (src now : Nat) : State :=
  { s.setM { s.regs.m with tbase := BitVec.ofNat 64 (max s.regs.m.tbase.toNat now) } with domain := { s.domain with master := some src } }

theorem execTimeBaseMsg_first {s : State} {n : Nat} {m : Msg} (h : (s.link n).first 5 = some m) :
    ∃ t, execTimeBaseMsg n s = .next t ∧ (t = (s.consume n m).timedBy m.src (leNat (m.body.take 8)) ∨
      t = ((s.consume n m).timedBy m.src (leNat (m.body.take 8))).reclaimTest) := by
  simp only [execTimeBaseMsg, h, enabledOr_some]
  refine ⟨_, rfl, ?_⟩
  split
  · exact .inr rfl
  · exact .inl rfl

theorem execManagementMsg_first {s : State} {n : Nat} {m : Msg} (h : (s.link n).first 6 = some m) :
    execManagementMsg n s = .next (if leNat (m.body.take 1) = 1 then (s.consume n m).placed (leNat ((m.body.drop 1).take 2))
      else s.consume n m) := by
  simp only [execManagementMsg, h, enabledOr_some]

/-- Settles O4: each class by the lemma about its event. -/
theorem messageEvents : Obligations.MessageEvents := by
  intro s n m hn
  refine ⟨fun hs hm r fans u hr => ⟨execMemoryRequestMsg_answered hs hm hr, fun hf => ?_⟩, fun e hs hf => ?_, execResponseMsg_first,
    fun rest h hc hq => ?_, fun rest ok h hc hb b hbm u hu => ?_, execNodeDirectoryMsg_first, fun h => ?_, fun h => ?_⟩
  · exact ⟨_, execMemoryRequestMsg_waits hs hm hr hf, congrArg Link.serving (State.link_setLink _ _ _ hn)⟩
  · exact ⟨s.setLink n { s.link n with serving := [] }, congrArg Link.serving (State.link_setLink _ _ _ hn), rfl,
      execMemoryRequestMsg_done hs hf⟩
  · obtain ⟨c, k, he, hqc, hx⟩ := execLinkMessageMsg_head h hc hq
    obtain ⟨l, o, ho⟩ := ((s.consume n m).setChannel c).sendMsg_butWire k
    have hch : ((s.consume n m).setChannel c).channel m.chan = c := he ▸ State.channel_setChannel _ c
    refine ⟨_, hx, ?_, ?_⟩
    · rw [ho, ← hqc]; exact congrArg Channel.queue hch
    · rw [ho]; exact s.consume_memory n m
  · subst hbm hu; exact execBarrierMsg_head h hc hb
  · obtain ⟨t, ht, hu⟩ := execTimeBaseMsg_first h
    obtain ⟨l, o, hc⟩ := s.consume_butWire n m
    rw [hc] at hu
    exact ⟨t, _, ht, hu, rfl, rfl, rfl, rfl⟩
  · have hm := execManagementMsg_first h
    exact ⟨fun hne => by rwa [if_neg hne] at hm, fun he => by rwa [if_pos he] at hm⟩

end Sys2Proof.Machine
end

section
/-! ## What accesses leave alone
Hearth and the Crucible read and write memory, send messages and count. `State.apart` is the state without what these touch; each
function of the model behind them keeps it, said once, in the order of the model's files. -/
namespace Sys2Proof.Machine
open Sys2Proof

/-- The state apart from memory, stamps, the Crucible, links, routes, error banks, events, telemetry and the reads and writes that
Hearth has under way. -/
def State.apart (s : State) : State :=
  { s with
    regs := { State.reset.regs with m := s.regs.m, lim := s.regs.lim }, stackv := State.reset.stackv, memory := State.reset.memory,
    hearth := { s.hearth with reads := [], writes := [] }, crucible := State.reset.crucible, links := State.reset.links,
    domain := State.reset.domain, board := State.reset.board, outward := [] }

theorem State.core_of_apart {s t : State} (h : t.apart = s.apart) : t.core = s.core := (congrArg (fun u : State => u.core) h :)
theorem State.launches_of_apart {s t : State} (h : t.apart = s.apart) : t.hearth.launches = s.hearth.launches :=
  (congrArg (fun u : State => u.hearth.launches) h :)

/-- Replacing what `apart` leaves out. -/
theorem State.apart_update (s : State) (v m c l d b o) :
    State.apart { s with stackv := v, memory := m, crucible := c, links := l, domain := d, board := b, outward := o } = s.apart := rfl
/-- Recording an event. -/
theorem State.apart_events (s : State) (ev w v m o) :
    State.apart { s with regs := { s.regs with ev := ev, waiting := w }, stackv := v, memory := m, outward := o } = s.apart := rfl

@[simp] theorem State.apart_ite (p : Prop) [Decidable p] (s t : State) :
    (if p then s else t).apart = if p then s.apart else t.apart := apply_ite _ _ _ _
@[simp] theorem foldl_apart {β : Type} (g : State → β → State) (l : List β) (s : State) (h : ∀ a b, (g a b).apart = a.apart) :
    (l.foldl g s).apart = s.apart := foldl_keeps State.apart g h l s
@[simp] theorem foldl_snd_apart {α β : Type} (g : α × State → β → α × State) (l : List β) (p : α × State)
    (h : ∀ a b, (g a b).2.apart = a.2.apart) : (l.foldl g p).2.apart = p.2.apart := foldl_keeps (fun a => a.2.apart) g h l p

/-! ### Homes, their directory, events -/

@[simp] theorem State.homeStore_apart (s : State) (pa bs) : (s.homeStore pa bs).apart = s.apart := (rfl)
@[simp] theorem State.touchL2_apart (s : State) (line write) : (s.touchL2 line write).apart = s.apart := (rfl)
@[simp] theorem State.setEntry_apart (s : State) (d) : (s.setEntry d).apart = s.apart := (rfl)
@[simp] theorem State.dropEntry_apart (s : State) (d) : (s.dropEntry d).apart = s.apart := (rfl)
@[simp] theorem State.settleHost_apart (s : State) (num) : (s.settleHost num).apart = s.apart := (rfl)
@[simp] theorem State.fanDone_apart (s : State) (d f) : (s.fanDone d f).apart = s.apart := by
  simp [State.fanDone, ↓State.apart_update]

@[simp] theorem State.settleFan_apart (s : State) (line) : (s.settleFan line).apart = s.apart := by
  unfold State.settleFan
  split
  · rfl
  · split
    · rfl
    · simp

@[simp] theorem State.startFan_apart (s : State) (line from_ keep byHost wrote) :
    (s.startFan line from_ keep byHost wrote).apart = s.apart := by
  unfold State.startFan; dsimp only; split <;> simp [↓State.apart_update]
@[simp] theorem State.homeWrite_apart (s : State) (pa bs byHost wrote) : (s.homeWrite pa bs byHost wrote).apart = s.apart := by
  unfold State.homeWrite; dsimp only; split <;> simp
@[simp] theorem State.homePut_apart (s : State) (pa bs byHost wrote) : (s.homePut pa bs byHost wrote).apart = s.apart := by
  simp [State.homePut]
@[simp] theorem State.homeFetch_apart (s : State) (pa n) : (s.homeFetch pa n).2.apart = s.apart := by
  simp [State.homeFetch]

@[simp] theorem State.post_apart (s : State) (e) : (s.post e).apart = s.apart := by
  unfold State.post; dsimp only
  split
  · split
    · exact s.apart_events _ _ _ _ _
    · exact s.apart_events _ _ _ _ _
  · exact s.apart_events _ _ _ _ _

/-! ### Wires -/

theorem State.butWire.apart {s t : State} (h : s.butWire t) : t.apart = s.apart := by
  obtain ⟨l, o, rfl⟩ := h; rfl
@[simp] theorem State.sendMsg_apart (s : State) (m) : (s.sendMsg m).apart = s.apart := (s.sendMsg_butWire m).apart
@[simp] theorem State.takeTag_apart (s : State) (dst) : (s.takeTag dst).2.apart = s.apart := (rfl)

/-! ### Translation and the host-line cache -/

@[simp] theorem State.hostRoom_apart (s : State) : s.hostRoom.apart = s.apart := by
  unfold State.hostRoom
  split
  · rfl
  · split <;> rfl
@[simp] theorem State.hostFill_apart (s : State) (line) : (s.hostFill line).apart = s.apart := by
  simp [State.hostFill, ↓State.apart_update]
@[simp] theorem State.hostPut_apart (s : State) (asid line off bs) : (s.hostPut asid line off bs).apart = s.apart :=
  s.hostFill_apart line
@[simp] theorem State.pte_apart (s : State) (table i) : (s.pte table i).2.apart = s.apart := by
  unfold State.pte; dsimp only; split <;> rfl
@[simp] theorem State.asidOn_apart (s : State) (a) : (s.asidOn a).2.apart = s.apart := by
  simp [State.asidOn]

theorem State.walkStep_apart (s : State) (table i) (f : Word → State → Walk × State) (h : ∀ e t, (f e t).2.apart = t.apart) :
    (s.walkStep table i f).2.apart = s.apart := by
  unfold State.walkStep; dsimp only; split
  · rfl
  · split <;> simp [h]

@[simp] theorem State.walk_apart (s : State) (asid va) : (s.walk asid va).2.apart = s.apart := by
  unfold State.walk; dsimp only
  refine State.walkStep_apart _ _ _ _ fun _ s => State.walkStep_apart _ _ _ _ fun _ s => ?_
  split
  · rfl
  · refine State.walkStep_apart _ _ _ _ fun _ s => ?_
    split
    · rfl
    · split
      · rfl
      · split
        · rfl
        · refine State.walkStep_apart _ _ _ _ fun _ s => ?_
          split
          · rfl
          · split
            · rfl
            · split
              · rfl
              · exact State.walkStep_apart _ _ _ _ fun _ _ => rfl

@[simp] theorem State.translate_apart (s : State) (asid va k) : (s.translate asid va k).2.apart = s.apart := by
  unfold State.translate; dsimp only
  split
  · rfl
  · split
    · exact s.walk_apart asid va
    · exact s.walk_apart asid va

@[simp] theorem State.look_apart (s : State) (asid va k) : (s.look asid va k).2.apart = s.apart := by
  unfold State.look; dsimp only
  split
  · rfl
  · split
    · simp
    · simp
    · split
      · simp
      · split <;> simp

@[simp] theorem State.resolve_apart (asid k f) (s : State) (va n acc) : (State.resolve asid k f s va n acc).2.apart = s.apart := by
  induction f generalizing s va n acc with
  | zero => rfl
  | succ f ih =>
    unfold State.resolve; dsimp only
    split
    · rfl
    · split <;> simp [ih]

@[simp] theorem State.segments_apart (s : State) (asid k va n) : (s.segments asid k va n).2.apart = s.apart := by
  simp [State.segments]
@[simp] theorem State.askSegs_apart (s : State) (born segs) : (s.askSegs born segs).2.apart = s.apart := by
  refine foldl_snd_apart _ _ _ fun a g => ?_
  dsimp only; split <;> simp

/-! ### The Crucible -/

@[simp] theorem State.setNode_apart (s : State) (n) : (s.setNode n).apart = s.apart := (rfl)
@[simp] theorem State.dropNode_apart (s : State) (slot) : (s.dropNode slot).apart = s.apart := (rfl)

theorem State.victimE0_apart {s : State} {cxl leaf n t} (h : s.victimE0 cxl leaf = some (n, t)) : t.apart = s.apart := by
  simp only [State.victimE0, Option.map_eq_some_iff, Prod.mk.injEq] at h
  obtain ⟨_, _, _, rfl⟩ := h; rfl

theorem State.victimE1_apart {s : State} {leaf n t} (h : s.victimE1 leaf = some (n, t)) : t.apart = s.apart := by
  simp only [State.victimE1, Option.ite_none_right_eq_some, Option.map_eq_some_iff, Prod.mk.injEq] at h
  obtain ⟨_, _, _, _, rfl⟩ := h; rfl

@[simp] theorem State.nextVictim_apart (s : State) (cxl) : (s.nextVictim cxl).2.apart = s.apart := by
  unfold State.nextVictim; split
  next r h =>
    rcases Option.or_eq_some_iff.1 h with h | ⟨_, h⟩
    · exact State.victimE0_apart h
    · split at h
      · cases h
      · exact State.victimE1_apart h
  next => rfl

@[simp] theorem State.sendK_apart (s : State) (dst tag r) : (s.sendK dst tag r).apart = s.apart := State.sendMsg_apart _ _
@[simp] theorem State.setKdir_apart (s : State) (d) : (s.setKdir d).apart = s.apart := (rfl)
@[simp] theorem State.dropKdir_apart (s : State) (name) : (s.dropKdir name).apart = s.apart := (rfl)
@[simp] theorem State.dirCounts_apart (s : State) (name holder m refs pins) : (s.dirCounts name holder m refs pins).apart = s.apart := by
  unfold State.dirCounts; split <;> simp
@[simp] theorem State.noteRemote_apart (s : State) (slot m) : (s.noteRemote slot m).apart = s.apart := by
  unfold State.noteRemote; split <;> simp
@[simp] theorem State.noteAll_apart (s : State) (n) : (s.noteAll n).apart = s.apart := by
  simp [State.noteAll]
@[simp] theorem State.homeMoved_apart (s : State) (name m) : (s.homeMoved name m).apart = s.apart := by
  simp [State.homeMoved, ↓State.apart_update]
@[simp] theorem State.dirMoveHome_apart (s : State) (d) : (s.dirMoveHome d).apart = s.apart := by
  unfold State.dirMoveHome; split <;> simp
@[simp] theorem State.dirDrop_apart (s : State) (name h) : (s.dirDrop name h).apart = s.apart := by
  unfold State.dirDrop; split <;> simp
@[simp] theorem State.unregister_apart (s : State) (n) : (s.unregister n).apart = s.apart := by
  simp [State.unregister]
@[simp] theorem State.settleEvict_apart (s : State) (slot) : (s.settleEvict slot).apart = s.apart := by
  unfold State.settleEvict; split <;> simp
@[simp] theorem State.evict_apart (s : State) (n) : (s.evict n).apart = s.apart := by
  simp [State.evict]
@[simp] theorem State.dispose_apart (s : State) (n) : (s.dispose n).2.apart = s.apart := by
  unfold State.dispose; split <;> simp

@[simp] theorem State.walkOn_apart (f) (s : State) : (State.walkOn f s).apart = s.apart := by
  induction f generalizing s with
  | zero => rfl
  | succ f ih =>
    unfold State.walkOn; dsimp only
    split
    · rfl
    · split
      · rfl
      · split
        · rfl
        · split <;> simp [ih, ↓State.apart_update]

@[simp] theorem State.walkCxlOn_apart (f) (s : State) : (State.walkCxlOn f s).apart = s.apart := by
  induction f generalizing s with
  | zero => rfl
  | succ f ih =>
    unfold State.walkCxlOn; dsimp only
    split
    · rfl
    · split <;> simp [ih, ↓State.apart_update]

@[simp] theorem State.reclaimTest_apart (s : State) : s.reclaimTest.apart = s.apart := by
  simp [State.reclaimTest, ↓State.apart_update]
@[simp] theorem State.freeOpen_apart (s : State) (n) : (s.freeOpen n).apart = s.apart := (rfl)
@[simp] theorem State.launchNodes_apart (s : State) (serial asid) : (s.launchNodes serial asid).apart = s.apart := by
  simp [State.launchNodes, ↓State.apart_update]

/-! ### Hearth's own accesses -/

@[simp] theorem State.setReading_apart (s : State) (r) : (s.setReading r).apart = s.apart := (rfl)
@[simp] theorem State.endRead_apart (s : State) (who) : (s.endRead who).apart = s.apart := (rfl)
@[simp] theorem State.awaitWrite_apart (s : State) (asid tag) : (s.awaitWrite asid tag).apart = s.apart := (rfl)

@[simp] theorem State.hearthRead_apart (s : State) (who asid k va n) : (s.hearthRead who asid k va n).2.apart = s.apart := by
  unfold State.hearthRead; dsimp only; split
  · simp
  · rfl
  · simp
  · split
    · rfl
    · split
      · split <;> simp
      · refine (foldl_snd_apart _ _ _ fun a g => ?_).trans (s.segments_apart asid k va n)
        split
        · split
          · split <;> simp
          · simp
          · rfl
        · rfl

@[simp] theorem State.hearthWrite_apart (s : State) (asid va bs) : (s.hearthWrite asid va bs).apart = s.apart := by
  unfold State.hearthWrite; dsimp only; split
  · refine (foldl_apart _ _ _ fun s g => ?_).trans (s.segments_apart asid _ va _)
    split <;> simp
  · simp

@[simp] theorem State.condWord_apart (s : State) (l va) : (s.condWord l va).2.apart = s.apart := by
  unfold State.condWord; dsimp only; split <;> simp

@[simp] theorem State.act_apart (s : State) (l x) : (s.act l x).2.apart = s.apart := by
  unfold State.act; dsimp only
  split
  · split
    · rfl
    · split
      · rfl
      · split
        · rfl
        · split <;> simp
        · rfl
        · rfl
  · split
    · split
      · split
        · simp
        · simp
        · split <;> simp
      · rfl
    · rfl

@[simp] theorem State.acts_apart (f) (s : State) (l as) : (State.acts f s l as).2.apart = s.apart := by
  induction f generalizing s l as with
  | zero => rfl
  | succ f ih =>
    cases as with
    | nil => rfl
    | cons a as =>
      unfold State.acts; dsimp only
      split
      · rfl
      · split <;> simp [ih]

@[simp] theorem State.readRecord_apart (s : State) (q k) : (s.readRecord q k).2.apart = s.apart := by
  have ha := s.asidOn_apart k.asid
  unfold State.readRecord; dsimp only
  split
  · rfl
  · split
    next e => rw [e] at ha; exact ha
    next e => rw [e] at ha; exact ha
    next u e =>
      have hu : u.apart = s.apart := by rw [e] at ha; exact ha
      split
      · simp [hu]
      · split
        · simp [hu]
        · split
          · simp [hu]
          · split
            · simp [hu]
            · split
              · simp [hu]
              · split
                · simp [hu]
                · split <;> simp [hu]
              · simp [hu]
      · simp [hu]

end Sys2Proof.Machine
end

section
/-! ## The record of an event
A record lies within one line, so that posting one writes its 32 bytes at their home and nothing else (16 R347, Table 16.5). -/
namespace Sys2Proof.Machine
open Sys2Proof

theorem leBytes_length (n v : Nat) : (leBytes n v).length = n := by
  induction n generalizing v with
  | zero => rfl
  | succ n ih => exact congrArg (· + 1) (ih _)

theorem EventRec.bytes_length (e : EventRec) (seq : Nat) : (e.bytes seq).length = 32 := by simp [EventRec.bytes, leBytes_length]

/-- Bytes 16 to 23 of a record are the launch serial. -/
theorem EventRec.bytes_serial (e : EventRec) (seq : Nat) : ((e.bytes seq).drop 16).take 8 = leBytes 8 e.serial := by
  unfold EventRec.bytes
  rw [List.append_assoc _ (leBytes 8 e.serial), List.drop_left' (by simp [leBytes_length]), List.take_left' (leBytes_length _ _)]

/-! ### Writes of one line -/

/-- Bytes within a line are one part. -/
theorem lineParts_line {pa n : Nat} (hn : 0 < n) (hl : pa % 128 + n ≤ 128) : lineParts pa n = [(pa / 128, pa % 128, n)] := by
  have hd : (pa + n - 1) / 128 - pa / 128 + 1 = 1 := by omega
  have hmax : max pa (pa / 128 * 128) = pa := by omega
  have hmin : min (pa + n) (pa / 128 * 128 + 128) = pa + n := by omega
  simp only [lineParts, if_neg (Nat.ne_of_gt hn), hd, List.range_one, List.map_singleton, Nat.add_zero, hmax, hmin]
  have h1 : pa - pa / 128 * 128 = pa % 128 := by omega
  have h2 : pa + n - pa = n := by omega
  rw [h1, h2]

/-- A remapped frame keeps the place of its bytes. -/
theorem State.frame_add (s : State) {pa i : Nat} (h : pa % 65536 + i < 65536) : s.frame (pa + i) = s.frame pa + i := by
  have hd : (pa + i) / 65536 = pa / 65536 := by omega
  have hm : (pa + i) % 65536 = pa % 65536 + i := by omega
  unfold State.frame
  rw [hd, hm]
  split
  · omega
  · rfl

/-- Cells written one after the other are a write of bytes. -/
theorem Memory.setCells_zipIdx (m : Memory) (a i : Nat) (bs : List Byte) (f : Nat → Nat) (hf : ∀ j, j < i + bs.length → f j = a + j) :
    m.setCells ((bs.zipIdx i).map (fun e => (f e.2, e.1))) = m.setN (a + i) bs := by
  induction bs generalizing m i with
  | nil => rfl
  | cons b bs ih =>
    have h := ih (m.set (a + i) b) (i + 1) fun j hj => hf j (by simp only [List.length_cons]; omega)
    rw [List.zipIdx_cons, List.map_cons, Memory.setCells, Memory.setN]
    dsimp only
    rw [hf i (by simp), h, Nat.add_assoc]

/-- Fan-outs write no memory. -/
theorem State.settleFan_mem (s : State) (line : Nat) : (s.settleFan line).memory.mem = s.memory.mem := by
  unfold State.settleFan
  split
  · rfl
  · split
    · rfl
    · split
      · unfold State.fanDone; dsimp only; split <;> rfl
      · rfl

theorem State.startFan_mem (s : State) (line from_ keep byHost wrote) :
    (s.startFan line from_ keep byHost wrote).memory.mem = s.memory.mem := by
  unfold State.startFan; dsimp only
  split <;> exact State.settleFan_mem _ _

/-- A write within a line at its home. -/
theorem State.homeWrite_mem (s : State) {pa : Nat} {bs : List Byte} (hl : pa % 128 + bs.length ≤ 128) (byHost wrote) :
    (s.homeWrite pa bs byHost wrote).memory.mem = s.memory.mem.setN (s.frame pa) bs := by
  have hs : ((s.touchL2 (pa / 128) true).homeStore pa bs).memory.mem = s.memory.mem.setN (s.frame pa) bs :=
    s.memory.mem.setCells_zipIdx (s.frame pa) 0 bs (fun j => s.frame (pa + j)) fun j hj => s.frame_add (by omega)
  unfold State.homeWrite; dsimp only
  split
  · exact hs
  · rw [State.startFan_mem, hs]

theorem State.homePut_mem (s : State) {pa : Nat} {bs : List Byte} (hn : 0 < bs.length) (hl : pa % 128 + bs.length ≤ 128) (byHost wrote) :
    (s.homePut pa bs byHost wrote).memory.mem = s.memory.mem.setN (s.frame pa) bs := by
  have hp : pa / 128 * 128 + pa % 128 = pa := by omega
  simp only [State.homePut, lineParts_line hn hl, List.foldl_cons, List.foldl_nil, hp, Nat.sub_self, List.drop_zero, List.take_length]
  exact s.homeWrite_mem hl _ _

/-! ### Posting -/

/-- The ring has room for one more record. -/
abbrev State.eventRoom (s : State) : Prop := (s.regs.ev.evtail - s.regs.ev.evhead).toNat < 2 ^ fld s.regs.ev.evctl 0 4

theorem State.post_evtail {s : State} (h : s.eventRoom) (e : EventRec) : (s.post e).regs.ev.evtail = s.regs.ev.evtail + 1 := by
  simp only [State.post, if_neg (Nat.not_le.2 h)]

theorem State.post_mem {s : State} (h : s.eventRoom) (e : EventRec) :
    (s.post e).memory.mem = s.memory.mem.setN s.eventSlot (e.bytes s.regs.ev.evtail.toNat) := by
  simp only [State.post, if_neg (Nat.not_le.2 h)]
  have hl := e.bytes_length s.regs.ev.evtail.toNat
  exact s.homePut_mem (by omega) (by omega) _ _

/-- Bytes read where they were written. -/
theorem Memory.getN_setN {m : Memory} {bs : List Byte} (hm : m.wf = true) (k i n : Nat) (h : i + n ≤ bs.length) :
    (m.setN k bs).getN (k + i) n = (bs.drop i).take n := by
  refine List.ext_getElem (by simp [Memory.getN]; omega) fun j h1 h2 => ?_
  have hj : j < n := by simpa [Memory.getN] using h1
  have hg := Memory.get_setN_same (k := k) (i := i + j) hm (show i + j < bs.length by omega)
  simpa [Memory.getN, Nat.add_assoc] using hg

/-- A record posted: its type, its serial, and memory outside it. -/
theorem State.post_record {s : State} (hw : s.memoryWf) (h : s.eventRoom) (e : EventRec) :
    (s.post e).memory.mem.get s.eventSlot = BitVec.ofNat 8 e.type ∧
    (s.post e).memory.mem.getN (s.eventSlot + 16) 8 = leBytes 8 e.serial ∧ s.sameMemory (s.post e) := by
  have hl := e.bytes_length s.regs.ev.evtail.toNat
  rw [State.sameMemory, State.post_mem h]
  refine ⟨?_, ?_, fun a ha => Memory.get_setN_other hw (by omega)⟩
  · exact Memory.get_setN_same (i := 0) hw (by omega)
  · rw [Memory.getN_setN hw _ _ _ (by omega), EventRec.bytes_serial]

end Sys2Proof.Machine
end

section
/-! ## Launch queues and launches
Hearth's reads of mapped memory, what its own moves keep of its queues, and what the events of queues and launches leave (02 R30, R31,
R39, R57; 15 R318, R319). -/
namespace Sys2Proof.Machine
open Sys2Proof

/-! ### Reads of mapped memory -/

/-- An address that a cached translation takes to this module's memory is looked up without a walk. -/
theorem State.look_mapped {s : State} {asid : BitVec 12} {va n pa : Nat} (h : s.mapped asid .read va n pa) :
    s.look asid va .read = (.at_ (.home pa), s) := by
  obtain ⟨-, hva, -, hb, hp, -, t, hf, -, hloc, rfl⟩ := h
  have ha : leafAdmits t.leaf .read = true := by
    have := List.find?_some hf
    rw [Bool.and_eq_true] at this
    exact this.2
  simp only [State.look, if_neg (Nat.not_le.2 hva), State.translate, hf, ha, hloc, hb, hp]
  rfl

/-- Its bytes are one piece. -/
theorem State.segments_mapped {s : State} {asid : BitVec 12} {va n pa : Nat} (h : s.mapped asid .read va n pa) :
    s.segments asid .read va n = (.ok [⟨va, n, .home pa⟩], s) := by
  have hl := State.look_mapped h
  obtain ⟨hn, -, hpage, -⟩ := h
  have hmin : min n (65536 - va % 65536) = n := by omega
  unfold State.segments State.resolve
  simp only [if_neg (Nat.ne_of_gt hn), hl, hmin, Nat.sub_self]
  unfold State.resolve
  rfl

/-- Hearth reads bytes at their home, where none is poisoned and the home is free. -/
theorem State.hearthRead_mapped {s : State} {who : Reader} {asid : BitVec 12} {va n pa : Nat} (h : s.mapped asid .read va n pa)
    (hw : s.readWaits who = false) (hf : s.homeFree pa n = true) (hp : s.poisoned pa n = false) :
    s.hearthRead who asid .read va n = (.ok (s.homeRead pa n), (s.homeFetch pa n).2) := by
  have ha : (s.reading who).asks.isEmpty = true := by simpa [State.readWaits] using hw
  unfold State.hearthRead
  simp [State.segments_mapped h, hasGot, ha, hf, hp, State.homeFetch]

/-! ### Queues and launches by number -/

/-- What Hearth knows of its queues and launches other than the launches themselves: queues, serial and AGE. -/
def State.intake (s : State) : List (Nat × LQueue) × Nat × Word := (s.hearth.queues, s.hearth.serial, s.hearth.age)

theorem State.intake_of_apart {s t : State} (h : t.apart = s.apart) : t.intake = s.intake :=
  (congrArg State.intake h :)
theorem State.queue_of_apart {s t : State} (h : t.apart = s.apart) (q : Nat) : t.queue q = s.queue q :=
  (congrArg (fun u : State => u.queue q) h :)

@[simp] theorem State.setLaunch_intake (s : State) (l) : (s.setLaunch l).intake = s.intake := (rfl)
@[simp] theorem State.intake_ite (p : Prop) [Decidable p] (s t : State) :
    (if p then s else t).intake = if p then s.intake else t.intake := apply_ite _ _ _ _
@[simp] theorem foldl_intake {β : Type} (g : State → β → State) (l : List β) (s : State) (h : ∀ a b, (g a b).intake = a.intake) :
    (l.foldl g s).intake = s.intake := foldl_keeps State.intake g h l s

theorem State.acts_intake (f) (s : State) (l as) : (State.acts f s l as).2.intake = s.intake := State.intake_of_apart (State.acts_apart _ _ _ _)
@[simp] theorem State.walkGraph_intake (s : State) (l as) : (s.walkGraph l as).intake = s.intake := by
  simp [State.walkGraph, State.acts_intake]
@[simp] theorem State.resumeWalk_intake (s : State) (l) : (s.resumeWalk l).intake = s.intake := by
  simp [State.resumeWalk, State.acts_intake]
@[simp] theorem State.dispatch_intake (s : State) (l i n cores) : (s.dispatch l i n cores).intake = s.intake := (rfl)

@[simp] theorem State.select1_intake (s : State) : s.select1.2.intake = s.intake := by
  unfold State.select1; dsimp only
  split
  · rfl
  · split
    · rfl
    · split <;> rfl

@[simp] theorem State.select_intake (f) (s : State) : (State.select f s).intake = s.intake := by
  induction f generalizing s with
  | zero => rfl
  | succ f ih => simp [State.select, ih]

@[simp] theorem State.endLaunch_intake (s : State) (l) : (s.endLaunch l).intake = s.intake := by
  unfold State.endLaunch
  extract_lets hi lo s1 s2
  have h : s2.apart = s.apart := by simp [s2, s1]
  exact (State.intake_of_apart h :)
/-- Hearth's own moves keep what it knows of its queues. -/
@[simp] theorem State.hearthRun_intake (s : State) : s.hearthRun.intake = s.intake := by
  simp [State.hearthRun]

/-! ### Launch queues -/

theorem execTailWordChange_mapped {s : State} {q pa : Nat} (hon : (s.queue q).on = true) (hst : (s.queue q).stopc = 0)
    (hsy : (s.queue q).sync = false) (hw : s.readWaits (.words q) = false) (hm : s.mapped (s.queue q).asid .read (s.queue q).tailVa 8 pa)
    (hf : s.homeFree pa 8 = true) (hp : s.poisoned pa 8 = false) :
    execTailWordChange q s = .next (((s.homeFetch pa 8).2.endRead (.words q)).setQueue q
      { s.queue q with tail := BitVec.ofNat 64 (s.homeNum pa 8) }) := by
  have hr := State.hearthRead_mapped hm hw hf hp
  simp [execTailWordChange, State.queueWord, hon, hst, hsy, hw, hr, State.homeNum]

/-- A queue that stops records the cause and is otherwise the same. -/
theorem State.stopQueue_queue (s : State) (q code : Nat) :
    (s.stopQueue q code).queue q = { s.queue q with lq3 := putFld (s.queue q).lq3 32 4 code } := by
  unfold State.stopQueue
  rw [State.queue_of_apart (State.post_apart _ _), State.queue_setQueue]

theorem State.stopQueue_stopc (s : State) (q : Nat) {code : Nat} (h : code < 16) : ((s.stopQueue q code).queue q).stopc = code := by
  rw [State.stopQueue_queue, LQueue.stopc, fld_putFld _ _ _ _ (by decide)]
  exact Nat.mod_eq_of_lt h
theorem State.stopQueue_launches (s : State) (q code : Nat) : (s.stopQueue q code).hearth.launches = s.hearth.launches := by
  unfold State.stopQueue; rw [State.launches_of_apart (State.post_apart _ _)]; rfl
theorem State.stopQueue_core (s : State) (q code : Nat) : (s.stopQueue q code).core = s.core := by
  unfold State.stopQueue; rw [State.core_of_apart (State.post_apart _ _)]; rfl

/-- Hearth can take a record of the queue now (R30, R318). -/
def State.recordReady (s : State) (q : Nat) : Prop :=
  (s.queue q).on = true ∧ (s.queue q).stopc = 0 ∧ (s.queue q).sync = false ∧ (s.queue q).head ≠ (s.queue q).tail ∧
  s.regs.m.hcfg.getLsbD 63 = true ∧ fld s.regs.m.mstate 0 4 = 4 ∧ s.readWaits (.record q) = false ∧
  s.hearthFree (s.queue q).asid (s.queue q).headVa 8 = true

theorem execLaunchRecord_ready {s u : State} {q : Nat} {r : Except Nat Launch} (h : s.recordReady q)
    (hr : s.readRecord q (s.queue q) = (some r, u)) :
    execLaunchRecord q s = .next (match r with
      | .error code => (u.endRead (.record q)).stopQueue q code
      | .ok l => (u.endRead (.record q)).acceptRecord q (s.queue q) l) := by
  obtain ⟨hon, hst, hsy, hne, hcfg, hms, hw, hf⟩ := h
  have hb : ((s.queue q).head == (s.queue q).tail) = false := by simpa using hne
  simp only [execLaunchRecord, hon, hst, hsy, hb, hcfg, hms, hw, hf, hr, bne_self_eq_false, Bool.not_true, Bool.or_false,
    Bool.false_eq_true, if_false]
  cases r <;> rfl

/-- A record that is refused stops its queue and changes nothing else of it, no launch and not the core in focus. -/
theorem execLaunchRecord_stops {s u : State} {q code : Nat} (h : s.recordReady q) (hc : code < 16)
    (hr : s.readRecord q (s.queue q) = (some (.error code), u)) :
    ∃ t, execLaunchRecord q s = .next t ∧ (t.queue q).stopc = code ∧ (t.queue q).head = (s.queue q).head ∧
      t.hearth.launches = s.hearth.launches ∧ t.core = s.core := by
  have hu : (u.endRead (.record q)).apart = s.apart := by
    have := s.readRecord_apart q (s.queue q)
    rwa [hr] at this
  refine ⟨_, execLaunchRecord_ready h hr, State.stopQueue_stopc _ q hc, ?_,
    (State.stopQueue_launches _ q code).trans (State.launches_of_apart hu), (State.stopQueue_core _ q code).trans (State.core_of_apart hu)⟩
  rw [State.stopQueue_queue, State.queue_of_apart hu]

theorem State.readRecord_overfull {s : State} {q : Nat} {k : LQueue} (h : 2 ^ fld k.lq0 0 5 < (k.tail - k.head).toNat) :
    s.readRecord q k = (some (.error 1), s) := by
  simp only [State.readRecord, if_pos h]

theorem State.readRecord_asidOff {s : State} {q : Nat} {k : LQueue} (h : (k.tail - k.head).toNat ≤ 2 ^ fld k.lq0 0 5)
    (ha : (s.asidOn k.asid).1 = some false) : ∃ u, s.readRecord q k = (some (.error 3), u) := by
  obtain ⟨o, u, hu⟩ : ∃ o u, s.asidOn k.asid = (o, u) := ⟨_, _, rfl⟩
  rw [hu] at ha
  subst ha
  simp only [State.readRecord, if_neg (Nat.not_lt.2 h), hu]
  exact ⟨u, rfl⟩

/-- An accepted record's launch has the serial given and the head moves on. -/
theorem State.acceptRecord_intake (s : State) (q : Nat) (k : LQueue) (l : Launch) :
    (s.acceptRecord q k l).intake = (insertN q { k with head := k.head + 1 } s.hearth.queues, l.serial, s.hearth.age) := by
  unfold State.acceptRecord
  extract_lets first l0 hearth s1 s2
  have h1 : (s1.walkGraph l0 (first.map (fun i => .dec i none))).intake = (s.hearth.queues, l.serial, s.hearth.age) :=
    State.walkGraph_intake _ _ _
  have h2 : s2.intake = (insertN q { k with head := k.head + 1 } s.hearth.queues, l.serial, s.hearth.age) :=
    (congrArg (fun i => (insertN q { k with head := k.head + 1 } i.1, i.2)) h1 :)
  rw [State.hearthRun_intake, State.intake_of_apart (State.hearthWrite_apart _ _ _ _), h2]

theorem State.acceptRecord_queue (s : State) (q : Nat) (k : LQueue) (l : Launch) :
    (s.acceptRecord q k l).queue q = { k with head := k.head + 1 } := by
  show (lookupN q (s.acceptRecord q k l).intake.1).getD _ = _
  rw [State.acceptRecord_intake, lookupN_insertN]; rfl

/-! ### Reports -/

/-- The launch just written. -/
theorem State.launch_setLaunch {s : State} {l k : Launch} (h : s.launch l.serial = some k) : (s.setLaunch l).launch l.serial = some l := by
  have hp : (fun j : Launch => j.serial == l.serial) ∘ (fun j => if j.serial = l.serial then l else j) = fun j => j.serial == l.serial := by
    funext j
    by_cases hj : j.serial = l.serial <;> simp [hj]
  have hk : k.serial = l.serial := by simpa using List.find?_some h
  rw [State.launch] at h
  rw [State.launch, State.setLaunch, List.find?_map, hp, h, Option.map_some, if_pos hk]

/-- The launch posts event 11, and will not again. -/
theorem execUnplaceableReport_posts {s : State} {l : Launch} (hl : s.launch l.serial = some l) (hr : l.reported = false)
    (hu : ∃ e ∈ l.waiting, s.unplaceable e.2 = true)
    (ht : l.waitStart + (7 - l.pri + 4) * s.hearth.age.toNat ≤ s.regs.m.tbase.toNat) :
    execUnplaceableReport l.serial s = .next ((s.setLaunch { l with reported := true }).post ⟨11, 0xFFFF, 0, 0, l.serial⟩) := by
  have hne : (l.waiting.filter (fun e => s.unplaceable e.2)).isEmpty = false := by
    obtain ⟨e, he, hue⟩ := hu
    simpa using ⟨e.1, e.2, he, hue⟩
  simp [execUnplaceableReport, hl, hr, hne, ht]

end Sys2Proof.Machine
end

section
/-! ## Task entry and retirement
What TASK_ENTRY and CORE_RETIRE make of the core in focus (02 R42, R53 to R55, R60; 14 R303 to R306), and with them the events of Hearth. -/
namespace Sys2Proof.Machine
open Sys2Proof

theorem State.cnum_of_stores {s t : State} (h : t.stores = s.stores) : t.core.cnum = s.core.cnum :=
  congrArg (fun a : Stores => a.1.1) h

/-- What TASK_ENTRY makes of a header read and the pages filled after it: the next state, none while a read waits. -/
def State.entryOutcome (who : Reader) (k : Task) (arg : Word) : Option (Except (Nat × Nat × Nat) Entry) × State → Option State
  | (none, u) => u.waited who
  | (some (.error e), u) => some ((u.endRead who).entryFault k e.1 e.2.1 e.2.2)
  | (some (.ok e), u) =>
    match State.fillPages k.asid e e.ovls u with
    | .error a => some ((if k.entered then u.endRead who else (u.endRead who).enter k arg e).pageFault a)
    | .wait v => v.waited who
    | .ok v => some (if k.entered then (v.endRead who).goOn else (v.endRead who).enter k arg e)

/-- The task of the core in focus waits to enter, with the header and the argument that its launch's node names. -/
def State.awaitsEntry (s : State) (k : Task) (l : Launch) (tt : Nat) (arg : Word) : Prop :=
  s.core.task = some k ∧ k.started = false ∧ (s.core.cstate = 0 ∨ s.core.cstate = 5) ∧ s.readWaits (.entry s.core.cnum) = false ∧
  s.launch k.serial = some l ∧ ∃ nd pl d g m, l.nodes[k.node]? = some nd ∧ nd.kind = .task pl d tt g m arg

theorem execTaskEntry_outcome {s t : State} {k : Task} {l : Launch} {tt : Nat} {arg : Word} (h : s.awaitsEntry k l tt arg)
    (ht : State.entryOutcome (.entry s.core.cnum) k arg (s.readHeader l tt) = some t) (hnum : t.core.cnum = s.core.cnum) :
    execTaskEntry s.core.cnum s = .next t := by
  obtain ⟨hk, hs, hc, hw, hl, nd, pl, d, g, m, hn, hd⟩ := h
  have hcs : (s.core.cstate == 0 || s.core.cstate == 5) = true := by simpa using hc
  refine (congrArg (enabledOr _) (State.atCore?_self s t _ ?_ hnum)).trans rfl
  rw [← ht]
  simp only [hk, hs, hcs, hw, hl, hn, hd, Option.map_some, Bool.not_true, Bool.or_false, Bool.false_eq_true, if_false]
  obtain ⟨o, u, hr⟩ : ∃ o u, s.readHeader l tt = (o, u) := ⟨_, _, rfl⟩
  rw [hr]
  rcases o with _ | _ | e
  · rfl
  · rfl
  · rfl

theorem State.readHeader_cnum {s u : State} {l : Launch} {tt : Nat} {o} (h : s.readHeader l tt = (o, u)) : u.core.cnum = s.core.cnum :=
  State.cnum_of_stores (by simpa [h] using s.readHeader_stores l tt)

/-- With its pages resident the task enters, or goes on if it had entered. -/
theorem execTaskEntry_filled {s u v : State} {k : Task} {l : Launch} {tt : Nat} {arg : Word} {e : Entry} (h : s.awaitsEntry k l tt arg)
    (hr : s.readHeader l tt = (some (.ok e), u)) (hv : State.fillPages k.asid e e.ovls u = .ok v) :
    execTaskEntry s.core.cnum s = .next (if k.entered then (v.endRead (.entry s.core.cnum)).goOn
      else (v.endRead (.entry s.core.cnum)).enter k arg e) := by
  have hnum : v.core.cnum = s.core.cnum := (State.cnum_of_stores (State.fillPages_stores (.inl hv))).trans (State.readHeader_cnum hr)
  refine execTaskEntry_outcome h (by simp only [State.entryOutcome, hr, hv]) ?_
  split
  · exact (State.cnum_of_stores (State.goOn_stores _)).trans hnum
  · exact hnum

/-- A page that cannot be filled is the task's fault; its entry state is loaded all the same (R55). -/
theorem execTaskEntry_unfilled {s u : State} {k : Task} {l : Launch} {tt : Nat} {arg : Word} {e : Entry} {a : Nat}
    (h : s.awaitsEntry k l tt arg) (hr : s.readHeader l tt = (some (.ok e), u)) (ha : State.fillPages k.asid e e.ovls u = .error a) :
    execTaskEntry s.core.cnum s = .next ((if k.entered then u.endRead (.entry s.core.cnum)
      else (u.endRead (.entry s.core.cnum)).enter k arg e).pageFault a) := by
  refine execTaskEntry_outcome h (by simp only [State.entryOutcome, hr, ha]) ?_
  refine (State.cnum_of_stores (State.pageFault_stores _ a)).trans ?_
  split <;> exact (State.readHeader_cnum hr :)

/-- A header that fails its checks is the task's fault (R306). -/
theorem execTaskEntry_badHeader {s u : State} {k : Task} {l : Launch} {tt : Nat} {arg : Word} {e : Nat × Nat × Nat}
    (h : s.awaitsEntry k l tt arg) (hr : s.readHeader l tt = (some (.error e), u)) :
    execTaskEntry s.core.cnum s = .next ((u.endRead (.entry s.core.cnum)).entryFault k e.1 e.2.1 e.2.2) := by
  have hnum : (u.endRead (.entry s.core.cnum)).core.cnum = s.core.cnum := (State.readHeader_cnum hr :)
  exact execTaskEntry_outcome h (by rw [hr]; rfl) ((State.cnum_of_stores (State.entryFault_stores _ _ _ _ _)).trans hnum)

/-- An error that no WAIT consumed stops the task's launch (R54). -/
def State.noteError (s : State) (k : Task) : State :=
  match s.launch k.serial with
  | some l => if s.core.unconsumed && !s.core.front.departed then s.setLaunch (l.stop 3 k.node) else s
  | none => s

theorem State.noteError_stores (s : State) (k : Task) : (s.noteError k).stores = s.stores := by
  unfold State.noteError; split <;> simp

/-- The core in focus is free, its task completed unless it was re-dispatched. -/
def State.freed (s : State) (k : Task) : State :=
  let v := { s.noteError k with core := (s.noteError k).core.retired }
  if k.redone then v else v.taskDone k

theorem State.taskDone_core (s : State) (k : Task) : (s.taskDone k).core = s.core := by
  have hw : ∀ (u : State) l as, (u.walkGraph l as).core = u.core := fun u l as => by
    unfold State.walkGraph; dsimp only
    split
    · exact (State.core_of_apart (State.acts_apart actFuel u l as) :)
    · rfl
  unfold State.taskDone; dsimp only
  split
  · rfl
  · split
    · rfl
    · split
      · rfl
      · rw [hw]; rfl

theorem State.freed_task (s : State) (k : Task) : (s.freed k).core.task = none := by
  unfold State.freed; dsimp only
  split
  · rfl
  · rw [State.taskDone_core]; rfl

theorem State.freed_stores (s : State) (k : Task) : (s.freed k).stores = s.stores := by
  simpa [State.freed] using s.noteError_stores k

/-- A core whose writes are performed is freed (R53, R60). -/
theorem execCoreRetire_frees {s : State} {k : Task} (hk : s.core.task = some k) (hs : k.started = true) (hm : s.mayRetire = true)
    (hl : s.coveredLines s.core.cid s.core.cnum (fun _ => true) = []) (hf : s.coveredFans s.core.cnum (fun _ => true) = []) :
    execCoreRetire s.core.cnum s = .next (s.freed k).ovlSettle.regate.hearthRun := by
  refine (congrArg (enabledOr _) (State.atCore?_self s _ _ ?_ (State.cnum_of_stores (by simp [State.freed_stores])))).trans rfl
  simp only [hk, hs, hm, hl, hf, List.isEmpty_nil, Bool.not_true, Bool.or_false, Bool.false_eq_true, if_false]
  rfl

/-- Settles O53: each clause by the lemma about its event. -/
theorem hearthEvents : Obligations.HearthEvents := by
  intro s n
  refine ⟨fun q pa hon hst hsy hw hm hf hp => ?_, fun q hon hst hsy hne hcfg hms hw hf => ?_, ?_, fun l hl hr hu ht => ?_,
    fun k l nd pl d tt g m arg hk hs hc hw hl hn hd => ?_, fun k hk hs hm hl hf => ?_⟩
  · obtain ⟨l2, h2⟩ := s.homeFetch_spec pa 8
    refine ⟨_, execTailWordChange_mapped hon hst hsy hw hm hf hp, ?_, ?_, ?_, ?_⟩
    · rw [State.queue_setQueue]
    · rw [State.queue_setQueue]
    · rw [h2]; rfl
    · rw [h2]; rfl
  · have hready : s.recordReady q := ⟨hon, hst, hsy, hne, hcfg, hms, hw, hf⟩
    refine ⟨fun h => execLaunchRecord_stops hready (by decide) (State.readRecord_overfull h), fun h ha => ?_,
      fun code u hr => execLaunchRecord_ready hready hr, fun l u hr => ?_⟩
    · obtain ⟨u, hr⟩ := State.readRecord_asidOff h ha
      exact execLaunchRecord_stops hready (by decide) hr
    · refine ⟨_, execLaunchRecord_ready hready hr, ?_, ?_⟩
      · exact congrArg (fun i => i.2.1) ((u.endRead (.record q)).acceptRecord_intake q (s.queue q) l)
      · exact congrArg LQueue.head ((u.endRead (.record q)).acceptRecord_queue q (s.queue q) l)
  · exact ⟨_, rfl, congrArg (fun i => i.2.2) (State.hearthRun_intake _)⟩
  · have hp := (s.setLaunch { l with reported := true }).post_apart ⟨11, 0xFFFF, 0, 0, l.serial⟩
    refine ⟨_, execUnplaceableReport_posts hl hr hu ht, ?_, (State.core_of_apart hp :), fun hwf hroom => ?_⟩
    · have hk := State.launch_setLaunch (l := { l with reported := true }) hl
      rw [State.launch] at hk ⊢
      rw [State.launches_of_apart hp, hk]; rfl
    · exact ⟨State.post_evtail (s := s.setLaunch _) hroom _, State.post_record (s := s.setLaunch _) hwf hroom _⟩
  · have h : s.awaitsEntry k l tt arg := ⟨hk, hs, hc, hw, hl, nd, pl, d, g, m, hn, hd⟩
    refine ⟨fun e u v hr hv => ?_, fun e u a hr ha => ?_, fun e u => execTaskEntry_badHeader h⟩
    · have ht := execTaskEntry_filled h hr hv
      exact ⟨fun he => by rw [he] at ht; exact ht, fun he => by rw [he] at ht; exact ht⟩
    · have ht := execTaskEntry_unfilled h hr ha
      exact ⟨fun he => by rw [he] at ht; exact ht, fun he => by rw [he] at ht; exact ht⟩
  · exact ⟨_, _, execCoreRetire_frees hk hs hm hl hf, rfl, s.freed_task k⟩

end Sys2Proof.Machine
end

section
/-! A slot that is not enabled (03 R74, R76). -/
namespace Sys2Proof.Machine
open Sys2Proof

/-- A suppressed slot of a queued matrix instruction has no effect. -/
theorem queue_off {i : Instr} {h : Head} {s : State} {p : Plan} (he : s.core.enabled h = false) : queue i h s p = .next s :=
  issue_off he

/-- A suppressed barrier slot does not arrive. -/
theorem barIssue_off {i : Instr} {h : Head} {o : CB} {s : State} {body : State → Host.Outcome State Fault Refusal}
    (he : s.core.enabled h = false) : barIssue i h o s body = .next s := by
  simp [barIssue, he]

/-- A suppressed CMPT compares nothing. -/
theorem execCmpt_off {h : Head} {o : SR} {s : State} (he : s.core.enabled h = false) : execCmpt h o s = .next s := by
  simp [execCmpt, he]

/-- A suppressed KLD starts nothing, into a ring or not. -/
theorem execKld_off {h : Head} {o : CK} {s : State} (he : s.core.enabled h = false) : execKld h o s = .next s := by
  unfold execKld
  split <;> exact issue_off he

/-- A suppressed SSTEP neither arrives nor waits. -/
theorem execSstep_off {h : Head} {o : CB} {s : State} (he : s.core.enabled h = false) : execSstep h o s = .next s := by
  unfold execSstep
  exact barIssue_off he

/-- A vector access without an enabled element starts nothing. -/
theorem vecIssue_off {i : Instr} {h : Head} {o : CV} {legal : Bool} {s : State} (he : s.core.enabledBytes h (esize o.ty) = []) :
    vecIssue i h o legal s = .next s := by
  simp [vecIssue, he]

/-- Settles O11: `cases he` leaves the opcodes that have a word, the class the three kinds of slot; the shared issue of each is suppressed. -/
theorem suppressedSlots : Obligations.SuppressedSlots := by
  intro s i e he hc hg
  cases i with
  | vldg h o => exact vecIssue_off hg
  | vstg h o => exact vecIssue_off hg
  | cmpt h o => cases he; exact execCmpt_off hg
  | kld h o => cases he; exact execKld_off hg
  | bar h o => cases he; exact (barIssue_off hg : execBar h o s = _)
  | bara h o => cases he; exact (barIssue_off hg : execBara h o s = _)
  | barw h o => cases he; exact (barIssue_off hg : execBarw h o s = _)
  | sstep h o => cases he; exact execSstep_off hg
  | _ => cases he <;> rcases hc with hc | hc | hc <;> cases hc <;> exact issue_off hg

end Sys2Proof.Machine
end

section
/-! The landing of results (03 R58, R61): the last due entry of the queue decides what a register holds. -/
namespace Sys2Proof.Machine
open Sys2Proof

/-! ### Reading a scalar predicate after a write -/

/-- A bit of the scalar predicates after a write under a mask; f0 is never written (03 R73). -/
theorem Core.f_setF (c : Core) (m v : BitVec 16) (r : FReg) (hr : r ≠ 0) :
    (c.setF m v).f r = if m.getLsbD r.toNat then v.getLsbD r.toNat else c.f r := by
  have hn : r.toNat ≠ 0 := fun h => hr (BitVec.eq_of_toNat_eq h)
  have hb : (1 : BitVec 16).getLsbD r.toNat = false := BitVec.getLsbD_one.trans (by simp [hn])
  have h16 : r.toNat < 16 := r.isLt
  simp only [Core.f, Core.setF, beq_eq_false_iff_ne.mpr hr, Bool.false_or, BitVec.getLsbD_or, BitVec.getLsbD_and, BitVec.getLsbD_not, hb, h16]
  cases m.getLsbD r.toNat <;> simp

/-! ### One result -/

/-- A landing result that is not of x[r] leaves it. -/
theorem Core.landVal_keeps_x (c : Core) (v : PVal) (r : XReg) (h : ∀ w, v ≠ .x r w) : (c.landVal v).x r = c.x r := by
  cases v with
  | x q w => exact c.x_setX_other q r w (fun e => h w (by rw [e]))
  | _ => simp [Core.landVal, Core.x]

/-- A landing result that does not name f[r] leaves it. -/
theorem Core.landVal_keeps_f (c : Core) (v : PVal) (r : FReg) (h : ∀ m w, v = .f m w → m.getLsbD r.toNat = false) :
    (c.landVal v).f r = c.f r := by
  cases v with
  | f m w =>
    by_cases hr : r = 0
    · subst hr; rfl
    · rw [Core.landVal_f, Core.f_setF _ _ _ _ hr, h m w rfl]; rfl
  | _ => simp [Core.landVal, Core.f]

/-- A landing result that names no byte at an address of register space leaves the byte. -/
theorem Core.landVal_keeps_rf (c : Core) (hc : c.regs.rf.wf = true) (v : PVal) (k : Nat)
    (h : ∀ a bs, v = .v a bs → ∀ e ∈ bs, e.1 / 256 * 0x80000 + a + e.1 % 256 ≠ k) :
    (c.landVal v).regs.rf.get k = c.regs.rf.get k := by
  cases v with
  | v a bs =>
    refine Memory.get_setCells_other hc fun cell hcell => ?_
    obtain ⟨e, he, rfl⟩ := List.mem_map.mp hcell
    exact h a bs rfl e he
  | _ => simp [Core.landVal]

/-! ### All results that are due -/

/-- The core after the due entries of its pending-write queue, in queue order. -/
def Core.dueLanded (c : Core) : Core := (c.pipe.pwq.filter (fun e => e.dist == 0)).foldl (fun k e => k.landVal e.val) c

theorem Core.land_x (c : Core) (r : XReg) : c.land.x r = c.dueLanded.x r := rfl
theorem Core.land_f (c : Core) (r : FReg) : c.land.f r = c.dueLanded.f r := rfl
theorem Core.land_rf (c : Core) : c.land.regs.rf = c.dueLanded.regs.rf := rfl

theorem Core.dueLanded_bank (c : Core) : c.dueLanded.regs.bank = c.regs.bank :=
  foldl_keeps (fun k : Core => k.regs.bank) _ (fun k e => by cases e.val <;> simp [Core.landVal]) _ c

/-- What no due entry changes stands. -/
theorem Core.dueLanded_keeps {α : Type} {c : Core} (f : Core → α) (h : ∀ d ∈ c.pipe.pwq, d.dist = 0 → ∀ k : Core, f (k.landVal d.val) = f k) :
    f c.dueLanded = f c := by
  refine List.foldlRecOn (motive := fun k => f k = f c) _ _ rfl fun k hk d hd => ?_
  obtain ⟨hm, h0⟩ := List.mem_filter.mp hd
  exact (h d hm (by simpa using h0) k).trans hk

/-- What a due entry puts in place, and no due entry behind it changes, is there afterwards. -/
theorem Core.dueLanded_last {α : Type} {c : Core} (f : Core → α) {pre post : List Pend} {e : Pend} {v : α}
    (hq : c.pipe.pwq = pre ++ e :: post) (he : e.dist = 0) (hv : ∀ k : Core, f (k.landVal e.val) = v)
    (h : ∀ d ∈ post, d.dist = 0 → ∀ k : Core, f (k.landVal d.val) = f k) : f c.dueLanded = v := by
  unfold Core.dueLanded
  rw [hq, List.filter_append, List.filter_cons_of_pos (by simp [he]), List.foldl_append, List.foldl_cons]
  refine List.foldlRecOn (motive := fun k => f k = v) _ _ (hv _) fun k hk d hd => ?_
  obtain ⟨hm, h0⟩ := List.mem_filter.mp hd
  exact (h d hm (by simpa using h0) k).trans hk

/-- A byte of register space that no due entry names stands. -/
theorem Core.dueLanded_rf {c : Core} (hc : c.storageWf) {k : Nat}
    (h : ∀ d ∈ c.pipe.pwq, d.dist = 0 → ∀ a bs, d.val = .v a bs → ∀ e ∈ bs, e.1 / 256 * 0x80000 + a + e.1 % 256 ≠ k) :
    c.dueLanded.regs.rf.get k = c.regs.rf.get k := by
  refine (List.foldlRecOn (motive := fun u : Core => u.store.canonical ∧ u.regs.rf.get k = c.regs.rf.get k) _ _ ⟨hc, rfl⟩
    fun u ⟨hu, hk⟩ d hd => ?_).2
  obtain ⟨hm, h0⟩ := List.mem_filter.mp hd
  exact ⟨(u.landVal_keeps d.val).canonical hu, (u.landVal_keeps_rf hu.1 d.val k (h d hm (by simpa using h0))).trans hk⟩

/-- A byte of the banks that no due write names stands. -/
theorem Core.land_bank {c : Core} (hc : c.storageWf) {k : Nat} (h : ∀ d ∈ c.pipe.bwq, d.dist = 0 → ∀ e ∈ d.cells, e.1 ≠ k) :
    c.land.regs.bank.get k = c.regs.bank.get k := by
  have hb : c.land.regs.bank = (c.pipe.bwq.filter (fun e => e.dist == 0)).foldl (fun m e => m.setCells e.cells) c.regs.bank :=
    congrArg (List.foldl _ · _) c.dueLanded_bank
  rw [hb]
  refine (List.foldlRecOn (motive := fun m : Memory => m.wf = true ∧ m.get k = c.regs.bank.get k) _ _ ⟨hc.2, rfl⟩
    fun m ⟨hm, hk⟩ d hd => ?_).2
  obtain ⟨hd, h0⟩ := List.mem_filter.mp hd
  exact ⟨Memory.setCells_wf hm, (Memory.get_setCells_other hm (h d hd (by simpa using h0))).trans hk⟩

/-- Settles O28: each register by the last due entry that names it, storage by the cells that the due entries name. -/
theorem landingWrites : Obligations.LandingWrites := by
  intro c hc
  refine ⟨fun r v pre post e hr hq he hv hpost => ?_, fun r h => ?_, fun r m v pre post e hr hq he hv hm hpost => ?_, fun r h => ?_,
    rfl, rfl, fun k h => ?_, fun k h => c.land_bank hc h, rfl, rfl⟩
  · refine Core.dueLanded_last (fun u => u.x r) hq he (fun k => ?_) fun d hd h0 k => k.landVal_keeps_x d.val r (hpost d hd h0)
    rw [hv]; exact k.x_setX_same r v hr
  · exact Core.dueLanded_keeps (fun u => u.x r) fun d hd h0 k => k.landVal_keeps_x d.val r (h d hd h0)
  · refine Core.dueLanded_last (fun u => u.f r) hq he (fun k => ?_) fun d hd h0 k => k.landVal_keeps_f d.val r (hpost d hd h0)
    rw [hv, Core.landVal_f, Core.f_setF _ _ _ _ hr, hm]; rfl
  · exact Core.dueLanded_keeps (fun u => u.f r) fun d hd h0 k => k.landVal_keeps_f d.val r (h d hd h0)
  · rw [Core.land_rf]; exact Core.dueLanded_rf hc h

end Sys2Proof.Machine
end

section
/-! The hard-wired registers (03 R73). -/
namespace Sys2Proof.Machine
open Sys2Proof

/-- The mask of a scalar predicate holds its bit alone. -/
theorem fmask_bit (r q : FReg) : (fmask r).getLsbD q.toNat = decide (q = r) := by
  have hq : q.toNat < 16 := q.isLt
  unfold fmask
  rw [BitVec.getLsbD_shiftLeft, show (1 : BitVec 16) = 1#16 from rfl, BitVec.getLsbD_one, Bool.eq_iff_iff]
  simp only [hq, decide_true, Bool.true_and, Bool.and_eq_true, Bool.not_eq_true', decide_eq_false_iff_not, decide_eq_true_eq,
    BitVec.toNat_eq]
  omega

/-- The value of a scalar predicate, at its bit. -/
theorem fval_bit (r : FReg) (b : Bool) : (fval r b).getLsbD r.toNat = b := by
  unfold fval
  cases b
  · simp
  · simp [fmask_bit]

/-- A write that names f0 alone is discarded. -/
theorem Core.setF_one (c : Core) (v : BitVec 16) : c.setF 1 v = c := by
  have hf : (c.regs.f &&& BitVec.allOnes 16) ||| (v &&& 0#16) = c.regs.f := by
    rw [BitVec.and_allOnes, BitVec.and_zero, BitVec.or_zero]
  exact congrArg (fun f => { c with regs := { c.regs with f := f } }) hf

/-- Settles O29: the three discarded writes, and reads after the other writes. -/
theorem hardWiredRegisters : Obligations.HardWiredRegisters := by
  intro c
  refine ⟨rfl, rfl, fun g => rfl, fun v => rfl, c.setF_one, fun m v => rfl, fun r hr v => ⟨c.x_setX_same r v hr, fun q hq => c.x_setX_other r q v hq⟩,
    fun r hr b => ⟨?_, fun q hq => ?_⟩, fun a bs => ⟨rfl, rfl, rfl⟩, c.setX_rf, c.setF_rf, c.setP_rf⟩
  · rw [Core.f_setF _ _ _ _ hr, fmask_bit, fval_bit]; simp
  · by_cases h0 : q = 0
    · subst h0; rfl
    · rw [Core.f_setF _ _ _ _ h0, fmask_bit]; simp [hq]

end Sys2Proof.Machine
end

section
/-! Program traps (03 R85, R86, 08 R214): entry with and without a handler, and the return. -/
namespace Sys2Proof.Machine
open Sys2Proof

/-! ### A task that leaves its core -/

@[simp] theorem Core.barrierDone_front (c : Core) (b g ab) : (c.barrierDone b g ab).front = c.front := by
  unfold Core.barrierDone; dsimp only; split <;> rfl
@[simp] theorem Core.barrierDone_frec (c : Core) (b g ab) : (c.barrierDone b g ab).drv.frec = c.drv.frec := by
  unfold Core.barrierDone; dsimp only; split <;> rfl
@[simp] theorem dropLock_frec (cid pos : Nat) (c : Core) : (dropLock cid pos c).drv.frec = c.drv.frec := by
  unfold dropLock; split <;> rfl
@[simp] theorem dropHeldLock_frec (cid pos : Nat) (c : Core) : (dropHeldLock cid pos c).drv.frec = c.drv.frec := by
  unfold dropHeldLock; split <;> rfl
@[simp] theorem dropSavedLock_frec (cid pos : Nat) (t : Task) (c : Core) : (dropSavedLock cid pos t c).drv.frec = c.drv.frec := by
  unfold dropSavedLock; split
  · split <;> rfl
  · rfl

/-- Settling a barrier leaves alone what the end of a generation leaves alone in a core. -/
theorem State.settleGroups_keeps {α : Type} (f : Core → α) (hf : ∀ (c : Core) b g ab, f (c.barrierDone b g ab) = f c) (s : State) :
    f s.settleGroups.core = f s.core := by
  have hg : ∀ n (u : State) (b : BGroup), f (State.settleGroup n u b).1.core = f u.core := by
    intro n
    induction n with
    | zero => intro u b; rfl
    | succ n ih =>
      intro u b
      unfold State.settleGroup; dsimp only
      split
      · rw [ih]; unfold State.mapCores; dsimp only; split
        · exact hf _ _ _ _
        · rfl
      · rfl
  exact foldl_keeps (fun p : State × List BGroup => f p.1.core) _ (fun p b => hg _ p.1 b) s.groups (s, [])

/-- Leaving the lockstep group leaves the fault record. -/
theorem State.leaveLock_frec (s : State) : s.leaveLock.core.drv.frec = s.core.drv.frec := by
  unfold State.leaveLock State.dropMember State.mapCores; dsimp only
  rw [dropHeldLock_frec]
  split
  · rfl
  · split <;> simp

/-- A task that leaves its core leaves the fault record there. -/
theorem State.depart_frec (s : State) (status : Nat) : (s.depart status).core.drv.frec = s.core.drv.frec := by
  unfold State.depart
  split
  · rfl
  · exact (State.settleGroups_keeps (fun c => c.drv.frec) Core.barrierDone_frec _).trans s.leaveLock_frec

/-- A core with a task has been left by it. -/
theorem State.depart_departed (s : State) (status : Nat) :
    (s.depart status).core.front.departed = (s.core.task.isSome || s.core.front.departed) := by
  unfold State.depart
  split
  · next h => simp [h]
  · next h => simpa [h] using State.settleGroups_keeps (fun c => c.front.departed) (fun c b g ab => by rw [Core.barrierDone_front]) _

/-- The code stands in the low byte of a fault record. -/
theorem frecWord_code (slot cls tok code : Nat) (h : code < 256) : fld (frecWord slot cls tok code) 0 8 = code := by
  unfold frecWord
  rw [fld_ofNat _ _ _ (by decide)]
  omega

/-- Posting an event leaves the core. -/
theorem State.post_core (s : State) (e : EventRec) : (s.post e).core = s.core := State.core_of_apart (s.post_apart e)
/-- Filling an error bank leaves the core. -/
theorem State.logBank_core (s : State) (b : Nat) (e : ErrBank) (filled : Bool) : (s.logBank b e filled).core = s.core := by
  unfold State.logBank; dsimp only
  split
  · exact State.post_core _ _
  · rfl
/-- What is recorded of a fault leaves the core. -/
theorem State.logFault_core (s : State) (slot code : Nat) : (s.logFault slot code).core = s.core := by
  unfold State.logFault; dsimp only
  split
  · exact State.logBank_core _ _ _ _
  · rfl

/-- A fault that ends the task: its record, and the task has left the core (03 R86, 16 R345). -/
theorem State.systemFaultAs_ends (s : State) (slot code tok : Nat) (info : Word) :
    (s.systemFaultAs 2 slot code tok info).core.drv.frec = frecWord slot 2 tok code ∧
    (s.systemFaultAs 2 slot code tok info).core.front.departed = (s.core.task.isSome || s.core.front.departed) := by
  unfold State.systemFaultAs
  simp only [if_true]
  rw [State.depart_frec, State.depart_departed, State.post_core, State.logFault_core]
  exact ⟨rfl, rfl⟩

/-- ILLOP ends the task and stands in the code of FREC. -/
theorem State.systemFault_illop (s : State) (slot tok : Nat) (info : Word) :
    fld (s.systemFault slot cILLOP tok info).core.drv.frec 0 8 = cILLOP ∧
    (s.systemFault slot cILLOP tok info).core.front.departed = (s.core.task.isSome || s.core.front.departed) := by
  obtain ⟨hf, hd⟩ := s.systemFaultAs_ends slot cILLOP tok info
  refine ⟨?_, hd⟩
  rw [show s.systemFault slot cILLOP tok info = s.systemFaultAs 2 slot cILLOP tok info from rfl, hf]
  exact frecWord_code _ _ _ _ (by decide)

/-! ### Entry and return -/

/-- Fetching depends on the cached overlay pages alone. -/
theorem Core.fetch_congr {c d : Core} (h : ∀ a, c.lineAt a = d.lineAt a) (n : Nat) (pc : BitVec 56) : c.fetch n pc = d.fetch n pc := by
  induction n generalizing pc with
  | zero => rfl
  | succ n ih => simp only [Core.fetch, h, ih]

@[simp] theorem Core.trapTaken_pc (c : Core) (cause : Nat) : (c.trapTaken cause).front.pc = c.front.pc := by
  unfold Core.trapTaken; dsimp only; split_ifs <;> rfl
@[simp] theorem Core.trapTaken_departed (c : Core) (cause : Nat) : (c.trapTaken cause).front.departed = c.front.departed := by
  unfold Core.trapTaken; dsimp only; split_ifs <;> rfl

/-- Taking a cause does not move the next bundle. -/
@[simp] theorem Core.trapTaken_nextBundle (c : Core) (cause : Nat) : (c.trapTaken cause).nextBundle = c.nextBundle := by
  unfold Core.nextBundle
  rw [Core.trapTaken_pc, Core.fetch_congr (c := c.trapTaken cause) (d := c) (fun _ => rfl)]

/-- TCAUSE in a handler: TH, CODE and CAUSE (03 R85). -/
theorem tcause_fields {cause code : Nat} (hc : cause ≤ 4) (hk : code < 2 ^ 23) :
    let w : Word := BitVec.ofNat 64 (2 ^ 63 + code * 2 ^ 24 + cause)
    w.getLsbD 63 = true ∧ fld w 0 8 = cause ∧ fld w 24 23 = code := by
  intro w
  have hf := fun lo n h => fld_ofNat (2 ^ 63 + code * 2 ^ 24 + cause) lo n h
  refine ⟨?_, ?_, ?_⟩
  · have hth := fld_testBit w 63 1 0
    rw [hf 63 1 (by decide), show (2 ^ 63 + code * 2 ^ 24 + cause) / 2 ^ 63 % 2 ^ 1 = 1 by omega] at hth
    simpa using hth.symm
  · rw [hf 0 8 (by decide)]; omega
  · rw [hf 24 23 (by decide)]; omega

/-- The state that TVEC = 0 hands to the driver. Here and below the word of TCAUSE is any word, so that no check of an update evaluates it. -/
def State.trapRefused (s : State) (cause : Nat) (w addr : Word) : State :=
  let c := s.core.trapTaken cause
  { s with core := { c with ctl := { c.ctl with tcause := w, taddr := addr } } }

/-- The state that the handler begins with. -/
def State.trapHandled (s : State) (cause : Nat) (w addr : Word) : State :=
  let c := s.core.trapTaken cause
  { s with core := { c with
      ctl := { c.ctl with epc := c.nextBundle.zeroExtend 64, tcause := w, taddr := addr },
      pipe := { c.pipe with pwq := [], aside := c.pipe.pwq },
      front := { c.front with
        pc := c.ctl.tvec.extractLsb' 0 56, target := none, bubbles := 2, after := .issue, held := false, holds := [],
        arrv := c.front.arrv.map (fun k => k + 1000) } } }

/-- The two branches of trap entry, by TVEC. -/
theorem State.trapEntry_eq (s : State) (cause code : Nat) (addr : Word) :
    s.trapEntry cause code addr =
      if s.core.ctl.tvec = 0 then (s.trapRefused cause (BitVec.ofNat 64 (code * 2 ^ 24 + cause)) addr).systemFault 15 cILLOP 0xFF 0
      else s.trapHandled cause (BitVec.ofNat 64 (2 ^ 63 + code * 2 ^ 24 + cause)) addr := rfl

theorem State.trapRefused_task (s : State) (cause : Nat) (w addr : Word) : (s.trapRefused cause w addr).core.task = s.core.task := rfl
theorem State.trapRefused_departed (s : State) (cause : Nat) (w addr : Word) :
    (s.trapRefused cause w addr).core.front.departed = s.core.front.departed := s.core.trapTaken_departed cause

/-- Entry saves EPC, TADDR and the queue, and goes to TVEC after two bubble cycles (03 R85). -/
theorem State.trapHandled_saves (s : State) (cause : Nat) (w addr : Word) :
    let t := s.trapHandled cause w addr
    t.core.ctl.epc = s.core.nextBundle.zeroExtend 64 ∧ t.core.ctl.tcause = w ∧ t.core.ctl.taddr = addr ∧ t.core.pipe.pwq = [] ∧
    t.core.pipe.aside = s.core.pipe.pwq ∧ t.core.front.pc = s.core.ctl.tvec.extractLsb' 0 56 ∧ t.core.front.bubbles = 2 :=
  ⟨congrArg (BitVec.zeroExtend 64) (s.core.trapTaken_nextBundle cause), rfl, rfl, rfl, rfl, rfl, rfl⟩
/-- Registers, outstanding commands and memory stand at entry. -/
theorem State.trapHandled_keeps (s : State) (cause : Nat) (w addr : Word) :
    let t := s.trapHandled cause w addr
    t.core.regs = s.core.regs ∧ t.core.units = s.core.units ∧ t.memory = s.memory := ⟨rfl, rfl, rfl⟩

/-- The core that returns from a handler, with any word of TCAUSE. -/
def Core.resumed (c : Core) (w : Word) : Core :=
  { c with
    ctl := { c.ctl with tcause := w },
    pipe := { c.pipe with pwq := c.pipe.pwq.filter Pend.isVote },
    front := { c.front with
      pc := c.ctl.epc.extractLsb' 0 56, target := none, bubbles := 2, after := .resume,
      arrv := (c.front.arrv.filter (fun k => decide (1000 ≤ k))).map (fun k => k - 1000) } }

theorem Core.eretResume_eq (c : Core) : c.eretResume = c.resumed (putFld c.ctl.tcause 63 1 0) := rfl

/-- ERET goes to EPC after two bubble cycles; the results set aside wait for its bundle (08 R214). -/
theorem Core.resumed_front (c : Core) (w : Word) :
    let d := c.resumed w
    d.ctl.tcause = w ∧ d.front.pc = c.ctl.epc.extractLsb' 0 56 ∧ d.front.bubbles = 2 ∧ d.front.after = .resume := ⟨rfl, rfl, rfl, rfl⟩
/-- Registers and commands stand at ERET, and what rejoins the queue goes before the votes of the handler. -/
theorem Core.resumed_keeps (c : Core) (w : Word) :
    let d := c.resumed w
    d.regs = c.regs ∧ d.units = c.units ∧ d.pipe.aside = c.pipe.aside ∧
    d.rejoin.pipe.pwq = c.pipe.aside ++ c.pipe.pwq.filter Pend.isVote ∧ d.rejoin.pipe.aside = [] ∧ d.rejoin.regs = c.regs :=
  ⟨rfl, rfl, rfl, rfl, rfl, rfl⟩

/-- Settles O32: each branch of trap entry, and the updates of ERET. -/
theorem programTraps : Obligations.ProgramTraps := by
  refine ⟨fun s cause code addr _ hc hk => ⟨fun hv => ?_, fun hv => ?_⟩, fun c => ?_⟩
  · rw [State.trapEntry_eq, if_neg hv]
    obtain ⟨hth, hcause, hcode⟩ := tcause_fields hc hk
    obtain ⟨hepc, htc, hta, hpwq, haside, hpc, hbub⟩ := s.trapHandled_saves cause (BitVec.ofNat 64 (2 ^ 63 + code * 2 ^ 24 + cause)) addr
    obtain ⟨hregs, hunits, hmem⟩ := s.trapHandled_keeps cause (BitVec.ofNat 64 (2 ^ 63 + code * 2 ^ 24 + cause)) addr
    refine ⟨hepc, ?_, ?_, ?_, hta, hpwq, haside, hpc, hbub, hregs, hunits, hmem⟩
    · rw [Core.inHandler, htc]; exact hth
    · rw [htc]; exact hcause
    · rw [htc]; exact hcode
  · rw [State.trapEntry_eq, if_pos hv]
    obtain ⟨hf, hd⟩ := (s.trapRefused cause (BitVec.ofNat 64 (code * 2 ^ 24 + cause)) addr).systemFault_illop 15 0xFF 0
    rw [State.trapRefused_task, State.trapRefused_departed] at hd
    exact ⟨hf, hd⟩
  · rw [Core.eretResume_eq]
    obtain ⟨htc, hpc, hbub, hafter⟩ := c.resumed_front (putFld c.ctl.tcause 63 1 0)
    refine ⟨?_, hpc, hbub, hafter, c.resumed_keeps _⟩
    rw [Core.inHandler, htc, putFld_bit _ _ _ _ _ (by decide) (by decide)]
    rfl

end Sys2Proof.Machine
end

section
/-! The steps of the machine (log 1): an event of the agenda, and a bundle of the core that moves next. -/
namespace Sys2Proof.Machine
open Sys2Proof

/-- Settles O26: the branches of a move with an event to run. -/
theorem stepRunsEvent : Obligations.StepRunsEvent := by
  intro s t i rest ha
  refine ⟨fun hp hi hf hx => ?_, fun hp hi hm hw => ?_, fun hp hi => ?_, fun hp hi => ?_⟩
  · have hd : (s.mstate == 15 && writesBar0 i) = false := by
      rcases hf with h | h <;> simp [h]
    simp [step, State.move, hp, ha, hi, hd, hx]
  · simp [step, State.move, hp, ha, hi, hm, hw]
  · subst hi
    simp [step, State.move, hp, ha]
  · unfold step State.move
    rw [hp, ha]
    simp only [Bool.not_false, if_true]
    split
    · next h => exact absurd (List.cons.inj h).1 hi
    · rfl

/-! ### The slots of a bundle -/

/-- Slots that execute without fault or hold leave a trial with their state. -/
theorem Trial.foldl_slot (is : List Instr) (r : Trial) (t : State) (h : runsSlots r.st is t) : is.foldl Trial.slot r = { r with st := t } := by
  induction is generalizing r with
  | nil => rw [List.foldl_nil, ← (show r.st = t from h)]
  | cons i is ih =>
    obtain ⟨v, hx, hr, hs⟩ := h
    have h1 : r.slot i = { r with st := v } := by simp [Trial.slot, hx, hr]
    rw [List.foldl_cons, h1, ih _ hs]

/-- The trial of a bundle whose slots execute. -/
theorem State.present_runs {s t : State} {pc : BitVec 56} {b : Bundle} {line : List Byte} (he : s.core.emptyCycle = false)
    (hf : s.core.fetch fetchFuel s.core.front.pc = (pc, some line)) (hd : decodeBundle line = .ok b)
    (hr : runsSlots (s.begin.atBundle pc b.len) b.slots t) :
    s.present = ⟨t, pc, [], none, sumN (b.slots.map slotWeight), false, false, b.slots.filter isBarrier⟩ := by
  simp only [State.present, he, hf, hd, Bool.false_eq_true, if_false]
  exact Trial.foldl_slot _ _ t hr

/-! ### A core by itself -/

/-- Outside a lockstep group a core has no mates. -/
theorem State.mates_alone {s : State} (h : s.core.lockm = 0) : s.mates = [] := if_pos h
theorem State.group_alone {s : State} (h : s.core.lockm = 0) : s.group = [s.core.cnum] := by
  simp [State.group, State.mates_alone h]

/-- A core that is not held, has not ended and runs waits for nothing. -/
theorem State.progress_running {s : State} (hr : s.core.running = true) (hz : s.core.isFrozen = false) (he : s.core.emptyCycle = false) :
    s.progress = s := by
  have hw : s.core.waits = false := by
    simp only [Core.running, Core.isFrozen, Core.emptyCycle, Bool.and_eq_true, Bool.or_eq_false_iff, beq_iff_eq] at hr hz he
    simp [Core.waits, hr.1, hz.1.1, he.1.1]
  simp [State.progress, hw]

/-- The core in focus is the one of its number. -/
theorem State.coresOf_focus {s : State} (h : ∀ k ∈ s.others, k.cnum ≠ s.core.cnum) : s.coresOf [s.core.cnum] = [s.core] := by
  have ho : s.others.filter (fun c => [s.core.cnum].contains c.cnum) = [] :=
    List.filter_eq_nil_iff.mpr fun k hk => by simpa using h k hk
  rw [State.coresOf, State.cores, List.filter_cons_of_pos (by simp), ho]

/-- The period of a running core outside a lockstep group that is not frozen is its issue cycle, in a trap handler or not. -/
theorem State.period_alone {s : State} (hu : ∀ k ∈ s.others, k.cnum ≠ s.core.cnum) (hl : s.core.lockm = 0)
    (hi : s.issuers = [s.core.cnum]) (hr : s.core.running = true) (hz : s.core.isFrozen = false) :
    s.period = s.issueSet [s.core.cnum] [s.core.cnum] := by
  have hg : s.groupRuns = true := by simp [State.groupRuns, hr, State.mates_alone hl, hl]
  have ht : s.turn [s.core.cnum] [s.core.cnum] = s.issueSet [s.core.cnum] [s.core.cnum] := by
    simp [State.turn, State.coresOf_focus hu, hz]
  simp only [State.period, hi, hg, State.coresOf_focus hu, List.find?_singleton]
  cases hp : s.core.trapping
  · simp [ht]
  · simp [ht, State.atEach]

/-- The issue cycle of a core whose bundle executes: bus cycle, commit, Bellows' test. -/
theorem State.issueSet_runs {s t : State} {r : Trial} (hp : s.present = r) (ht : r.st = t) (hh : r.holds = []) (hf : r.fault = none)
    (hb : r.broken = false) (he : r.empty = false) (hx : r.flip = false) :
    s.issueSet [s.core.cnum] [s.core.cnum] = State.bellows [s.core.cnum] (t.busCycle.atCore s.core.cnum (fun v => v.commit r)) := by
  have htr : s.trials [s.core.cnum] = (t, [(s.core.cnum, r)]) := by
    simp [State.trials, State.focus_self, hp, ht]
  simp [State.issueSet, htr, hh, hf, hb, he, hx]

/-- The move of a running core outside a lockstep group, with nothing else due. -/
theorem State.advance_alone {s : State} (hn : s.chosen.autoGroup = none) (hu : ∀ k ∈ s.nextUp.others, k.cnum ≠ s.nextUp.core.cnum)
    (hl : s.nextUp.core.lockm = 0) (hi : s.nextUp.issuers = [s.nextUp.core.cnum]) (hr : s.nextUp.core.running = true)
    (hz : s.nextUp.core.isFrozen = false) (he : s.nextUp.core.emptyCycle = false) :
    s.advance = s.nextUp.issueSet [s.nextUp.core.cnum] [s.nextUp.core.cnum] := by
  have hp := State.progress_running hr hz he
  have hg : State.atEach s.nextUp s.chosen.group State.progress = s.nextUp := by
    rw [State.group_alone (s := s.chosen) hl]
    exact (s.nextUp.atCore_self State.progress (by rw [hp])).trans hp
  unfold State.advance
  dsimp only
  rw [hn]
  exact (congrArg State.period hg).trans (State.period_alone hu hl hi hr hz)

/-- Settles O25: the move of a core by itself is the issue cycle of its bundle. -/
theorem stepRunsBundle : Obligations.StepRunsBundle := by
  intro s t pc b hs hr hp
  obtain ⟨hpow, hag, hn, hu, hl, hi, hrun, hz, he, line, hf, hd⟩ := hs
  have hb : Trial.broken ⟨t, pc, [], none, sumN (b.slots.map slotWeight), false, false, b.slots.filter isBarrier⟩ = false := by
    unfold Trial.broken
    split
    · next n h =>
      obtain ⟨h1, h2⟩ := hp n h
      simp [h1, h2]
    · rfl
  have ha := State.advance_alone hn hu hl hi hrun hz he
  rw [State.issueSet_runs (State.present_runs he hf hd hr) rfl rfl rfl hb rfl rfl] at ha
  simp [step, State.move, hpow, hag, ha]

end Sys2Proof.Machine
end

section
/-! The events between bundles (03 R58, R63 to R65, R84 to R86; 14 R294) for the core in focus. -/
namespace Sys2Proof.Machine
open Sys2Proof

/-- An event of the core in focus, whose number its effect keeps. -/
theorem enabledOr_atCore?_self {s t : State} (name : String) {f : State → Option State} (ht : f s = some t) (hc : t.core.cnum = s.core.cnum) :
    enabledOr name (s.atCore? s.core.cnum f) = .next t := by
  rw [State.atCore?_self s t f ht hc, enabledOr_some]

/-- RESULT_LANDING raises a failed vote that is due, and lands results otherwise. -/
theorem execResultLanding_vote {s : State} (hv : s.core.voteDue = true) : execResultLanding s.core.cnum s = .next s.raiseVote :=
  enabledOr_atCore?_self _ (if_pos hv) (State.cnum_of_stores (State.systemFault_stores _ _ _ _ _))
theorem execResultLanding_land {s : State} (hv : s.core.voteDue = false) (hl : s.core.landDue = true) :
    execResultLanding s.core.cnum s = .next { s with core := s.core.land } :=
  enabledOr_atCore?_self _ (by simp [hv, hl]) s.core.land_keeps.num

/-- HELD_BUNDLE_ISSUE without a LOCK or UNLOCK among the holds: the hold ends. -/
theorem execHeldBundleIssue_plain {s : State} (hm : s.mayIssue = true) (hl : s.core.front.holds.any Hold.isLock = false) :
    execHeldBundleIssue s.core.cnum s = .next { s with core := s.core.unhold false } :=
  enabledOr_atCore?_self _ (by simp [hm, hl]) rfl
/-- With one it is granted in every partner too, and the period of these cores comes next (08 R206, R207). -/
theorem execHeldBundleIssue_lock {s : State} (hm : s.mayIssue = true) (hl : s.core.front.holds.any Hold.isLock = true) :
    execHeldBundleIssue s.core.cnum s = .next { s with
      core := s.core.unhold true,
      others := s.others.map (fun k => if (s.lockPartners.map (fun p => p.cnum)).contains k.cnum then k.unhold true else k),
      turns := s.core.cnum :: s.turns } :=
  enabledOr_atCore?_self _ (by simp only [hm, hl, Bool.not_true, Bool.false_eq_true, if_false, if_true]) rfl

/-- GATHER_FREEZE_END ends the freeze of the core. -/
theorem execGatherFreezeEnd_next {s : State} (hz : s.core.front.gatherFrz = some 0) :
    execGatherFreezeEnd s.core.cnum s = .next { s with core := { s.core with front := { s.core.front with gatherFrz := none } } } :=
  enabledOr_atCore?_self _ (if_pos hz) rfl

/-- A core out of its Bellows freeze. -/
def Core.unfrozen (c : Core) : Core := { c with front := { c.front with bellowsFrz := none } }

/-- BELLOWS_FREEZE_END ends the freeze of the core and of its group. -/
theorem execBellowsFreezeEnd_next {s : State} (hb : s.bellowsOver = true) :
    execBellowsFreezeEnd s.core.cnum s = .next { s with
      core := s.core.unfrozen, others := s.others.map (fun k => if (s.mates.map (fun p => p.cnum)).contains k.cnum then k.unfrozen else k) } :=
  enabledOr_atCore?_self _ (by simp only [hb, Bool.not_true, Bool.false_eq_true, if_false]; rfl) rfl

/-- A core that was updated with those of some numbers, if its own is among them. -/
theorem mem_map_if_cnum {l : List Core} {ks : List Nat} {f : Core → Core} {d : Core}
    (hd : d ∈ l.map (fun k => if ks.contains k.cnum then f k else k)) (hk : d.cnum ∈ ks) : ∃ c, d = f c := by
  obtain ⟨c, -, rfl⟩ := List.mem_map.mp hd
  split at hk
  · next h => exact ⟨c, if_pos h⟩
  · next h => exact absurd (List.contains_iff_mem.mpr hk) h

/-- PROGRAM_TRAP_ENTRY takes the first pending cause. -/
theorem execProgramTrapEntry_issue {s : State} {cause code : Nat} {addr : Word} (ht : s.trapDue = true) (ha : s.core.front.after ≠ .resume)
    (hc : s.core.trapCause = some (cause, code, addr)) : execProgramTrapEntry s.core.cnum s = .next (s.trapEntry cause code addr) :=
  enabledOr_atCore?_self _ (by simp only [ht, ha, hc, Bool.not_true, Bool.false_eq_true, if_false]) (State.cnum_of_stores (State.trapEntry_stores _ _ _ _))
/-- What an ERET not yet complete had set aside is back in the queue first. -/
theorem execProgramTrapEntry_resume {s : State} {cause code : Nat} {addr : Word} (ht : s.trapDue = true) (ha : s.core.front.after = .resume)
    (hc : s.core.trapCause = some (cause, code, addr)) :
    execProgramTrapEntry s.core.cnum s = .next (State.trapEntry { s with core := s.core.rejoin } cause code addr) := by
  have hr : s.core.rejoin.trapCause = some (cause, code, addr) := hc
  exact enabledOr_atCore?_self _ (by simp only [ht, ha, hr, Bool.not_true, Bool.false_eq_true, if_false, if_true])
    (State.cnum_of_stores (State.trapEntry_stores _ _ _ _))

theorem Core.resumed_cnum (c : Core) (w : Word) : (c.resumed w).cnum = c.cnum := rfl
theorem Core.eretResume_cnum (c : Core) : c.eretResume.cnum = c.cnum := by
  rw [Core.eretResume_eq, Core.resumed_cnum]

/-- ERET_RESUME returns once the handler's results have landed. -/
theorem execEretResume_next {s : State} (hd : s.core.drained = true) :
    execEretResume s.core.cnum s = .next { s with core := s.core.eretResume } :=
  enabledOr_atCore?_self _ (if_pos hd) s.core.eretResume_cnum

/-- Settles O50: each event by the lemma about it. -/
theorem paceEvents : Obligations.PaceEvents := by
  intro s n
  refine ⟨execResultLanding_vote, execResultLanding_land, fun hm => ?_,
    fun hz => ⟨_, execGatherFreezeEnd_next hz, rfl, rfl, rfl, rfl, rfl, rfl⟩,
    fun hb => ⟨_, execBellowsFreezeEnd_next hb, rfl, fun k hk d hd he => ?_, rfl, rfl, rfl, rfl⟩,
    fun _ _ _ => execProgramTrapEntry_issue, fun _ _ _ => execProgramTrapEntry_resume, execEretResume_next⟩
  · cases hl : s.core.front.holds.any Hold.isLock with
    | false =>
      refine ⟨_, execHeldBundleIssue_plain hm hl, rfl, rfl, rfl, rfl, rfl, fun h => ?_⟩
      have hno := List.any_eq_false.mp hl
      rcases h with ⟨m, hmem⟩ | hmem
      · exact absurd rfl (hno _ hmem)
      · exact absurd rfl (hno _ hmem)
    | true => exact ⟨_, execHeldBundleIssue_lock hm hl, rfl, rfl, rfl, rfl, rfl, fun _ => rfl⟩
  · obtain ⟨c, rfl⟩ := mem_map_if_cnum (f := Core.unfrozen) hd (he ▸ List.mem_map_of_mem hk)
    rfl

end Sys2Proof.Machine
end

section
/-! What a queued matrix instruction waits for (03 R63, R79; 07 R175; 10 R242). -/
namespace Sys2Proof.Machine
open Sys2Proof

/-- The effect of the slot of a queued matrix instruction that is enabled, by its plan. -/
theorem queue_illop {h : Head} {s : State} (he : s.core.enabled h = true) (i : Instr) {p : Plan} (hp : p.illop = true ∨ p.badRing s.core = true) :
    queue i h s p = .next (s.faulted 3 cILLOP (slotWord i)) := by
  have hc : (p.illop || p.badRing s.core) = true := (Bool.or_eq_true _ _).mpr hp
  rw [queue, issue_on he, if_pos hc]
  rfl

theorem queue_held {h : Head} {s : State} (he : s.core.enabled h = true) (i : Instr) {p : Plan} (hi : p.illop = false)
    (hr : p.badRing s.core = false) (hh : p.holds s ≠ []) : queue i h s p = .next (s.heldBy (p.holds s)) := by
  have hc : (!(p.holds s).isEmpty) = true := by simpa using hh
  rw [queue, issue_on he, hi, hr, if_neg (by simp), if_pos hc]
  rfl

/-- The holds of a plan are those of its registers and rings that have not cleared. -/
theorem Plan.mem_holds {p : Plan} {s : State} {hd : Hold} :
    hd ∈ p.holds s ↔ (hd = .regs p.reads p.writes ∨ ∃ e ∈ p.rings, Hold.ringFill e.1 p.wait = hd) ∧ s.holdClear hd = false := by
  simp only [Plan.holds, List.mem_append, List.mem_filter, List.mem_singleton, List.mem_map, Bool.not_eq_true', or_and_right]

/-- A busy register, a read hold on a destination, or a ring with too few slots holds the plan. -/
theorem Plan.holds_ne_nil {p : Plan} {s : State}
    (hw : p.reads.any s.core.busy = true ∨ p.writes.any (fun r => s.core.busy r || s.core.readHeld r) = true ∨
      (∃ e ∈ p.rings, (s.core.ring e.1).filled < p.wait)) : p.holds s ≠ [] := by
  have hregs (h : s.core.regsHeld p.reads p.writes = true) : p.holds s ≠ [] :=
    List.ne_nil_of_mem (Plan.mem_holds.mpr ⟨.inl rfl, by simp [State.holdClear, h]⟩)
  rcases hw with h | h | ⟨e, he, h⟩
  · exact hregs (by simp only [Core.regsHeld, h, Bool.true_or])
  · exact hregs (by simp only [Core.regsHeld, h, Bool.or_true])
  · refine List.ne_nil_of_mem (Plan.mem_holds.mpr ⟨.inr ⟨e, he, rfl⟩, ?_⟩)
    simp only [State.holdClear, decide_eq_false_iff_not]
    omega

/-- An enabled matrix slot takes ILLOP for its operands or an unconfigured ring, and else waits for what holds its plan. -/
theorem queue_waits {h : Head} {s : State} (he : s.core.enabled h = true) (i : Instr) (p : Plan) :
    (p.illop = true ∨ p.badRing s.core = true → queue i h s p = .next (s.faulted 3 cILLOP (slotWord i))) ∧
    (p.illop = false → p.badRing s.core = false →
      (p.reads.any s.core.busy = true ∨ p.writes.any (fun r => s.core.busy r || s.core.readHeld r) = true ∨
        (∃ e ∈ p.rings, (s.core.ring e.1).filled < p.wait)) →
      ∃ hs, hs ≠ [] ∧ queue i h s p = .next (s.heldBy hs) ∧ ∀ hd ∈ hs, s.holdClear hd = false) := by
  refine ⟨queue_illop he i, fun hi hr hw => ?_⟩
  have hh := Plan.holds_ne_nil hw
  exact ⟨p.holds s, hh, queue_held he i hi hr hh, fun hd hm => (Plan.mem_holds.mp hm).2⟩

/-- Settles O42: every queued matrix instruction is its plan in the queue. -/
theorem matrixHolds : Obligations.MatrixHolds := by
  intro h s he
  have hq := queue_waits he
  exact ⟨fun o => ⟨hq _ _, hq _ _⟩, fun o => ⟨hq _ _, hq _ _, hq _ _, hq _ _, hq _ _, hq _ _, hq _ _, hq _ _, hq _ _, hq _ _⟩,
    fun o => ⟨hq _ _, hq _ _, hq _ _⟩⟩

end Sys2Proof.Machine
end

section
/-! What the vector slots check before any write (03 R70; 09 R217, R220, R230, R239). -/
namespace Sys2Proof.Machine
open Sys2Proof

/-! ### A vector slot with an enabled element -/

/-- It is settled. -/
theorem vissue_enabled {h : Head} {es : List Nat} (s : State) (body : SlotRes) (he : es ≠ []) :
    vissue h es s body = settle (vslot h) s body := vissue_on (List.isEmpty_eq_false_iff.mpr he)

theorem vissue_illop {h : Head} {es : List Nat} (s : State) (i : Instr) (he : es ≠ []) :
    vissue h es s (.illop i) = .next (s.faulted (vslot h) cILLOP (slotWord i)) := vissue_enabled s _ he

/-- An elementwise instruction whose type does not allow its form is ILLOP. -/
theorem elementwise_illegal {h : Head} {o : VR} {s : State} (he : s.core.enabledElems h (esize o.ty) ≠ []) (i : Instr) (lat : Nat)
    (readsD unary : Bool) (f : Nat → VSrc → Nat → Nat) {legal : Bool} (hl : legal = false) :
    elementwise i h o lat legal readsD unary s f = .next (s.faulted (vslot h) cILLOP (slotWord i)) := by
  subst hl
  exact vissue_illop s i he

/-- So is one with a register outside the view; b counts where it is read. -/
theorem elementwise_outside {h : Head} {o : VR} {s : State} (he : s.core.enabledElems h (esize o.ty) ≠ []) (i : Instr) (lat : Nat)
    (legal readsD : Bool) {unary : Bool} (f : Nat → VSrc → Nat → Nat)
    (hv : s.core.vaddr o.d = none ∨ s.core.vaddr o.a = none ∨ (o.i || unary) = false ∧ s.core.vaddr o.b = none) :
    elementwise i h o lat legal readsD unary s f = .next (s.faulted (vslot h) cILLOP (slotWord i)) := by
  cases legal with
  | false => exact elementwise_illegal he i lat readsD unary f rfl
  | true =>
    rw [← vissue_illop s i he]
    simp only [elementwise, Bool.not_true, Bool.false_eq_true, if_false]
    congr 1
    split
    · next da aa ba hd ha hb => rcases hv with h | h | ⟨h1, h2⟩ <;> simp_all
    · rfl

/-- VPERM reads three registers in the view. -/
theorem execVperm_outside {h : Head} {o : VR} {s : State} (he : s.core.enabledElems h (esize o.ty) ≠ [])
    (hv : s.core.vaddr o.d = none ∨ s.core.vaddr o.a = none ∨ s.core.vaddr o.b = none) :
    execVperm h o s = .next (s.faulted (vslot h) cILLOP (slotWord (.vperm h o))) := by
  rw [← vissue_illop s (.vperm h o) he]
  unfold execVperm
  dsimp only
  congr 1
  split
  · next da aa ba hd ha hb => rcases hv with h | h | h <;> simp_all
  · rfl

/-- A reduction of a tapered type is ILLOP. -/
theorem reduction_tapered {h : Head} {o : VR} {s : State} (he : s.core.enabledElems h (esize o.ty) ≠ []) (ht : isTap o.ty = true) (i : Instr)
    (op : RedOp) (lat : Nat) : reduction i h o op lat s = .next (s.faulted (vslot h) cILLOP (slotWord i)) := by
  rw [← vissue_illop s i he]
  simp only [reduction, ht, if_true]

/-- So are VSCAN and VMOVI of one, and VIOTA of a type that is no integer. -/
theorem execVscan_tapered {h : Head} {o : VR} {s : State} (he : s.core.enabledElems h (esize o.ty) ≠ []) (ht : isTap o.ty = true) :
    execVscan h o s = .next (s.faulted (vslot h) cILLOP (slotWord (.vscan h o))) := by
  rw [← vissue_illop s (.vscan h o) he]
  simp only [execVscan, ht, if_true]
theorem execVmovi_tapered {h : Head} {o : VR} {s : State} (he : s.core.enabledElems h (esize o.ty) ≠ []) (ht : isTap o.ty = true) :
    execVmovi h o s = .next (s.faulted (vslot h) cILLOP (slotWord (.vmovi h o))) := by
  rw [← vissue_illop s (.vmovi h o) he]
  simp only [execVmovi, ht, if_true]
theorem execViota_illegal {h : Head} {o : VR} {s : State} (he : s.core.enabledElems h (esize o.ty) ≠ []) (hi : isInt o.ty = false) :
    execViota h o s = .next (s.faulted (vslot h) cILLOP (slotWord (.viota h o))) := by
  rw [← vissue_illop s (.viota h o) he]
  simp only [execViota, hi, Bool.not_false, if_true]

/-! ### VCMPT -/

/-- The byte positions that VCMPT compares, in order. -/
def cmptPositions (c : Core) (h : Head) (b : Nat) : List Nat :=
  (c.enabledElems h b).flatMap (fun e => (List.range b).map (fun k => e * b + k))

/-- VCMPT of a register of the slow partition is ILLOP. -/
theorem execVcmpt_slow {h : Head} {o : VR} {s : State} {aa ba : Nat} (he : s.core.enabledElems h (esize o.ty) ≠ [])
    (ha : s.core.vaddr o.a = some aa) (hb : s.core.vaddr o.b = some ba) (hs : (slowAt aa || slowAt ba) = true) :
    execVcmpt h o s = .next (s.faulted (vslot h) cILLOP (slotWord (.vcmpt h o))) := by
  rw [← vissue_illop s (.vcmpt h o) he]
  simp only [execVcmpt, ha, hb, hs, if_true]

/-- VCMPT of the fast partition, by the first position at which its sources differ. -/
theorem execVcmpt_fast {h : Head} {o : VR} {s : State} {aa ba : Nat} (he : s.core.enabledElems h (esize o.ty) ≠ [])
    (ha : s.core.vaddr o.a = some aa) (hb : s.core.vaddr o.b = some ba) (hsa : slowAt aa = false) (hsb : slowAt ba = false) :
    execVcmpt h o s = settle (vslot h) s
      (((cmptPositions s.core h (esize o.ty)).find? (fun p => s.core.vbyte aa p != s.core.vbyte ba p)).elim (.ok s)
        (fun p => .fault cCMPT 0xFF (BitVec.ofNat 64 p))) := by
  rw [← vissue_enabled s _ he]
  simp only [execVcmpt, ha, hb, hsa, hsb, Bool.or_false, Bool.false_eq_true, if_false]
  rw [← cmptPositions]
  cases (cmptPositions s.core h (esize o.ty)).find? (fun p => s.core.vbyte aa p != s.core.vbyte ba p) <;> rfl

/-- Sources that agree at every position: no effect. -/
theorem execVcmpt_agree {h : Head} {o : VR} {s : State} {aa ba : Nat} (he : s.core.enabledElems h (esize o.ty) ≠ [])
    (ha : s.core.vaddr o.a = some aa) (hb : s.core.vaddr o.b = some ba) (hsa : slowAt aa = false) (hsb : slowAt ba = false)
    (hp : ∀ p ∈ cmptPositions s.core h (esize o.ty), s.core.vbyte aa p = s.core.vbyte ba p) : execVcmpt h o s = .next s := by
  rw [execVcmpt_fast he ha hb hsa hsb, List.find?_eq_none.mpr fun p hm => by simp [hp p hm]]
  rfl

/-- Else the recovered fault CMPT with the first position at which they differ. -/
theorem execVcmpt_differ {h : Head} {o : VR} {s : State} {aa ba : Nat} (he : s.core.enabledElems h (esize o.ty) ≠ [])
    (ha : s.core.vaddr o.a = some aa) (hb : s.core.vaddr o.b = some ba) (hsa : slowAt aa = false) (hsb : slowAt ba = false)
    {pre post : List Nat} {p : Nat} (hps : cmptPositions s.core h (esize o.ty) = pre ++ p :: post)
    (hpre : ∀ q ∈ pre, s.core.vbyte aa q = s.core.vbyte ba q) (hne : s.core.vbyte aa p ≠ s.core.vbyte ba p) :
    execVcmpt h o s = .next (s.faulted (vslot h) cCMPT (BitVec.ofNat 64 p)) := by
  rw [execVcmpt_fast he ha hb hsa hsb,
    List.find?_eq_some_iff_append.mpr ⟨by simpa using hne, pre, post, hps, fun q hq => by simp [hpre q hq]⟩]
  rfl

/-- Settles O40: VCMPT by its sources, the others by the check that fails. -/
theorem vectorChecks : Obligations.VectorChecks := by
  intro h o s illop
  refine ⟨rfl, fun he => ⟨fun aa ba ha hb => ⟨fun hs => ?_, fun hsa hsb => ⟨fun hp => ?_, fun pre post p hps hpre hne => ?_⟩⟩,
    fun hv => ?_, fun hi hv => ?_, fun hi => ?_, fun hi hm => ?_, fun ht => ?_⟩⟩
  · exact execVcmpt_slow he ha hb hs
  · exact execVcmpt_agree he ha hb hsa hsb hp
  · exact execVcmpt_differ he ha hb hsa hsb hps hpre hne
  · have hv3 (q : Prop) : s.core.vaddr o.d = none ∨ s.core.vaddr o.a = none ∨ q := or_assoc.mp (.inl hv)
    exact ⟨(elementwise_outside he _ _ _ _ _ (hv3 _) : execVadd h o s = _), (elementwise_outside he _ _ _ _ _ (hv3 _) : execVmin h o s = _),
      (elementwise_outside he _ _ _ _ _ (hv3 _) : execVmov h o s = _), execVperm_outside he (hv3 _)⟩
  · have hb : (o.i || false) = false ∧ s.core.vaddr o.b = none := ⟨by rw [hi]; rfl, hv⟩
    exact ⟨(elementwise_outside he _ _ _ _ _ (.inr (.inr hb)) : execVadd h o s = _),
      (elementwise_outside he _ _ _ _ _ (.inr (.inr hb)) : execVmin h o s = _), execVperm_outside he (.inr (.inr hv))⟩
  · exact ⟨(elementwise_illegal he _ _ _ _ _ hi : execVand h o s = _), (elementwise_illegal he _ _ _ _ _ hi : execVshl h o s = _),
      (elementwise_illegal he _ _ _ _ _ hi : execVpopc h o s = _), execViota_illegal he hi⟩
  · have hl : (immArith o && (!o.md || isInt o.ty)) = false := by simp [hm, hi]
    exact ⟨(elementwise_illegal he _ _ _ _ _ hl : execVadd h o s = _), (elementwise_illegal he _ _ _ _ _ hl : execVsub h o s = _),
      (elementwise_illegal he _ _ _ _ _ hl : execVmul h o s = _)⟩
  · exact ⟨(reduction_tapered he ht _ _ _ : execVrsum h o s = _), (reduction_tapered he ht _ _ _ : execVrmax h o s = _),
      execVscan_tapered he ht, execVmovi_tapered he ht⟩

end Sys2Proof.Machine
end

section
/-! ## Memory in canonical form: what each function of the model does to the bytes of memory
For a function that writes no memory, one equation (`…_mem`); for one that writes some, that it keeps the canonical form (`…_wf`).
Both are said once for each function, in the order of the model's files, and carried up to `step`. -/
namespace Sys2Proof.Machine
open Sys2Proof

@[simp] theorem State.mem_ite (p : Prop) [Decidable p] (s t : State) :
    (if p then s else t).memory.mem = if p then s.memory.mem else t.memory.mem := by split <;> rfl
@[simp] theorem Memory.wf_ite {p : Prop} [Decidable p] {m n : Memory} :
    (if p then m else n).wf = if p then m.wf else n.wf := by split <;> rfl
@[simp] theorem foldl_mem {β : Type} (g : State → β → State) (l : List β) (s : State)
    (h : ∀ a b, (g a b).memory.mem = a.memory.mem) : (l.foldl g s).memory.mem = s.memory.mem :=
  foldl_keeps (fun s : State => s.memory.mem) g h l s

@[simp] theorem foldl_snd_mem {α β : Type} (g : α × State → β → α × State) (l : List β) (p : α × State)
    (h : ∀ a b, (g a b).2.memory.mem = a.2.memory.mem) : (l.foldl g p).2.memory.mem = p.2.memory.mem :=
  foldl_keeps (fun a => a.2.memory.mem) g h l p

@[simp] theorem foldl_fst_mem {α β : Type} (g : State × α → β → State × α) (l : List β) (p : State × α)
    (h : ∀ a b, (g a b).1.memory.mem = a.1.memory.mem) : (l.foldl g p).1.memory.mem = p.1.memory.mem :=
  foldl_keeps (fun a => a.1.memory.mem) g h l p

/-- A fold keeps the canonical form of memory if every step does; `f` is where the state stands in what is folded. -/
theorem foldl_memWf {α β : Type} (f : α → State) {g : α → β → α}
    (hg : ∀ a b, (f a).memory.mem.wf = true → (f (g a b)).memory.mem.wf = true) (l : List β) {a : α} (ha : (f a).memory.mem.wf = true) :
    (f (l.foldl g a)).memory.mem.wf = true :=
  List.foldlRecOn (motive := fun a => (f a).memory.mem.wf = true) l g ha fun a h b _ => hg a b h

/-- The same of a fold over states. -/
theorem foldl_stateWf {β : Type} {g : State → β → State}
    (hg : ∀ u b, u.memory.mem.wf = true → (g u b).memory.mem.wf = true) (l : List β) {s : State} (hs : s.memory.mem.wf = true) :
    (l.foldl g s).memory.mem.wf = true :=
  foldl_memWf id hg l hs

@[simp] theorem State.mapCores_mem (s : State) (f : Core → Core) : (s.mapCores f).memory.mem = s.memory.mem := rfl

end Sys2Proof.Machine
end

section
/-! ## What each function does to memory
In the order of the model's files: the equation of one that writes no memory, the canonical form kept by one that does. -/
namespace Sys2Proof.Machine
open Sys2Proof

/-! ### Shared operations -/
@[simp] theorem State.setStack_mem (s : State) (k st) : (s.setStack k st).memory.mem = s.memory.mem := (rfl)
@[simp] theorem State.homeStore_wf {s : State} (hs : s.memory.mem.wf = true) (pa bs) : (s.homeStore pa bs).memory.mem.wf = true :=
  Memory.setCells_wf hs
@[simp] theorem State.touchL2_mem (s : State) (line write) : (s.touchL2 line write).memory.mem = s.memory.mem := (rfl)
@[simp] theorem State.setEntry_mem (s : State) (d) : (s.setEntry d).memory.mem = s.memory.mem := (rfl)
@[simp] theorem State.dropEntry_mem (s : State) (d) : (s.dropEntry d).memory.mem = s.memory.mem := (rfl)
@[simp] theorem State.dropLine_mem (s : State) (ag line) : (s.dropLine ag line).memory.mem = s.memory.mem := (rfl)
@[simp] theorem State.setLine_mem (s : State) (l) : (s.setLine l).memory.mem = s.memory.mem := (rfl)
@[simp] theorem State.settleHost_mem (s : State) (num) : (s.settleHost num).memory.mem = s.memory.mem := (rfl)
@[simp] theorem State.fanDone_mem (s : State) (d f) : (s.fanDone d f).memory.mem = s.memory.mem := by
  simp [State.fanDone]

@[simp] theorem State.checkIn_wf {s : State} (hs : s.memory.mem.wf = true) (ag line keep) : (s.checkIn ag line keep).memory.mem.wf = true := by
  unfold State.checkIn; split
  · exact hs
  · rw [State.startFan_mem]; split <;> simp [hs]

@[simp] theorem State.makeRoom_wf {s : State} (hs : s.memory.mem.wf = true) (ag line) : (s.makeRoom ag line).memory.mem.wf = true := by
  unfold State.makeRoom; dsimp only
  split
  · simp [hs]
  · split <;> simp [hs]

@[simp] theorem State.readMiss_wf {s : State} (hs : s.memory.mem.wf = true) (ag line) : (s.readMiss ag line).memory.mem.wf = true := by
  simp [hs, State.readMiss]
@[simp] theorem State.checkOut_wf {s : State} (hs : s.memory.mem.wf = true) (ag line) : (s.checkOut ag line).memory.mem.wf = true := by
  simp [hs, State.checkOut]
@[simp] theorem State.homeWrite_wf {s : State} (hs : s.memory.mem.wf = true) (pa bs byHost wrote) :
    (s.homeWrite pa bs byHost wrote).memory.mem.wf = true := by
  unfold State.homeWrite; dsimp only; split <;> simp [State.startFan_mem, hs]

@[simp] theorem State.homePut_wf {s : State} (hs : s.memory.mem.wf = true) (pa bs byHost wrote) :
    (s.homePut pa bs byHost wrote).memory.mem.wf = true :=
  foldl_stateWf (fun _ _ hu => State.homeWrite_wf hu _ _ _ _) _ hs

@[simp] theorem State.homeFetch_mem (s : State) (pa n) : (s.homeFetch pa n).2.memory.mem = s.memory.mem := by
  simp [State.homeFetch]
theorem State.invalidate_wf {s t : State} {ag line} (hs : s.memory.mem.wf = true) (h : s.invalidate ag line = some t) :
    t.memory.mem.wf = true := by
  unfold State.invalidate at h; dsimp only at h
  split at h
  · cases h
  · split at h
    · cases h
    · split at h
      · cases h
      · split at h
        · split at h <;> cases h <;> simp [hs]
        · cases h; simp [hs]

theorem State.ackFan_mem {s t : State} {ag line} (h : s.ackFan ag line = some t) : t.memory.mem = s.memory.mem := by
  unfold State.ackFan at h
  split at h
  · cases h
  · split at h
    · cases h
    · split at h
      · cases h
      · cases h; exact State.settleFan_mem _ _

@[simp] theorem State.post_wf {s : State} (hs : s.memory.mem.wf = true) (e) : (s.post e).memory.mem.wf = true := by
  simp [hs, State.post]
@[simp] theorem State.logBank_wf {s : State} (hs : s.memory.mem.wf = true) (b e filled) : (s.logBank b e filled).memory.mem.wf = true := by
  simp [hs, State.logBank]
@[simp] theorem State.logCe_wf {s : State} (hs : s.memory.mem.wf = true) (b synd unit kind addr) : (s.logCe b synd unit kind addr).memory.mem.wf = true := by
  simp [hs, State.logCe]
@[simp] theorem State.logUe_wf {s : State} (hs : s.memory.mem.wf = true) (b cnum unit kind addr) : (s.logUe b cnum unit kind addr).memory.mem.wf = true := by
  simp [hs, State.logUe]
@[simp] theorem State.settleGroup_mem (f) (s : State) (b) : (State.settleGroup f s b).1.memory.mem = s.memory.mem := by
  induction f generalizing s b with
  | zero => rfl
  | succ f ih =>
    unfold State.settleGroup; dsimp only; split
    · simp [ih]
    · rfl

@[simp] theorem State.settleGroups_mem (s : State) : s.settleGroups.memory.mem = s.memory.mem := by
  simp [State.settleGroups, foldl_fst_mem, State.settleGroup_mem]
@[simp] theorem State.arrive_mem (s : State) (lvl) : (s.arrive lvl).memory.mem = s.memory.mem := by
  unfold State.arrive; split <;> simp
@[simp] theorem State.dropMember_mem (s : State) (cnum cid pos grouped t) : (s.dropMember cnum cid pos grouped t).memory.mem = s.memory.mem := by
  unfold State.dropMember; split <;> simp
@[simp] theorem State.leaveLock_mem (s : State) : (s.leaveLock).memory.mem = s.memory.mem := by
  simp [State.leaveLock]
@[simp] theorem State.depart_mem (s : State) (status) : (s.depart status).memory.mem = s.memory.mem := by
  unfold State.depart; split <;> simp
@[simp] theorem State.stopGroup_mem (s : State) (st) : (s.stopGroup st).memory.mem = s.memory.mem := by
  simp [State.stopGroup]
@[simp] theorem State.resumeAt_mem (s : State) (cid mask) : (s.resumeAt cid mask).memory.mem = s.memory.mem := by
  simp [State.resumeAt]
@[simp] theorem State.resumeGroup_mem (s : State) : (s.resumeGroup).memory.mem = s.memory.mem := by
  simp [State.resumeGroup]
@[simp] theorem State.logFault_wf {s : State} (hs : s.memory.mem.wf = true) (slot code) : (s.logFault slot code).memory.mem.wf = true := by
  simp [hs, State.logFault]
@[simp] theorem State.systemFaultAs_wf {s : State} (hs : s.memory.mem.wf = true) (cls slot code tok info) : (s.systemFaultAs cls slot code tok info).memory.mem.wf = true := by
  simp [hs, State.systemFaultAs]
@[simp] theorem State.systemFault_wf {s : State} (hs : s.memory.mem.wf = true) (slot code tok info) : (s.systemFault slot code tok info).memory.mem.wf = true := by
  simp [hs, State.systemFault]
@[simp] theorem State.trapEntry_wf {s : State} (hs : s.memory.mem.wf = true) (cause code addr) : (s.trapEntry cause code addr).memory.mem.wf = true := by
  simp [hs, State.trapEntry]
@[simp] theorem State.boundary_mem (s : State) (b) : (s.boundary b).memory.mem = s.memory.mem := (rfl)
@[simp] theorem State.irrevocable_mem (s : State) : (s.irrevocable).memory.mem = s.memory.mem := (rfl)

/-! ### Flags -/
@[simp] theorem State.triLog_wf {s : State} (hs : s.memory.mem.wf = true) (t) : (s.triLog t).memory.mem.wf = true := by
  simp [hs, State.triLog]
@[simp] theorem State.triLogFault_wf {s : State} (hs : s.memory.mem.wf = true) (t) : (s.triLogFault t).memory.mem.wf = true := by
  simp [hs, State.triLogFault]

/-! ### Wire -/
@[simp] theorem State.setLink_mem (s : State) (n l) : (s.setLink n l).memory.mem = s.memory.mem := (rfl)
@[simp] theorem State.emit_mem (s : State) (n m) : (s.emit n m).memory.mem = s.memory.mem := by
  simp [State.emit]
@[simp] theorem State.sendMsg_mem (s : State) (m) : (s.sendMsg m).memory.mem = s.memory.mem := by
  unfold State.sendMsg; split <;> simp
@[simp] theorem State.drainLink_mem (n f) (s : State) : (State.drainLink n f s).memory.mem = s.memory.mem := by
  induction f generalizing s with
  | zero => rfl
  | succ f ih => unfold State.drainLink; dsimp only; split <;> simp [ih]

@[simp] theorem State.takeTag_mem (s : State) (dst) : (s.takeTag dst).2.memory.mem = s.memory.mem := (rfl)
@[simp] theorem State.sendControl_mem (s : State) (n code arg) : (s.sendControl n code arg).memory.mem = s.memory.mem := by
  simp [State.sendControl]

/-! ### Control -/
@[simp] theorem State.chTouch_mem (s : State) (e) : (s.chTouch e).memory.mem = s.memory.mem := by
  simp [State.chTouch]
@[simp] theorem State.setChannel_mem (s : State) (c) : (s.setChannel c).memory.mem = s.memory.mem := (rfl)

/-! ### Vector -/
@[simp] theorem State.freezeFor_mem (s : State) (n) : (s.freezeFor n).memory.mem = s.memory.mem := by
  simp [State.freezeFor]

/-! ### Matrix -/
@[simp] theorem State.anvilStart_mem (s : State) : (s.anvilStart).memory.mem = s.memory.mem := by
  unfold State.anvilStart; dsimp only; split <;> simp

/-! ### Memory -/
@[simp] theorem State.hostForget_mem (s : State) (p) : (s.hostForget p).memory.mem = s.memory.mem := (rfl)
@[simp] theorem State.hostWriteBack_wf {s : State} (hs : s.memory.mem.wf = true) (p) : (s.hostWriteBack p).memory.mem.wf = true :=
  foldl_wf _ (fun _ _ => Memory.setN_wf) _ hs
@[simp] theorem State.hostRoom_wf {s : State} (hs : s.memory.mem.wf = true) : (s.hostRoom).memory.mem.wf = true := by
  unfold State.hostRoom; split <;> simp [hs]
@[simp] theorem State.hostFill_wf {s : State} (hs : s.memory.mem.wf = true) (line) : (s.hostFill line).memory.mem.wf = true := by
  simp [hs, State.hostFill]
@[simp] theorem State.hostPut_wf {s : State} (hs : s.memory.mem.wf = true) (asid line off bs) : (s.hostPut asid line off bs).memory.mem.wf = true := by
  simp [hs, State.hostPut]
@[simp] theorem State.hostFlush_wf {s : State} (hs : s.memory.mem.wf = true) : s.hostFlush.memory.mem.wf = true :=
  State.hostWriteBack_wf hs _
@[simp] theorem State.pte_mem (s : State) (table i) : (s.pte table i).2.memory.mem = s.memory.mem := by
  unfold State.pte; dsimp only; split <;> simp
@[simp] theorem State.asidOn_mem (s : State) (a) : (s.asidOn a).2.memory.mem = s.memory.mem := by
  simp [State.asidOn]
@[simp] theorem State.walkStep_mem (s : State) (table i) (f : Word → State → Walk × State) (h : ∀ e t, (f e t).2.memory.mem = t.memory.mem) :
    (s.walkStep table i f).2.memory.mem = s.memory.mem := by
  unfold State.walkStep; dsimp only; split
  · rfl
  · split <;> simp [h]

@[simp] theorem State.walk_mem (s : State) (asid va) : (s.walk asid va).2.memory.mem = s.memory.mem := by
  unfold State.walk; dsimp only
  refine State.walkStep_mem _ _ _ _ fun _ s => State.walkStep_mem _ _ _ _ fun _ s => ?_
  split
  · rfl
  · refine State.walkStep_mem _ _ _ _ fun _ s => ?_
    split
    · rfl
    · split
      · rfl
      · split
        · rfl
        · refine State.walkStep_mem _ _ _ _ fun _ s => ?_
          split
          · rfl
          · split
            · rfl
            · split
              · rfl
              · exact State.walkStep_mem _ _ _ _ fun _ _ => rfl

@[simp] theorem State.translate_mem (s : State) (asid va k) : (s.translate asid va k).2.memory.mem = s.memory.mem := by
  unfold State.translate; dsimp only
  split
  · simp
  · split <;> simp

@[simp] theorem State.look_mem (s : State) (asid va k) : (s.look asid va k).2.memory.mem = s.memory.mem := by
  unfold State.look; dsimp only
  split
  · simp
  · split
    · simp
    · simp
    · split
      · simp
      · split <;> simp

@[simp] theorem State.resolve_mem (asid k f) (s : State) (va n acc) : (State.resolve asid k f s va n acc).2.memory.mem = s.memory.mem := by
  induction f generalizing s va n acc with
  | zero => rfl
  | succ f ih =>
    unfold State.resolve; dsimp only
    split
    · simp
    · split <;> simp [ih]

@[simp] theorem State.segments_mem (s : State) (asid k va n) : (s.segments asid k va n).2.memory.mem = s.memory.mem := by
  simp [State.segments]
@[simp] theorem State.askSegs_mem (s : State) (born segs) : (s.askSegs born segs).2.memory.mem = s.memory.mem := by
  refine foldl_snd_mem _ _ _ fun a g => ?_
  dsimp only; split <;> simp

@[simp] theorem State.haveLine_wf {s : State} (hs : s.memory.mem.wf = true) (ag line) : (s.haveLine ag line).memory.mem.wf = true := by
  simp [hs, State.haveLine]
@[simp] theorem State.ownLine_wf {s : State} (hs : s.memory.mem.wf = true) (ag line) : (s.ownLine ag line).memory.mem.wf = true := by
  unfold State.ownLine; split <;> simp [hs]
@[simp] theorem State.segRead_wf {s : State} (hs : s.memory.mem.wf = true) (ag got g) : (s.segRead ag got g).2.memory.mem.wf = true := by
  unfold State.segRead
  split
  · split
    · simp [hs]
    · exact foldl_memWf Prod.snd (fun _ _ hu => State.haveLine_wf hu _ _) _ hs
  · exact foldl_memWf Prod.snd (fun _ _ hu => State.hostFill_wf hu _) _ hs
  · exact hs

@[simp] theorem State.segWrite_wf {s : State} (hs : s.memory.mem.wf = true) (ag cnum asid g bs) :
    (s.segWrite ag cnum asid g bs).memory.mem.wf = true := by
  unfold State.segWrite; split
  · refine foldl_stateWf (fun s l hu => ?_) _ hs
    have ho := State.ownLine_wf hu ag l.1
    dsimp only; split <;> simpa using ho
  · exact foldl_stateWf (fun _ _ hu => State.hostPut_wf hu _ _ _ _) _ hs
  · exact hs

@[simp] theorem State.releaseLines_wf {s : State} (hs : s.memory.mem.wf = true) (ag lines keep) :
    (s.releaseLines ag lines keep).2.memory.mem.wf = true :=
  foldl_memWf Prod.snd (fun _ _ hu => State.checkIn_wf hu _ _ _) _ hs

@[simp] theorem State.stampHome_mem (s : State) (pa clk core) : (s.stampHome pa clk core).2.memory.mem = s.memory.mem := by
  unfold State.stampHome; dsimp only; split <;> simp
@[simp] theorem State.stampHost_mem (s : State) (line clk core) : (s.stampHost line clk core).2.memory.mem = s.memory.mem := (rfl)
@[simp] theorem State.snoop_wf {s : State} (hs : s.memory.mem.wf = true) (line inval store) : (s.snoop line inval store).memory.mem.wf = true := by
  unfold State.snoop; split <;> simp [hs]
@[simp] theorem State.hostMemWrite_wf {s : State} (hs : s.memory.mem.wf = true) (addr pa bs) :
    (s.hostMemWrite addr pa bs).memory.mem.wf = true := by
  simp [hs, State.hostMemWrite]

@[simp] theorem State.hostMemRead_mem (s : State) (addr pa n) : (s.hostMemRead addr pa n).memory.mem = s.memory.mem := by
  simp [State.hostMemRead]
@[simp] theorem State.hostMemFail_wf {s : State} (hs : s.memory.mem.wf = true) (r) : (s.hostMemFail r).memory.mem.wf = true := by
  simp [hs, State.hostMemFail]
@[simp] theorem State.serveHeld_wf {s : State} (hs : s.memory.mem.wf = true) : s.serveHeld.memory.mem.wf = true := by
  refine foldl_stateWf (fun s r hu => ?_) _ hs
  dsimp only; split
  · simp [hu]
  · split
    · exact hu
    · split <;> simp [hu]

/-! ### The Crucible store -/
@[simp] theorem State.setNode_mem (s : State) (n) : (s.setNode n).memory.mem = s.memory.mem := (rfl)
@[simp] theorem State.dropNode_mem (s : State) (slot) : (s.dropNode slot).memory.mem = s.memory.mem := (rfl)
@[simp] theorem State.holdRemote_mem (s : State) (m serial up) : (s.holdRemote m serial up).memory.mem = s.memory.mem := (rfl)
theorem State.takeRef_mem {s t : State} {w n} (h : s.takeRef w n = some t) : t.memory.mem = s.memory.mem := by
  unfold State.takeRef at h
  split at h
  · cases h
  · split at h <;> cases h <;> simp

theorem State.victimE0_mem {s : State} {cxl leaf n t} (h : s.victimE0 cxl leaf = some (n, t)) : t.memory.mem = s.memory.mem := by
  simp only [State.victimE0, Option.map_eq_some_iff, Prod.mk.injEq] at h
  obtain ⟨_, _, _, rfl⟩ := h; rfl

theorem State.victimE1_mem {s : State} {leaf n t} (h : s.victimE1 leaf = some (n, t)) : t.memory.mem = s.memory.mem := by
  simp only [State.victimE1, Option.ite_none_right_eq_some, Option.map_eq_some_iff, Prod.mk.injEq] at h
  obtain ⟨_, _, _, _, rfl⟩ := h; rfl

@[simp] theorem State.nextVictim_mem (s : State) (cxl) : (s.nextVictim cxl).2.memory.mem = s.memory.mem := by
  unfold State.nextVictim; split
  next r h =>
    rcases Option.or_eq_some_iff.1 h with h | ⟨_, h⟩
    · exact State.victimE0_mem h
    · split at h
      · cases h
      · exact State.victimE1_mem h
  next => rfl

@[simp] theorem State.sendK_mem (s : State) (dst tag r) : (s.sendK dst tag r).memory.mem = s.memory.mem := by
  simp [State.sendK]
@[simp] theorem State.answer_mem (s : State) (dst tag bs) : (s.answer dst tag bs).memory.mem = s.memory.mem := by
  simp [State.answer]
@[simp] theorem State.setKdir_mem (s : State) (d) : (s.setKdir d).memory.mem = s.memory.mem := (rfl)
@[simp] theorem State.dropKdir_mem (s : State) (name) : (s.dropKdir name).memory.mem = s.memory.mem := (rfl)
@[simp] theorem State.dirRegister_mem (s : State) (name mod h repl) : (s.dirRegister name mod h repl).memory.mem = s.memory.mem := by
  unfold State.dirRegister; split <;> simp
@[simp] theorem State.dirCounts_mem (s : State) (name holder m refs pins) : (s.dirCounts name holder m refs pins).memory.mem = s.memory.mem := by
  unfold State.dirCounts; split <;> simp
@[simp] theorem State.noteRemote_mem (s : State) (slot m) : (s.noteRemote slot m).memory.mem = s.memory.mem := by
  unfold State.noteRemote; split <;> simp
@[simp] theorem State.noteAll_mem (s : State) (n) : (s.noteAll n).memory.mem = s.memory.mem := by
  simp [State.noteAll]
@[simp] theorem State.homeMoved_mem (s : State) (name m) : (s.homeMoved name m).memory.mem = s.memory.mem := by
  simp [State.homeMoved]
@[simp] theorem State.dirMoveHome_mem (s : State) (d) : (s.dirMoveHome d).memory.mem = s.memory.mem := by
  unfold State.dirMoveHome; split <;> simp
@[simp] theorem State.dirDrop_mem (s : State) (name h) : (s.dirDrop name h).memory.mem = s.memory.mem := by
  unfold State.dirDrop; split <;> simp
@[simp] theorem State.register_mem (s : State) (n) : (s.register n).memory.mem = s.memory.mem := by
  simp [State.register]
@[simp] theorem State.unregister_mem (s : State) (n) : (s.unregister n).memory.mem = s.memory.mem := by
  simp [State.unregister]
@[simp] theorem State.blockTouch_mem (s : State) (b off n) : (s.blockTouch b off n).memory.mem = s.memory.mem := by
  simp [State.blockTouch]
@[simp] theorem State.blockPut_wf {s : State} (hs : s.memory.mem.wf = true) (b off bs) : (s.blockPut b off bs).memory.mem.wf = true :=
  foldl_stateWf (fun _ _ hu => State.homePut_wf hu _ _ _ _) _ hs
@[simp] theorem State.settleEvict_mem (s : State) (slot) : (s.settleEvict slot).memory.mem = s.memory.mem := by
  unfold State.settleEvict; split <;> simp
@[simp] theorem State.evict_mem (s : State) (n) : (s.evict n).memory.mem = s.memory.mem := by
  simp [State.evict]
@[simp] theorem State.dispose_mem (s : State) (n) : (s.dispose n).2.memory.mem = s.memory.mem := by
  unfold State.dispose; split <;> simp
@[simp] theorem State.reclaimFor_mem (need f) (s : State) : (State.reclaimFor need f s).2.memory.mem = s.memory.mem := by
  induction f generalizing s with
  | zero => rfl
  | succ f ih =>
    unfold State.reclaimFor; dsimp only
    split
    · rfl
    · split
      · rfl
      · split
        · simp
        · split <;> simp [ih]

@[simp] theorem State.walkOn_mem (f) (s : State) : (State.walkOn f s).memory.mem = s.memory.mem := by
  induction f generalizing s with
  | zero => rfl
  | succ f ih =>
    unfold State.walkOn; dsimp only
    split
    · simp
    · split
      · simp
      · split
        · simp
        · split <;> simp [ih]

@[simp] theorem State.walkCxlOn_mem (f) (s : State) : (State.walkCxlOn f s).memory.mem = s.memory.mem := by
  induction f generalizing s with
  | zero => rfl
  | succ f ih =>
    unfold State.walkCxlOn; dsimp only
    split
    · simp
    · split <;> simp [ih]

@[simp] theorem State.reclaimTest_mem (s : State) : (s.reclaimTest).memory.mem = s.memory.mem := by
  simp [State.reclaimTest]
@[simp] theorem State.releasePins_mem (s : State) (slots pin) : (s.releasePins slots pin).memory.mem = s.memory.mem := by
  simp [State.releasePins]
theorem State.reclaimSlot_mem {s t : State} (h : s.reclaimSlot = some t) : t.memory.mem = s.memory.mem := by
  simp only [State.reclaimSlot, Option.map_eq_some_iff] at h
  obtain ⟨⟨n, u⟩, h, rfl⟩ := h
  rcases Option.or_eq_some_iff.1 h with h | ⟨_, h⟩
  · rcases Option.or_eq_some_iff.1 h with h | ⟨_, h⟩ <;> simp [State.victimE0_mem h]
  · simp [State.victimE1_mem h]

@[simp] theorem State.addNode_mem (s : State) (n) : (s.addNode n).memory.mem = s.memory.mem := (rfl)
@[simp] theorem State.freeOpen_mem (s : State) (n) : (s.freeOpen n).memory.mem = s.memory.mem := (rfl)
@[simp] theorem State.launchNodes_mem (s : State) (serial asid) : (s.launchNodes serial asid).memory.mem = s.memory.mem := by
  simp [State.launchNodes]
@[simp] theorem State.sealHeader_wf {s : State} (hs : s.memory.mem.wf = true) (n layer form ranks payload) :
    (s.sealHeader n layer form ranks payload).memory.mem.wf = true :=
  State.homePut_wf (State.homePut_wf (State.homePut_wf hs _ _ _ _) _ _ _ _) _ _ _ _

@[simp] theorem State.sealBlock_wf {s : State} (hs : s.memory.mem.wf = true) (p slot i) : (s.sealBlock p slot i).memory.mem.wf = true := by
  unfold State.sealBlock
  split
  · simp [hs]
  · split <;> simp [hs]

/-! ### Hearth -/
@[simp] theorem State.setReading_mem (s : State) (r) : (s.setReading r).memory.mem = s.memory.mem := (rfl)
@[simp] theorem State.endRead_mem (s : State) (who) : (s.endRead who).memory.mem = s.memory.mem := (rfl)
@[simp] theorem State.hearthRead_wf {s : State} (hs : s.memory.mem.wf = true) (who asid k va n) :
    (s.hearthRead who asid k va n).2.memory.mem.wf = true := by
  unfold State.hearthRead; dsimp only; split
  · simp [hs]
  · exact hs
  · simp [hs]
  · split
    · exact hs
    · split
      · split <;> simp [hs]
      · refine foldl_memWf Prod.snd (fun a g hu => ?_) _ (by simpa using hs)
        split
        · split
          · split <;> simp [hu]
          · exact foldl_stateWf (fun _ _ h => State.hostFill_wf h _) _ hu
          · exact hu
        · exact hu

@[simp] theorem State.awaitWrite_mem (s : State) (asid tag) : (s.awaitWrite asid tag).memory.mem = s.memory.mem := (rfl)
@[simp] theorem State.hearthWrite_wf {s : State} (hs : s.memory.mem.wf = true) (asid va bs) :
    (s.hearthWrite asid va bs).memory.mem.wf = true := by
  unfold State.hearthWrite; dsimp only; split
  · refine foldl_stateWf (fun s g hu => ?_) _ (by simpa using hs)
    split
    · simp [hu]
    · exact foldl_stateWf (fun _ _ h => State.hostPut_wf h _ _ _ _) _ hu
    · split <;> simp [hu]
  · simp [hs]

@[simp] theorem State.condWord_wf {s : State} (hs : s.memory.mem.wf = true) (l va) : (s.condWord l va).2.memory.mem.wf = true := by
  unfold State.condWord; dsimp only; split <;> simp [hs]
@[simp] theorem State.act_wf {s : State} (hs : s.memory.mem.wf = true) (l x) : (s.act l x).2.memory.mem.wf = true := by
  unfold State.act; dsimp only
  split
  · split
    · simp [hs]
    · split
      · simp [hs]
      · split
        · simp [hs]
        · split <;> simp [hs]
        · simp [hs]
        · simp [hs]
  · split
    · split
      · split
        · simp [hs]
        · simp [hs]
        · split <;> simp [hs]
      · simp [hs]
    · simp [hs]

@[simp] theorem State.acts_wf (f) {s : State} (hs : s.memory.mem.wf = true) (l as) : (State.acts f s l as).2.memory.mem.wf = true := by
  induction f generalizing s l as with
  | zero => exact hs
  | succ f ih =>
    cases as with
    | nil => exact hs
    | cons a as =>
      unfold State.acts; dsimp only
      split
      · exact hs
      · split
        · simp [hs]
        · exact ih (by simp [hs]) _ _

@[simp] theorem State.setLaunch_mem (s : State) (l) : (s.setLaunch l).memory.mem = s.memory.mem := (rfl)
@[simp] theorem State.walkGraph_wf {s : State} (hs : s.memory.mem.wf = true) (l as) : (s.walkGraph l as).memory.mem.wf = true := by
  simp [hs, State.walkGraph]
@[simp] theorem State.resumeWalk_wf {s : State} (hs : s.memory.mem.wf = true) (l) : (s.resumeWalk l).memory.mem.wf = true := by
  simp [hs, State.resumeWalk]
@[simp] theorem State.dispatch_mem (s : State) (l i n cores) : (s.dispatch l i n cores).memory.mem = s.memory.mem := by
  simp [State.dispatch]
@[simp] theorem State.select1_mem (s : State) : (s.select1).2.memory.mem = s.memory.mem := by
  unfold State.select1; dsimp only
  split
  · simp
  · split
    · simp
    · split <;> simp

@[simp] theorem State.select_mem (f) (s : State) : (State.select f s).memory.mem = s.memory.mem := by
  induction f generalizing s with
  | zero => rfl
  | succ f ih =>
    simp [State.select, ih]

@[simp] theorem State.endLaunch_wf {s : State} (hs : s.memory.mem.wf = true) (l) : (s.endLaunch l).memory.mem.wf = true := by
  simp [hs, State.endLaunch]
@[simp] theorem State.hearthRun_wf {s : State} (hs : s.memory.mem.wf = true) : s.hearthRun.memory.mem.wf = true := by
  unfold State.hearthRun; extract_lets s0 s1
  have h0 : s0.memory.mem.wf = true := foldl_stateWf (fun _ _ hu => State.resumeWalk_wf hu _) _ hs
  have h1 : s1.memory.mem.wf = true := foldl_stateWf (fun u l hu => by
    split <;> simp [hu]) _ h0
  rwa [State.select_mem]

@[simp] theorem State.regate_mem (s : State) : (s.regate).memory.mem = s.memory.mem := (rfl)
@[simp] theorem State.setQueue_mem (s : State) (q k) : (s.setQueue q k).memory.mem = s.memory.mem := (rfl)
@[simp] theorem State.stopQueue_wf {s : State} (hs : s.memory.mem.wf = true) (q code) : (s.stopQueue q code).memory.mem.wf = true := by
  simp [hs, State.stopQueue]
@[simp] theorem State.queueWord_wf {s : State} (hs : s.memory.mem.wf = true) (q k va old) : (s.queueWord q k va old).2.memory.mem.wf = true := by
  unfold State.queueWord; dsimp only; split <;> simp [hs]
@[simp] theorem State.syncQueue_wf {s : State} (hs : s.memory.mem.wf = true) (q) : (s.syncQueue q).memory.mem.wf = true := by
  unfold State.syncQueue; dsimp only
  split
  · simp [hs]
  · split <;> simp [hs]

@[simp] theorem State.readRecord_wf {s : State} (hs : s.memory.mem.wf = true) (q k) : (s.readRecord q k).2.memory.mem.wf = true := by
  have ha : (s.asidOn k.asid).2.memory.mem.wf = true := by simpa using hs
  unfold State.readRecord; dsimp only
  split
  · exact hs
  · split
    next e => rwa [e] at ha
    next e => rwa [e] at ha
    next u e =>
      have hu : u.memory.mem.wf = true := by rwa [e] at ha
      split
      · simp [hu]
      · split
        · simp [hu]
        · split
          · simp [hu]
          · split
            · simp [hu]
            · split
              · simp [hu]
              · split
                · simp [hu]
                · split <;> simp [hu]
              · simp [hu]
      · simp [hu]

@[simp] theorem State.acceptRecord_wf {s : State} (hs : s.memory.mem.wf = true) (q k l) : (s.acceptRecord q k l).memory.mem.wf = true := by
  unfold State.acceptRecord; extract_lets first l0 hearth s1 s2
  have h1 : s1.memory.mem.wf = true := hs
  exact State.hearthRun_wf (State.hearthWrite_wf (by simp [s2, h1]) _ _ _)

@[simp] theorem State.readHeader_wf {s : State} (hs : s.memory.mem.wf = true) (l tt) : (s.readHeader l tt).2.memory.mem.wf = true := by
  unfold State.readHeader; dsimp only
  split
  · simp [hs]
  · simp [hs]
  · simp [hs]
  · split
    · simp [hs]
    · simp [hs]
    · simp [hs]
    · split
      · simp [hs]
      · split <;> simp [hs]

theorem State.fillPage_wf {s t : State} {asid e o} (hs : s.memory.mem.wf = true)
    (h : s.fillPage asid e o = .ok t ∨ s.fillPage asid e o = .wait t) : t.memory.mem.wf = true := by
  unfold State.fillPage at h; dsimp only at h
  split at h
  · rcases h with h | h <;> cases h; exact hs
  · split at h <;> rcases h with h | h <;> cases h <;> simp [hs]

theorem State.fillPages_wf {s t : State} {asid e os} (hs : s.memory.mem.wf = true)
    (h : State.fillPages asid e os s = .ok t ∨ State.fillPages asid e os s = .wait t) : t.memory.mem.wf = true := by
  induction os generalizing s with
  | nil => rcases h with h | h <;> cases h; exact hs
  | cons o os ih =>
    unfold State.fillPages at h
    split at h
    next u hu => exact ih (State.fillPage_wf hs (.inl hu)) h
    next r hr => exact State.fillPage_wf hs h

@[simp] theorem State.entryFault_wf {s : State} (hs : s.memory.mem.wf = true) (t code info pc) : (s.entryFault t code info pc).memory.mem.wf = true := by
  simp [hs, State.entryFault]
@[simp] theorem State.pageFault_wf {s : State} (hs : s.memory.mem.wf = true) (va) : (s.pageFault va).memory.mem.wf = true := by
  simp [hs, State.pageFault]
@[simp] theorem State.goOn_mem (s : State) : (s.goOn).memory.mem = s.memory.mem := by
  simp [State.goOn]
@[simp] theorem State.taskDone_wf {s : State} (hs : s.memory.mem.wf = true) (t) : (s.taskDone t).memory.mem.wf = true := by
  unfold State.taskDone
  split
  · simp [hs]
  · split <;> simp [hs]

@[simp] theorem State.ovlSettle_mem (s : State) : (s.ovlSettle).memory.mem = s.memory.mem := by
  simp [State.ovlSettle]

/-! ### Recovery -/
@[simp] theorem State.logCommand_wf {s : State} (hs : s.memory.mem.wf = true) (i ops data) : (s.logCommand i ops data).memory.mem.wf = true := by
  unfold State.logCommand; dsimp only; split <;> simp [hs]
@[simp] theorem State.markIrrevocable_mem (s : State) (b) : (s.markIrrevocable b).memory.mem = s.memory.mem := by
  simp [State.markIrrevocable]
@[simp] theorem State.markIrredispatch_mem (s : State) (b) : (s.markIrredispatch b).memory.mem = s.memory.mem := by
  unfold State.markIrredispatch
  split
  · split
    · split <;> simp
    · simp
  · simp

/-- A change of the core in focus; said for any core, so that no check evaluates its words. -/
theorem State.withCore_update_mem (s : State) (c : Core) : State.memory { s with core := c } = s.memory := rfl
@[simp] theorem State.setCstate_mem (s : State) (v) : (s.setCstate v).memory.mem = s.memory.mem :=
  congrArg (·.mem) (s.withCore_update_mem _)
@[simp] theorem State.departRun_mem (s : State) (status) : (s.departRun status).memory.mem = s.memory.mem := by
  rw [State.departRun, State.withCore_update_mem]; simp
@[simp] theorem State.touchPairs_mem (s : State) (a n) : (s.touchPairs a n).memory.mem = s.memory.mem := (rfl)

/-! ### Memory accesses -/
@[simp] theorem State.setCmd_mem (s : State) (k) : (s.setCmd k).memory.mem = s.memory.mem := (rfl)
@[simp] theorem State.finish_mem (s : State) (k code) : (s.finish k code).memory.mem = s.memory.mem := by
  unfold State.finish; split <;> simp
@[simp] theorem State.park_wf {s : State} (hs : s.memory.mem.wf = true) (k va write) : (s.park k va write).memory.mem.wf = true := by
  simp [hs, State.park]
@[simp] theorem State.plan_mem (s : State) (k rs) : (State.plan s k rs).2.memory.mem = s.memory.mem := by
  induction rs generalizing s with
  | nil => rfl
  | cons r rs ih => unfold State.plan; dsimp only; split <;> simp [ih]

@[simp] theorem State.ask_mem (s : State) (k segs) : (s.ask k segs).memory.mem = s.memory.mem := by
  simp [State.ask]
@[simp] theorem State.refused_mem (s : State) (k line) : (s.refused k line).memory.mem = s.memory.mem := (rfl)
@[simp] theorem State.readRanges_wf {s : State} (hs : s.memory.mem.wf = true) (k rs) :
    (Sum.elim id Prod.snd (s.readRanges k rs)).memory.mem.wf = true := by
  unfold State.readRanges
  extract_lets p
  have hp : p.2.memory.mem.wf = true := by rwa [show p.2.memory.mem = s.memory.mem from s.plan_mem .read rs]
  split
  · simp [hp]
  · simp [hp]
  · simp [hp]
  · split
    · simp [hp]
    · split
      · simp [hp]
      · extract_lets r
        have hr : r.2.memory.mem.wf = true := foldl_memWf Prod.snd (fun a g hu => by split <;> simp [hu]) _ hp
        split <;> simp [hr]

theorem State.readRanges_inl_wf {s t : State} {k rs} (hs : s.memory.mem.wf = true) (h : s.readRanges k rs = .inl t) :
    t.memory.mem.wf = true := by
  simpa [h] using State.readRanges_wf hs k rs

theorem State.readRanges_inr_wf {s : State} {k rs r} (hs : s.memory.mem.wf = true) (h : s.readRanges k rs = .inr r) :
    r.2.memory.mem.wf = true := by
  simpa [h] using State.readRanges_wf hs k rs

@[simp] theorem State.writeRemote_mem (s : State) (born g bs) : (s.writeRemote born g bs).2.memory.mem = s.memory.mem := by
  unfold State.writeRemote; split <;> simp
@[simp] theorem State.writeSegs_wf {s : State} (hs : s.memory.mem.wf = true) (born segs bs) :
    (s.writeSegs born segs bs).2.memory.mem.wf = true :=
  foldl_memWf (fun a : List (BitVec 32) × List Byte × State => a.2.2) (fun a g hu => by simp [hu]) _ hs

@[simp] theorem State.releaseOwn_wf {s : State} (hs : s.memory.mem.wf = true) (k segs) : (s.releaseOwn k segs).2.memory.mem.wf = true := by
  unfold State.releaseOwn; split <;> simp [hs]
@[simp] theorem State.written_mem (s : State) (k acks fans code) : (s.written k acks fans code).memory.mem = s.memory.mem := by
  simp [State.written]
@[simp] theorem State.writeRanges_wf {s : State} (hs : s.memory.mem.wf = true) (k rs bs) : (s.writeRanges k rs bs).memory.mem.wf = true := by
  unfold State.writeRanges; dsimp only
  split
  · simp [hs]
  · simp [hs]
  · simp [hs]
  · split <;> simp [hs]

@[simp] theorem State.loadInto_mem (s : State) (i n v) : (s.loadInto i n v).memory.mem = s.memory.mem := by
  unfold State.loadInto; split <;> simp
@[simp] theorem State.setClock_mem (s : State) (sc t) : (s.setClock sc t).memory.mem = s.memory.mem := by
  simp [State.setClock]
@[simp] theorem State.homeAccess_wf {s : State} (hs : s.memory.mem.wf = true) (k pa) : (s.homeAccess k pa).memory.mem.wf = true := by
  unfold State.homeAccess; dsimp only
  split
  · simp [hs]
  · split
    · simp [hs]
    · split
      · simp [hs]
      · split
        · split <;> simp [hs]
        · split <;> simp [hs]

@[simp] theorem State.hostAccess_wf {s : State} (hs : s.memory.mem.wf = true) (k pa) : (s.hostAccess k pa).memory.mem.wf = true := by
  unfold State.hostAccess; dsimp only
  split
  · split <;> simp [hs]
  · split <;> simp [hs]

@[simp] theorem State.remoteAccess_mem (s : State) (k kind m pa) : (s.remoteAccess k kind m pa).memory.mem = s.memory.mem := by
  simp [State.remoteAccess]
@[simp] theorem State.atHome_wf {s : State} (hs : s.memory.mem.wf = true) (k) : (s.atHome k).memory.mem.wf = true := by
  unfold State.atHome; dsimp only
  split
  · simp [hs]
  · split
    · simp [hs]
    · simp [hs]
    · simp [hs]
    · simp [hs]
    · split <;> simp [hs]

@[simp] theorem State.takeRemote_mem (s : State) (k) : (s.takeRemote k).memory.mem = s.memory.mem := by
  simp [State.takeRemote]
@[simp] theorem State.rowSide_mem (s : State) (sp write a n) : (s.rowSide sp write a n).2.memory.mem = s.memory.mem := by
  unfold State.rowSide
  split
  · simp
  · split <;> simp

@[simp] theorem State.planRows_mem (ssp dsp n rs) (s : State) : (State.planRows ssp dsp n rs s).2.2.memory.mem = s.memory.mem := by
  induction rs generalizing s with
  | nil => rfl
  | cons r rs ih =>
    unfold State.planRows; dsimp only
    split
    · simp
    · split <;> simp [ih]

@[simp] theorem State.rowRead_wf {s : State} (hs : s.memory.mem.wf = true) (k ue ssp n p) :
    (s.rowRead k ue ssp n p).2.memory.mem.wf = true := by
  unfold State.rowRead; split
  · exact hs
  · split
    · exact hs
    · split
      · exact foldl_memWf Prod.snd (fun a g hu => by split <;> simp [hu]) _ hs
      · exact hs

@[simp] theorem State.watchRead_wf {s : State} (hs : s.memory.mem.wf = true) (k final) : (s.watchRead k final).memory.mem.wf = true := by
  unfold State.watchRead; dsimp only
  split
  · simp [hs]
  · split
    · simp [hs]
    · split
      next h => exact State.readRanges_inl_wf hs h
      next h => have hr := State.readRanges_inr_wf hs h; split <;> simpa using hr

@[simp] theorem State.enqueue_mem (s : State) (entry m) : (s.enqueue entry m).memory.mem = s.memory.mem := (rfl)
@[simp] theorem State.pathLost_mem (s : State) (e) : (s.pathLost e).memory.mem = s.memory.mem := (rfl)

/-! ### Copies -/
@[simp] theorem State.logged_wf {s : State} (hs : s.memory.mem.wf = true) (i h ops data) : (s.logged i h ops data).memory.mem.wf = true := by
  simp [hs, State.logged]
@[simp] theorem State.start_wf {s : State} (hs : s.memory.mem.wf = true) (i h tok ops addr data ring) : (s.start i h tok ops addr data ring).memory.mem.wf = true := by
  simp [hs, State.start]
@[simp] theorem State.touchAll_mem (s : State) (ext) : (s.touchAll ext).memory.mem = s.memory.mem := by
  simp [State.touchAll]
@[simp] theorem State.markArrival_mem (s : State) (k) : (s.markArrival k).memory.mem = s.memory.mem := (rfl)
@[simp] theorem State.setBus_mem (s : State) (b) : (s.setBus b).memory.mem = s.memory.mem := (rfl)
@[simp] theorem State.resumeChannel_mem (s : State) (e) : (s.resumeChannel e).memory.mem = s.memory.mem := by
  simp [State.resumeChannel]

/-! ### Crucible commands -/
@[simp] theorem State.kFail_mem (s : State) (k code) : (s.kFail k code).memory.mem = s.memory.mem := by
  simp [State.kFail]
@[simp] theorem State.kAsk_mem (s : State) (k m stage r) : (s.kAsk k m stage r).memory.mem = s.memory.mem := by
  simp [State.kAsk]
@[simp] theorem State.lookAsk_mem (s : State) (k stage r) : (s.lookAsk k stage r).memory.mem = s.memory.mem := by
  simp [State.lookAsk]
@[simp] theorem State.askInfo_mem (s : State) (k gone) (h : gone.memory.mem = s.memory.mem) : (s.askInfo k gone).memory.mem = s.memory.mem := by
  simp [State.askInfo, h]
@[simp] theorem State.putHeaders_wf {s : State} (hs : s.memory.mem.wf = true) (p n parent toks) :
    (s.putHeaders p n parent toks).memory.mem.wf = true :=
  foldl_stateWf (fun _ _ hu => State.homePut_wf hu _ _ _ _) _ hs

@[simp] theorem State.roomFor_mem (s : State) (p need) : (s.roomFor p need).2.memory.mem = s.memory.mem := by
  unfold State.roomFor; split
  · rfl
  · split
    · split
      next h => exact State.reclaimSlot_mem h
      next => rfl
    · simp

@[simp] theorem State.sealAct_mem (s : State) (w n) : (s.sealAct w n).s.memory.mem = s.memory.mem := by
  unfold State.sealAct
  split
  · split
    · rfl
    · split
      · rfl
      · split
        · rfl
        · split
          · rfl
          · split <;> simp
  all_goals rfl

@[simp] theorem State.kAct_mem (s : State) (w op n arg) : (s.kAct w op n arg).s.memory.mem = s.memory.mem := by
  unfold State.kAct
  split
  · exact s.sealAct_mem w n
  · simp
  · split
    next h => exact State.takeRef_mem h
    next => rfl
  · split <;> simp
  · split
    · simp
    · split <;> simp

@[simp] theorem State.settleRemote_mem (s : State) (op st m) : (s.settleRemote op st m).memory.mem = s.memory.mem := by
  simp [State.settleRemote]
@[simp] theorem State.doKwr_wf {s : State} (hs : s.memory.mem.wf = true) (k) : (s.doKwr k).memory.mem.wf = true := by
  unfold State.doKwr; dsimp only
  split
  · simp [hs]
  · split
    · simp [hs]
    · split
      · simp [hs]
      · split
        · simp [hs]
        · split
          · simp [hs]
          · split <;> simp [hs]

@[simp] theorem State.kldTouch_mem (s : State) (pin n p arg) : (s.kldTouch pin n p arg).memory.mem = s.memory.mem := by
  refine foldl_mem _ _ _ fun t i => ?_
  dsimp only; split <;> simp

@[simp] theorem State.specMarks_mem (s : State) (k) : (s.specMarks k).memory.mem = s.memory.mem := by
  unfold State.specMarks
  split
  · simp
  · split <;> simp

@[simp] theorem State.replEnd_mem (s : State) (k) : (s.replEnd k).memory.mem = s.memory.mem := by
  simp [State.replEnd]
@[simp] theorem State.askImage_mem (s : State) (k d) : (s.askImage k d).memory.mem = s.memory.mem := by
  simp [State.askImage]
theorem State.beginReplica_wf {s t : State} {k p} (hs : s.memory.mem.wf = true) (h : s.beginReplica k p = some t) :
    t.memory.mem.wf = true := by
  have hr : (s.roomFor p (sumN (k.image.blocks.map (fun b => granulesOf b.bytes.length)))).2.memory.mem.wf = true := by simpa using hs
  unfold State.beginReplica at h; dsimp only at h
  split at h
  next e => rw [e] at hr; cases h; simpa using hr
  next e => rw [e] at hr; split at h <;> cases h; simpa using hr
  next e =>
    rw [e] at hr
    split at h
    · cases h; simpa using hr
    · split at h <;> cases h <;> simp at hr ⊢ <;> simp [hr]

@[simp] theorem State.kAbandon_mem (s : State) (k) : (s.kAbandon k).memory.mem = s.memory.mem := by
  unfold State.kAbandon; dsimp only
  split
  · split
    · simp
    · split <;> simp
  · split
    · simp
    · split <;> simp

@[simp] theorem State.setBad_mem (s : State) (n d) : (s.setBad n d).memory.mem = s.memory.mem := by
  unfold State.setBad; split <;> simp
@[simp] theorem State.serveK_mem (s : State) (src tag r) : (s.serveK src tag r).memory.mem = s.memory.mem := by
  unfold State.serveK; dsimp only
  split
  · simp
  · simp
  · simp
  · split
    · simp
    · split
      · simp
      · split
        · simp
        · simp [State.kAct_mem]
  · split
    · simp
    · split
      · simp
      · split
        · simp
        · split <;> simp
  · split
    · simp
    · split
      · split <;> simp
      · simp
  · simp
  · simp
  · simp
  · simp
  · simp
  · split <;> simp
  · rfl

/-! ### Pace -/
@[simp] theorem State.tick_mem (s : State) (weight) : (s.tick weight).memory.mem = s.memory.mem := by
  unfold State.tick; dsimp only; split <;> simp
@[simp] theorem State.frozen_mem (s : State) (count) : (s.frozen count).memory.mem = s.memory.mem := by
  simp [State.frozen]
@[simp] theorem State.raiseVote_wf {s : State} (hs : s.memory.mem.wf = true) : (s.raiseVote).memory.mem.wf = true := by
  simp [hs, State.raiseVote]

/-! ### Contexts -/
@[simp] theorem State.sysWrite_wf {s : State} (hs : s.memory.mem.wf = true) (pa bs) : (s.sysWrite pa bs).memory.mem.wf = true := by
  simp [hs, State.sysWrite]
@[simp] theorem State.sysTouch_mem (s : State) (pa n) : (s.sysTouch pa n).memory.mem = s.memory.mem := by
  simp [State.sysTouch]

/-- The two facts behind the area said of `memoryWf`, whose argument a check compares as it stands: the bytes of a whole context
are never evaluated. -/
theorem foldl_memoryWf {β : Type} {g : State → β → State} (hg : ∀ u b, u.memoryWf → (g u b).memoryWf) (l : List β) {s : State}
    (hs : s.memoryWf) : (l.foldl g s).memoryWf := foldl_stateWf hg l hs
theorem State.sysWrite_memoryWf {s : State} (hs : s.memoryWf) (pa bs) : (s.sysWrite pa bs).memoryWf := State.sysWrite_wf hs pa bs
theorem State.writeArea_memoryWf {s : State} (hs : s.memoryWf) (t mode) : (s.writeArea t mode).memoryWf := by
  unfold State.writeArea; extract_lets c light fa s1
  have h1 : s1.memoryWf := State.sysWrite_memoryWf hs _ _
  refine foldl_memoryWf (fun u g hu => ?_) _ h1
  extract_lets b s2 s3
  have h2 : s2.memoryWf := by unfold s2; split <;> exact State.sysWrite_memoryWf hu _ _
  have h3 : s3.memoryWf := foldl_memoryWf (fun v n hv => by
    split
    · exact State.sysWrite_memoryWf hv _ _
    · exact hv) _ h2
  exact State.sysWrite_memoryWf h3 _ _

@[simp] theorem State.writeArea_wf {s : State} (hs : s.memory.mem.wf = true) (t mode) : (s.writeArea t mode).memory.mem.wf = true :=
  State.writeArea_memoryWf hs t mode
@[simp] theorem State.stopForSave_mem (s : State) (mode) : (s.stopForSave mode).memory.mem = s.memory.mem := by
  simp [State.stopForSave]
@[simp] theorem State.leaveSaved_mem (s : State) (v) : (s.leaveSaved v).memory.mem = s.memory.mem := by
  simp [State.leaveSaved]
@[simp] theorem State.discardSaved_wf {s : State} (hs : s.memory.mem.wf = true) (p) : (s.discardSaved p).memory.mem.wf = true := by
  unfold State.discardSaved; split <;> simp [hs]
@[simp] theorem State.areaTouch_mem (s : State) : (s.areaTouch).memory.mem = s.memory.mem := by
  simp [State.areaTouch]
theorem State.refill_wf {s t : State} {k} (hs : s.memory.mem.wf = true) (h : s.refill k = .ok t ∨ s.refill k = .wait t) :
    t.memory.mem.wf = true := by
  unfold State.refill at h; dsimp only at h
  split at h
  · rcases h with h | h <;> cases h; exact hs
  · split at h
    · split at h
      · rcases h with h | h <;> cases h; simp [hs]
      · rcases h with h | h <;> cases h
      · exact State.fillPages_wf (by simp [hs]) h
    · rcases h with h | h <;> cases h; exact hs

/-! ### The driver -/
@[simp] theorem State.fence_mem (s : State) (tags) : (s.fence tags).memory.mem = s.memory.mem := (rfl)
@[simp] theorem State.dropSends_mem (s : State) (chans) : (s.dropSends chans).memory.mem = s.memory.mem := by
  simp [State.dropSends]
@[simp] theorem State.dropCommands_mem (s : State) : (s.dropCommands).memory.mem = s.memory.mem := by
  simp [State.dropCommands]
@[simp] theorem State.cutOff_mem (s : State) (status) : (s.cutOff status).memory.mem = s.memory.mem := by
  simp [State.cutOff]
@[simp] theorem State.dropReads_mem (s : State) (a) : (s.dropReads a).memory.mem = s.memory.mem := (rfl)
@[simp] theorem State.hostClean_wf {s : State} (hs : s.memory.mem.wf = true) (a) : (s.hostClean a).memory.mem.wf = true :=
  State.hostWriteBack_wf hs _
@[simp] theorem State.setFret_mem (s : State) (old n) : (s.setFret old n).memory.mem = s.memory.mem := by
  simp [State.setFret]
@[simp] theorem State.moveGranules_mem (s : State) (old new) : (s.moveGranules old new).memory.mem = s.memory.mem := (rfl)
@[simp] theorem State.countGone_mem (s : State) (gone) : (s.countGone gone).memory.mem = s.memory.mem :=
  foldl_mem _ _ _ State.settleFan_mem
@[simp] theorem State.markPaths_mem (s : State) (m down) : (s.markPaths m down).memory.mem = s.memory.mem := (rfl)
@[simp] theorem State.crucibleWithout_mem (s : State) (m) : (s.crucibleWithout m).memory.mem = s.memory.mem := by
  simp [State.crucibleWithout]
@[simp] theorem State.nextMaster_mem (s : State) (m) : (s.nextMaster m).memory.mem = s.memory.mem := by
  simp [State.nextMaster]
@[simp] theorem State.removeModule_wf {s : State} (hs : s.memory.mem.wf = true) (mid) : (s.removeModule mid).memory.mem.wf = true := by
  simp [hs, State.removeModule]

/-! ### Bring-up -/
@[simp] theorem State.setM_mem (s : State) (m) : (s.setM m).memory.mem = s.memory.mem := (rfl)

@[simp] theorem State.relimit_mem (s : State) : s.relimit.memory.mem = s.memory.mem :=
  congrArg (·.mem) s.relimit_rest.2.2.1
@[simp] theorem State.go_wf {s : State} (hs : s.memory.mem.wf = true) : (s.go).memory.mem.wf = true := by
  simp [hs, State.go]
@[simp] theorem State.writeHcfg_wf {s : State} (hs : s.memory.mem.wf = true) (v) : (s.writeHcfg v).memory.mem.wf = true := by
  simp [hs, State.writeHcfg]
@[simp] theorem State.dropTlb_mem (s : State) (p) : (s.dropTlb p).memory.mem = s.memory.mem := (rfl)
@[simp] theorem State.shoot_mem (s : State) (v) : (s.shoot v).memory.mem = s.memory.mem := by
  simp [State.shoot]
@[simp] theorem State.ovlInvalidate_mem (s : State) (p) : (s.ovlInvalidate p).memory.mem = s.memory.mem := by
  simp [State.ovlInvalidate]
@[simp] theorem State.writeCrmark_mem (s : State) (v) : (s.writeCrmark v).memory.mem = s.memory.mem := by
  simp [State.writeCrmark]
@[simp] theorem State.writeHlccfg_wf {s : State} (hs : s.memory.mem.wf = true) (v) : (s.writeHlccfg v).memory.mem.wf = true := by
  simp [hs, State.writeHlccfg]
@[simp] theorem State.readmit_mem (s : State) (v) : (s.readmit v).memory.mem = s.memory.mem := by
  simp [State.readmit]
@[simp] theorem State.nsTouch_mem (s : State) (slot) : (s.nsTouch slot).memory.mem = s.memory.mem := by
  simp [State.nsTouch]
@[simp] theorem State.nsStatus_mem (s : State) (k) : (s.nsStatus k).memory.mem = s.memory.mem := s.setM_mem _
@[simp] theorem State.nsMake_mem (s0 : State) (slot) : (s0.nsMake slot).memory.mem = s0.memory.mem := by
  simp [State.nsMake]
@[simp] theorem State.nsDrop_mem (s : State) (slot) : (s.nsDrop slot).memory.mem = s.memory.mem := by
  unfold State.nsDrop; split <;> simp
@[simp] theorem State.nsGrant_mem (s : State) (slot) : (s.nsGrant slot).memory.mem = s.memory.mem := by
  unfold State.nsGrant; split <;> simp
@[simp] theorem State.nsRun_mem (s : State) : (s.nsRun).memory.mem = s.memory.mem := by
  simp [State.nsRun]
theorem State.nsRunDue_mem (s : State) (m : Regs0) :
    (let s1 := s.setM m; if s1.nsDue then s1.nsRun else s1).memory.mem = s.memory.mem := by
  dsimp only; split
  · exact (State.nsRun_mem _).trans (s.setM_mem m)
  · exact s.setM_mem m

@[simp] theorem State.nsStart_mem (s : State) (op slot) : (s.nsStart op slot).memory.mem = s.memory.mem := by
  unfold State.nsStart
  split
  · rfl
  · exact s.nsRunDue_mem _

@[simp] theorem State.writeLq3_wf {s : State} (hs : s.memory.mem.wf = true) (q v) : (s.writeLq3 q v).memory.mem.wf = true := by
  simp [hs, State.writeLq3]
@[simp] theorem State.restartQueue_wf {s : State} (hs : s.memory.mem.wf = true) (q) : (s.restartQueue q).memory.mem.wf = true := by
  simp [hs, State.restartQueue]
@[simp] theorem State.writeLq_wf {s : State} (hs : s.memory.mem.wf = true) (q k v) : (s.writeLq q k v).memory.mem.wf = true := by
  unfold State.writeLq
  split
  · simp [hs]
  · split <;> simp [hs]

@[simp] theorem State.sstat_mem (s : State) (stk code) : (s.sstat stk code).memory.mem = s.memory.mem := (rfl)
@[simp] theorem State.writeSlab_mem (s : State) (stk i v) : (s.writeSlab stk i v).memory.mem = s.memory.mem := by
  simp [State.writeSlab]
@[simp] theorem State.writeRoles_mem (s : State) (stk i pairs v) : (s.writeRoles stk i pairs v).memory.mem = s.memory.mem := by
  simp [State.writeRoles]
@[simp] theorem State.loadWs_mem (s : State) (stk v) : (s.loadWs stk v).memory.mem = s.memory.mem := by
  simp [State.loadWs]
theorem State.engineRead_mem {s t : State} {src len bs} (h : s.engineRead src len = some (bs, t)) : t.memory.mem = s.memory.mem := by
  unfold State.engineRead at h
  split at h
  · simp only [Option.some.injEq, Prod.ext_iff] at h; simp [← h.2]
  · split at h <;> cases h; rfl

@[simp] theorem State.reformed_mem (s : State) : (s.reformed).memory.mem = s.memory.mem := by
  simp [State.reformed]
@[simp] theorem State.writeDomain_mem (s : State) (v) : (s.writeDomain v).memory.mem = s.memory.mem := by
  simp [State.writeDomain]
@[simp] theorem State.writeModule_mem (s : State) (off v) : (s.writeModule off v).memory.mem = s.memory.mem := by
  unfold State.writeModule; dsimp only; split <;> simp
@[simp] theorem State.writeStack_wf {s : State} (hs : s.memory.mem.wf = true) (stk off v) : (s.writeStack stk off v).memory.mem.wf = true := by
  unfold State.writeStack; split <;> simp [hs]
@[simp] theorem State.writeCore_mem (s : State) (n v) : (s.writeCore n v).memory.mem = s.memory.mem := by
  simp [State.writeCore]

/-! ### Links -/
@[simp] theorem State.learn_mem (s : State) (m inc) : (s.learn m inc).memory.mem = s.memory.mem := (rfl)
@[simp] theorem State.learnStack_mem (s : State) (m) : (s.learnStack m).memory.mem = s.memory.mem := (rfl)
@[simp] theorem State.failLink_mem (s : State) (n l) : (s.failLink n l).memory.mem = s.memory.mem := (rfl)
@[simp] theorem State.drain_mem (s : State) (n) : (s.drain n).memory.mem = s.memory.mem := by
  simp [State.drain]
@[simp] theorem State.switchRoute_mem (s : State) (d w) : (s.switchRoute d w).memory.mem = s.memory.mem := by
  simp [State.switchRoute]
@[simp] theorem State.takeAck_mem (s : State) (n ack) : (s.takeAck n ack).memory.mem = s.memory.mem := by
  unfold State.takeAck; dsimp only; split <;> simp
@[simp] theorem State.takeNak_mem (s : State) (n seq) : (s.takeNak n seq).memory.mem = s.memory.mem := by
  simp [State.takeNak]
@[simp] theorem State.takePause_mem (s : State) (n vl on) : (s.takePause n vl on).memory.mem = s.memory.mem := by
  simp [State.takePause]
@[simp] theorem State.takeCpause_mem (s : State) (n ch on) : (s.takeCpause n ch on).memory.mem = s.memory.mem := by
  simp [State.takeCpause]
@[simp] theorem State.takeControl_mem (s : State) (n code arg) : (s.takeControl n code arg).memory.mem = s.memory.mem := by
  unfold State.takeControl; split <;> simp
@[simp] theorem State.occupy_mem (s : State) (n vl add sub) : (s.occupy n vl add sub).memory.mem = s.memory.mem := by
  simp [State.occupy]
@[simp] theorem State.nakFor_mem (s : State) (n) : (s.nakFor n).memory.mem = s.memory.mem := by
  simp [State.nakFor]
@[simp] theorem State.arriveMsg_wf {s : State} (hs : s.memory.mem.wf = true) (n m) : (s.arriveMsg n m).memory.mem.wf = true := by
  simp [hs, State.arriveMsg]
@[simp] theorem State.takePayload_wf {s : State} (hs : s.memory.mem.wf = true) (n vl p) : (s.takePayload n vl p).memory.mem.wf = true := by
  simp [hs, State.takePayload]
@[simp] theorem State.consume_mem (s : State) (n m) : (s.consume n m).memory.mem = s.memory.mem := by
  simp [State.consume]
@[simp] theorem State.respond_mem (s : State) (m r) : (s.respond m r).memory.mem = s.memory.mem := by
  simp [State.respond]
theorem State.serveMem_wf {s t : State} {r x ls} (hs : s.memory.mem.wf = true) (h : s.serveMem r = some (x, ls, t)) :
    t.memory.mem.wf = true := by
  unfold State.serveMem at h
  extract_lets n ls at h
  split at h
  · cases h
  · split at h
    · cases h; exact hs
    · split at h
      · cases h; simp [hs]
      · rename_i old y cmp s1 st _ _ _
        have h1 : s1.memory.mem.wf = true := by
          unfold s1; split
          · simp [hs]
          · simp [hs]
          · split <;> simp [hs]
        cases h
        simp [st, apply_ite Prod.snd, h1]

@[simp] theorem State.takeResponse_mem (s : State) (tag r) : (s.takeResponse tag r).memory.mem = s.memory.mem := by
  simp [State.takeResponse]
@[simp] theorem State.placed_mem (s : State) (entry) : (s.placed entry).memory.mem = s.memory.mem := State.mapCores_mem _ _
@[simp] theorem State.idleFlit_mem (s : State) (n) : (s.idleFlit n).memory.mem = s.memory.mem := by
  simp [State.idleFlit]
@[simp] theorem State.lostOver_wf {s : State} (hs : s.memory.mem.wf = true) (n) : (s.lostOver n).memory.mem.wf = true := by
  unfold State.lostOver; dsimp only; split
  · exact foldl_stateWf (fun _ _ hu => State.removeModule_wf hu _) _ hs
  · exact hs

@[simp] theorem State.publishGroup_mem (s : State) (b) : (s.publishGroup b).memory.mem = s.memory.mem := by
  simp [State.publishGroup]
@[simp] theorem State.publish_mem (s : State) : (s.publish).memory.mem = s.memory.mem := by
  simp [State.publish]

/-! ### The board -/
@[simp] theorem State.measured_mem (s : State) (m) : (s.measured m).memory.mem = s.memory.mem := (rfl)
@[simp] theorem State.spdmAnswer_mem (s : State) (kind bs) : (s.spdmAnswer kind bs).memory.mem = s.memory.mem := by
  simp [State.spdmAnswer]

/-! ### Scalar -/

/-! ### Issue -/
@[simp] theorem State.calm_mem (s : State) : (s.calm).memory.mem = s.memory.mem := (rfl)
@[simp] theorem State.atBundle_mem (s : State) (pc len) : (s.atBundle pc len).memory.mem = s.memory.mem := (rfl)
@[simp] theorem State.ungrant_mem (s : State) : (s.ungrant).memory.mem = s.memory.mem := (rfl)
@[simp] theorem State.failAt_wf {s : State} (hs : s.memory.mem.wf = true) (t) : (s.failAt t).memory.mem.wf = true := by
  unfold State.failAt; split <;> simp [hs]

end Sys2Proof.Machine
end

section
/-! ## What comes of an event, a slot or an instruction
`SomeWf`, `SlotWf` and `NextWf`: whatever state comes of it has its memory in canonical form. -/
namespace Sys2Proof.Machine
open Sys2Proof

/-- Whatever state an event comes to, its memory is canonical. -/
def SomeWf (o : Option State) : Prop := ∀ t, o = some t → t.memory.mem.wf = true

/-- Whatever state a slot's effect is, its memory is canonical. -/
def SlotWf (r : SlotRes) : Prop := ∀ t, r = .ok t → t.memory.mem.wf = true

/-- Whatever state comes next, its memory is canonical. -/
def NextWf (o : Host.Outcome State Fault Refusal) : Prop := ∀ t, o = .next t → t.memory.mem.wf = true

@[simp] theorem someWf_some {t : State} : SomeWf (some t) ↔ t.memory.mem.wf = true := by simp [SomeWf]
@[simp] theorem someWf_none : SomeWf none := by simp [SomeWf]
@[simp] theorem slotWf_ok {t : State} : SlotWf (.ok t) ↔ t.memory.mem.wf = true := by simp [SlotWf]
@[simp] theorem slotWf_fault {code tok info} : SlotWf (.fault code tok info) := by simp [SlotWf]
@[simp] theorem slotWf_hold {hs} : SlotWf (.hold hs) := by simp [SlotWf]
@[simp] theorem slotWf_illop {i} : SlotWf (.illop i) := by simp [SlotRes.illop]
@[simp] theorem nextWf_next {t : State} : NextWf (.next t) ↔ t.memory.mem.wf = true := by simp [NextWf]
@[simp] theorem nextWf_refused {r} : NextWf (.refused r) := by simp [NextWf]
@[simp] theorem nextWf_enabledOr {nm o} : NextWf (enabledOr nm o) ↔ SomeWf o := by
  cases o <;> simp [enabledOr]
@[simp] theorem someWf_ite {p : Prop} [Decidable p] {b c : Option State} :
    SomeWf (if p then b else c) ↔ if p then SomeWf b else SomeWf c := by split <;> rfl
@[simp] theorem slotWf_ite {p : Prop} [Decidable p] {b c : SlotRes} :
    SlotWf (if p then b else c) ↔ if p then SlotWf b else SlotWf c := by split <;> rfl
@[simp] theorem nextWf_ite {p : Prop} [Decidable p] {b c : Host.Outcome State Fault Refusal} :
    NextWf (if p then b else c) ↔ if p then NextWf b else NextWf c := by split <;> rfl

/-- Bringing a core into focus leaves memory alone. -/
theorem State.focus_mem {s t : State} {c : Nat} (h : s.focus c = some t) : t.memory.mem = s.memory.mem := by
  unfold State.focus at h
  split at h
  · cases h; rfl
  · split at h <;> cases h; rfl

theorem State.focus_getD_mem (s : State) (c : Nat) : ((s.focus c).getD s).memory.mem = s.memory.mem := by
  cases h : s.focus c with
  | none => rfl
  | some t => exact State.focus_mem h

theorem State.atCore_wf {s : State} {c : Nat} {f : State → State} (hs : s.memory.mem.wf = true)
    (hf : ∀ u : State, u.memory.mem.wf = true → (f u).memory.mem.wf = true) : (s.atCore c f).memory.mem.wf = true := by
  unfold State.atCore
  split
  · exact hs
  next hc => rw [State.focus_getD_mem]; exact hf _ (by rwa [State.focus_mem hc])

theorem State.atCore?_wf {s : State} {c : Nat} {f : State → Option State} (hs : s.memory.mem.wf = true)
    (hf : ∀ u : State, u.memory.mem.wf = true → SomeWf (f u)) : SomeWf (s.atCore? c f) := by
  unfold State.atCore?
  split
  · simp
  next hc =>
    split
    · simp
    next ht =>
      rw [someWf_some, State.focus_getD_mem]
      exact hf _ (by rwa [State.focus_mem hc]) _ ht

end Sys2Proof.Machine
end

section
/-! ## What writes register space and banks writes no memory -/
namespace Sys2Proof.Machine
open Sys2Proof

@[simp] theorem State.putBank_mem (s : State) (cells) : (s.putBank cells).memory.mem = s.memory.mem := rfl
@[simp] theorem State.finishJob_mem (s : State) (j) : (s.finishJob j).memory.mem = s.memory.mem := congrArg (·.mem) (s.withCore_update_mem _)
@[simp] theorem State.enter_mem (s : State) (t x1 e) : (s.enter t x1 e).memory.mem = s.memory.mem :=
  congrArg (·.mem) ((State.setStack _ _ _).withCore_update_mem _)
@[simp] theorem State.restoreCheckpoint_mem (s : State) (t) : (s.restoreCheckpoint t).memory.mem = s.memory.mem := congrArg (·.mem) (s.withCore_update_mem _)
@[simp] theorem State.restoreArea_mem (s : State) (v) : (s.restoreArea v).memory.mem = s.memory.mem := congrArg (·.mem) (s.withCore_update_mem _)
@[simp] theorem State.begin_mem (s : State) : s.begin.memory.mem = s.memory.mem := rfl
@[simp] theorem State.withCore_mem (s : State) (c) : (s.withCore c).memory.mem = s.memory.mem := by
  unfold State.withCore; split <;> rfl
@[simp] theorem State.takeCheckpoint_mem (s : State) (t) : (s.takeCheckpoint t).memory.mem = s.memory.mem := by
  unfold State.takeCheckpoint; split <;> simp
@[simp] theorem State.kPut_mem (s : State) (p bs) : (s.kPut p bs).memory.mem = s.memory.mem := s.putBank_mem _

theorem foldl_dropEntry_mem (l : List DirEntry) (s : State) : (l.foldl State.dropEntry s).memory.mem = s.memory.mem :=
  foldl_mem _ _ _ State.dropEntry_mem

/-- A reset writes the host's lines back and keeps the bytes of memory. -/
@[simp] theorem State.resetModule_wf {s : State} (hs : s.memory.mem.wf = true) : s.resetModule.memory.mem.wf = true := by
  unfold State.resetModule; extract_lets s0 r
  have h0 : s0.memory.mem.wf = true := by
    rw [show s0.memory.mem = _ from foldl_dropEntry_mem _ _]; exact State.hostFlush_wf hs
  rw [State.relimit_mem]
  exact h0

/-- Cutting the power leaves host memory, a part of memory. -/
theorem State.unpower_wf {s : State} (hs : s.memory.mem.wf = true) : s.unpower.memory.mem.wf = true := Memory.filter_wf _ hs

end Sys2Proof.Machine
end

section
/-! ## Slots
What an instruction does is the outcome of its slot: the state that its body leaves, or the state with the slot held or stopped. -/
namespace Sys2Proof.Machine
open Sys2Proof

section
variable {s : State}

@[simp] theorem settle_wf (hs : s.memory.mem.wf = true) {body} (hb : SlotWf body) (slot) : NextWf (settle slot s body) := by
  cases body with
  | ok t => simpa [settle] using hb
  | fault code tok info => simp [settle, hs]
  | hold hs' => simp [settle, hs]

@[simp] theorem issue_wf (hs : s.memory.mem.wf = true) {body} (hb : SlotWf body) (hd slot) : NextWf (issue hd slot s body) := by
  simp [issue, settle_wf hs hb, hs]
@[simp] theorem vissue_wf (hs : s.memory.mem.wf = true) {body} (hb : SlotWf body) (hd es) : NextWf (vissue hd es s body) := by
  simp [vissue, settle_wf hs hb, hs]
@[simp] theorem cissue_wf (hs : s.memory.mem.wf = true) {body} (hb : SlotWf body) (i hd specOk) :
    NextWf (cissue i hd specOk s body) := by
  unfold cissue
  exact issue_wf hs (by simp [hb]) _ _

@[simp] theorem tokenRoom_wf {r} (hr : SlotWf r) (tok) : SlotWf (tokenRoom s tok r) := by
  simp [tokenRoom, hr]
@[simp] theorem scalarResult_wf (hs : s.memory.mem.wf = true) (hd lat v dests) : SlotWf (scalarResult hd lat s v dests) := by
  unfold scalarResult; dsimp only; split
  · split <;> simp [hs]
  · simp [hs]

@[simp] theorem xResult_wf (hs : s.memory.mem.wf = true) (hd lat d v) : SlotWf (xResult hd lat s d v) := by
  unfold xResult; exact scalarResult_wf hs _ _ _ _
@[simp] theorem cmpResult_wf (hs : s.memory.mem.wf = true) (i hd ft ff t) : SlotWf (cmpResult i hd s ft ff t) := by
  unfold cmpResult; simp [scalarResult_wf hs]
@[simp] theorem vResult_wf (hs : s.memory.mem.wf = true) (hd lat da bytes) : SlotWf (vResult hd s lat da bytes) := by
  simp [vResult, hs]
@[simp] theorem elementwise_wf (hs : s.memory.mem.wf = true) (i hd o lat legal readsD unary f) :
    NextWf (elementwise i hd o lat legal readsD unary s f) := by
  unfold elementwise; dsimp only
  refine vissue_wf hs ?_ _ _
  split
  · simp
  · split <;> simp [hs]

@[simp] theorem widening_wf (hs : s.memory.mem.wf = true) (i hd o mad) : NextWf (widening i hd o mad s) := by
  unfold widening; dsimp only
  refine vissue_wf hs ?_ _ _
  split <;> simp [hs]

@[simp] theorem reduction_wf (hs : s.memory.mem.wf = true) (i hd o op lat) : NextWf (reduction i hd o op lat s) := by
  unfold reduction; dsimp only
  refine vissue_wf hs ?_ _ _
  split
  · simp
  · split <;> simp [hs]

@[simp] theorem vload_wf (hs : s.memory.mem.wf = true) {post : State → State} (hp : ∀ u, (post u).memory.mem = u.memory.mem) (i hd o lat es addr slow) :
    SlotWf (vload i hd o lat s es addr slow post) := by
  unfold vload; dsimp only
  split
  · simp
  · split <;> simp [hs, hp]

@[simp] theorem vstore_wf (hs : s.memory.mem.wf = true) {post : State → State} (hp : ∀ u, (post u).memory.mem = u.memory.mem) (i o lat es addr slow) :
    SlotWf (vstore i o lat s es addr slow post) := by
  unfold vstore; dsimp only
  split
  · simp
  · split <;> simp [hs, hp]

@[simp] theorem queue_wf (hs : s.memory.mem.wf = true) (i hd p) : NextWf (queue i hd s p) := by
  unfold queue
  refine issue_wf hs ?_ _ _
  split
  · simp
  · split
    · simp
    · split
      · simp
      · split <;> simp [hs]

@[simp] theorem barIssue_wf (hs : s.memory.mem.wf = true) {body : State → Host.Outcome State Fault Refusal}
    (hb : ∀ u : State, u.memory.mem.wf = true → NextWf (body u)) (i hd o) : NextWf (barIssue i hd o s body) := by
  unfold barIssue
  split
  · simp [hs]
  · split
    · exact settle_wf hs (by simp) _
    · exact hb _ (by simp [hs])

@[simp] theorem busIssue_wf (hs : s.memory.mem.wf = true) {f : State → State} (hf : ∀ u, (f u).memory.mem = u.memory.mem) (i hd x) :
    NextWf (busIssue i hd x s f) := by
  unfold busIssue
  exact cissue_wf hs (by simp [hf, hs]) _ _ _

@[simp] theorem State.onLink_wf {t : State} (hs : t.memory.mem.wf = true) (n) : SomeWf (s.onLink n t) := by
  simp [State.onLink, hs]

end
end Sys2Proof.Machine
end

section
/-! ## The operations behind instructions and events -/
namespace Sys2Proof.Machine
open Sys2Proof

section
variable {s : State}

@[simp] theorem State.invalidate_someWf (hs : s.memory.mem.wf = true) (ag line) : SomeWf (s.invalidate ag line) :=
  fun _ => State.invalidate_wf hs
@[simp] theorem State.ackFan_wf (hs : s.memory.mem.wf = true) (ag line) : SomeWf (s.ackFan ag line) :=
  fun _ ht => by rwa [State.ackFan_mem ht]
@[simp] theorem State.fromAgent_wf (hs : s.memory.mem.wf = true) {r} (hr : SomeWf r) (ag) : SomeWf (s.fromAgent ag r) := by
  simp [State.fromAgent, hs, hr]
@[simp] theorem State.waited_wf (hs : s.memory.mem.wf = true) (who) : SomeWf (s.waited who) := by
  simp [State.waited, hs]

@[simp] theorem State.flipDone_wf (hs : s.memory.mem.wf = true) : s.flipDone.memory.mem.wf = true := by
  unfold State.flipDone; split <;> simp [hs]
@[simp] theorem State.replayPhase_wf (hs : s.memory.mem.wf = true) (t) : (s.replayPhase t).memory.mem.wf = true := by
  simp [State.replayPhase, hs]
@[simp] theorem State.redispatch_wf (hs : s.memory.mem.wf = true) (t) : (s.redispatch t).memory.mem.wf = true := by
  unfold State.redispatch; extract_lets s1 tl src s2 s3 mine kept s4
  have h1 : s1.memory.mem.wf = true := foldl_stateWf (fun u c hu => State.atCore_wf hu fun v hv => by simp [hv]) _ hs
  have h3 : s3.memory.mem.wf = true := by unfold s3; split <;> simpa [s2] using h1
  have h4 : s4.memory.mem.wf = true := by
    rw [show s4.memory.mem = _ from State.mapCores_mem _ _]
    exact foldl_stateWf (fun u c hu => State.releaseLines_wf hu _ _ _) _ h3
  simp [h4]

@[simp] theorem State.recoverRest_wf (hs : s.memory.mem.wf = true) : s.recoverRest.memory.mem.wf = true := by
  unfold State.recoverRest; split <;> simp [hs]
@[simp] theorem State.recover_wf (hs : s.memory.mem.wf = true) : s.recover.memory.mem.wf = true := by
  unfold State.recover; split <;> simp [hs]
@[simp] theorem State.performAccess_wf (hs : s.memory.mem.wf = true) (k) : (s.performAccess k).memory.mem.wf = true := by
  unfold State.performAccess; dsimp only; split
  · split
    · simp [hs]
    · split
      next ht => exact State.readRanges_inl_wf hs ht
      next hr => simp [State.readRanges_inr_wf hs hr]
  · split <;> simp [hs]
  · split
    · simp [hs]
    · split
      next ht => exact State.readRanges_inl_wf hs ht
      next hr => simp [State.readRanges_inr_wf hs hr]
  · split <;> simp [hs]
  all_goals simp [hs]

@[simp] theorem State.startRelease_wf (hs : s.memory.mem.wf = true) (k all) : SomeWf (s.startRelease k all) := by
  simp [State.startRelease, hs]
@[simp] theorem State.relCas_wf (hs : s.memory.mem.wf = true) (k) : SomeWf (s.relCas k) := by
  unfold State.relCas; split <;> simp [hs]
@[simp] theorem State.scRelCas_wf (hs : s.memory.mem.wf = true) (k) : SomeWf (s.scRelCas k) := by
  unfold State.scRelCas; split
  · simp [hs]
  · split <;> simp [hs]
  · simp [hs]

@[simp] theorem State.casRead_wf (hs : s.memory.mem.wf = true) (k) : SomeWf (s.casRead k) := by
  simp [State.casRead, hs]
@[simp] theorem State.accessComplete_wf (hs : s.memory.mem.wf = true) (k) : SomeWf (s.accessComplete k) := by
  simp [State.accessComplete, hs]
@[simp] theorem State.moveRows_wf (hs : s.memory.mem.wf = true) (k ue born ssp dsp n ps) :
    (State.moveRows k ue born ssp dsp n ps s).2.2.memory.mem.wf = true := by
  induction ps generalizing s with
  | nil => exact hs
  | cons p ps ih =>
    unfold State.moveRows; dsimp only; split
    · simp [hs]
    · refine ih ?_
      split <;> simp [hs]

@[simp] theorem State.performCopy_wf (hs : s.memory.mem.wf = true) (k ue) : (s.performCopy k ue).memory.mem.wf = true := by
  unfold State.performCopy; dsimp only
  split
  · simp [hs]
  · simp [hs]
  · split
    · simp [hs]
    · split
      · simp [hs]
      · split
        · simp [hs]
        · simp [State.moveRows_wf, hs]

@[simp] theorem State.copyPush_wf (hs : s.memory.mem.wf = true) (k ue) : SomeWf (s.copyPush k ue) := by
  simp [State.copyPush, hs]
@[simp] theorem State.deliver_wf (hs : s.memory.mem.wf = true) (k e) : SomeWf (s.deliver k e) := by
  simp [State.deliver, hs]
@[simp] theorem memIssue_wf (hs : s.memory.mem.wf = true) (i hd o legal ops irrev) : NextWf (memIssue i hd o legal ops irrev s) := by
  unfold memIssue
  refine cissue_wf hs ?_ _ _ _
  split
  · simp
  · exact tokenRoom_wf (by simp [hs]) _

@[simp] theorem vecIssue_wf (hs : s.memory.mem.wf = true) (i hd o legal) : NextWf (vecIssue i hd o legal s) := by
  unfold vecIssue; dsimp only
  split
  · simp [hs]
  · refine settle_wf hs ?_ _
    split
    · simp
    · split
      · simp
      · exact tokenRoom_wf (by simp [hs]) _

@[simp] theorem State.barWait_wf (hs : s.memory.mem.wf = true) (hd lvl) : NextWf (s.barWait hd lvl) :=
  settle_wf hs (by split <;> simp [hs]) _
@[simp] theorem State.barArrive_wf (hs : s.memory.mem.wf = true) (hd lvl w) : NextWf (s.barArrive hd lvl w) := by
  unfold State.barArrive; dsimp only
  split
  · split <;> simp [hs]
  · split
    · exact settle_wf hs (by simp) _
    · split <;> simp [hs]

@[simp] theorem State.busCycle_wf (hs : s.memory.mem.wf = true) : s.busCycle.memory.mem.wf = true := by
  unfold State.busCycle; dsimp only
  refine foldl_stateWf (fun u b hu => foldl_stateWf (fun v l hv => State.atCore_wf hv fun w hw => ?_) _ hu) _ hs
  split <;> simp [hw]

@[simp] theorem kissue_wf (hs : s.memory.mem.wf = true) (i hd o specOk changes ext) : NextWf (kissue i hd o specOk changes s ext) := by
  unfold kissue; dsimp only
  exact cissue_wf hs (tokenRoom_wf (by simp [hs]) _) _ _ _

@[simp] theorem recordIssue_wf (hs : s.memory.mem.wf = true) (i hd o n changes) : NextWf (recordIssue i hd o n changes s) := by
  unfold recordIssue; exact kissue_wf hs _ _ _ _ _ _

@[simp] theorem State.kRecord_wf (hs : s.memory.mem.wf = true) (k x status depth probes hi) :
    (s.kRecord k x status depth probes hi).memory.mem.wf = true := by
  simp [State.kRecord, hs]

@[simp] theorem State.doKhash_wf (hs : s.memory.mem.wf = true) (k) : (s.doKhash k).memory.mem.wf = true := by
  unfold State.doKhash; dsimp only
  split
  · simp [hs]
  · split
    · simp [hs]
    · split
      · simp [hs]
      · split
        · simp [hs]
        · simp [hs]

@[simp] theorem State.lookDone_wf (hs : s.memory.mem.wf = true) (k x status d probes coll n) :
    (s.lookDone k x status d probes coll n).memory.mem.wf = true := by
  unfold State.lookDone; extract_lets t add t'
  exact State.kRecord_wf (by exact hs) _ _ _ _ _ _

@[simp] theorem State.lookFound_wf (hs : s.memory.mem.wf = true) (k ref l r) : (s.lookFound k ref l r).memory.mem.wf = true := by
  unfold State.lookFound; dsimp only
  split
  · exact State.lookDone_wf hs ..
  · split
    · split
      next ht => exact State.lookDone_wf (by rwa [State.takeRef_mem ht]) ..
      next => exact State.lookDone_wf hs ..
    · split
      · split
        · exact State.lookDone_wf hs ..
        · split <;> simp [hs]
      · exact State.lookDone_wf (by split <;> simp [hs]) ..

@[simp] theorem State.doKlook_wf (hs : s.memory.mem.wf = true) (k verify ref dom) : (s.doKlook k verify ref dom).memory.mem.wf = true := by
  unfold State.doKlook; dsimp only
  split
  · simp [hs]
  · split
    · exact State.lookFound_wf hs ..
    · split
      · exact State.lookDone_wf hs ..
      · split
        · simp [hs]
        · split
          · exact State.lookDone_wf hs ..
          · split
            · simp [hs]
            · exact State.lookFound_wf hs ..

@[simp] theorem State.askInfo_wf (hs : s.memory.mem.wf = true) (k) {gone : State} (hg : gone.memory.mem.wf = true) :
    (s.askInfo k gone).memory.mem.wf = true := by
  simp [State.askInfo, hs, hg]

@[simp] theorem State.openAt_wf (hs : s.memory.mem.wf = true) (k p parent name toks) : SomeWf (s.openAt k p parent name toks) := by
  have hr : (s.roomFor p (4 * p.nlayer)).2.memory.mem.wf = true := by simp [hs]
  unfold State.openAt; extract_lets w depth carry
  have hc : ∀ n st, (carry n st).memory.mem.wf = true := fun n st => by
    unfold carry; split
    next ht => simp [State.takeRef_mem ht, hs]
    next => simp [hs]
  split
  · simp [hs]
  · split
    · simp [hs]
    · split
      · split
        · exact someWf_some.2 (hc _ _)
        · split
          · exact someWf_some.2 (hc _ _)
          · simp [hs]
      · split
        · simp [hs]
        · split
          · simp [hs]
          · split
            next e => rw [e] at hr; simp at hr; simp [hr]
            next e => rw [e] at hr; simp at hr; split <;> simp [hr]
            next e =>
              rw [e] at hr; simp at hr
              split
              · simp [hr]
              · split <;> simp [hr]

@[simp] theorem State.doKopen_wf (hs : s.memory.mem.wf = true) (k) : SomeWf (s.doKopen k) := by
  unfold State.doKopen; dsimp only
  split
  · simp [hs]
  · split
    · simp [hs]
    · split
      · simp [hs]
      · split
        · simp [hs]
        · split
          · split <;> simp [hs]
          · split
            · split
              · simp [hs]
              · split <;> simp [hs]
            · split
              · simp [hs]
              · split <;> simp [hs]

@[simp] theorem State.kStatus_wf (hs : s.memory.mem.wf = true) (k st depth hi) : (s.kStatus k st depth hi).memory.mem.wf = true := by
  simp [State.kStatus, hs]
@[simp] theorem State.kStop_wf (hs : s.memory.mem.wf = true) (k e depth) : (s.kStop k e depth).memory.mem.wf = true := by
  simp [State.kStop, hs]
@[simp] theorem State.sealEnd_wf (hs : s.memory.mem.wf = true) (k) : SomeWf (s.sealEnd k) := by
  unfold State.sealEnd; dsimp only
  split
  · simp [hs]
  · split <;> simp [hs]

@[simp] theorem State.doNode_wf (hs : s.memory.mem.wf = true) (k) : SomeWf (s.doNode k) := by
  unfold State.doNode; dsimp only
  split
  · simp [hs]
  · split
    · simp [hs]
    · split
      · split
        · simp [hs]
        · split
          · split
            · simp [hs]
            · split
              · simp [hs]
              · split <;> simp [hs]
          · split <;> simp [hs]
      · split
        · simp [hs]
        · split
          · simp
          · split
            · simp [hs]
            · split <;> simp [hs]

@[simp] theorem State.doKstat_wf (hs : s.memory.mem.wf = true) (k) : (s.doKstat k).memory.mem.wf = true := by
  unfold State.doKstat; dsimp only
  split
  · simp [hs]
  · split
    · split
      · simp [hs]
      · split
        · split <;> simp [hs]
        · simp [hs]
    · split <;> simp [hs]

@[simp] theorem State.kldDeliver_wf (hs : s.memory.mem.wf = true) (k ext ps ue) : (s.kldDeliver k ext ps ue).memory.mem.wf = true := by
  unfold State.kldDeliver; dsimp only
  split
  · simp [hs]
  · rw [State.finish_mem]
    exact foldl_stateWf (fun u q hu => by simp [hu]) _ (by simp [hs])

@[simp] theorem State.doKld_wf (hs : s.memory.mem.wf = true) (k verify) : (s.doKld k verify).memory.mem.wf = true := by
  unfold State.doKld; dsimp only
  split
  · split
    · split
      · simp [hs]
      · split <;> simp [hs]
    · split
      · split
        · simp [hs]
        · split <;> simp [hs]
      · split
        · simp [hs]
        · exact State.kldDeliver_wf hs ..
  · split
    · split
      · simp [hs]
      · split <;> simp [hs]
    · rw [State.releasePins_mem]
      split
      · simp [hs]
      · split
        · simp [hs]
        · exact State.kldDeliver_wf (by simp [hs]) ..

@[simp] theorem State.startRepl_wf (hs : s.memory.mem.wf = true) (k i) : (s.startRepl k i).memory.mem.wf = true := by
  unfold State.startRepl
  split
  · simp [hs]
  · split
    · simp [hs]
    · split
      · simp [hs]
      · split
        · simp [hs]
        · split <;> simp [hs]

@[simp] theorem State.doKrepl_wf (hs : s.memory.mem.wf = true) (k) : SomeWf (s.doKrepl k) := by
  simp [State.doKrepl, hs]
@[simp] theorem State.beginReplica_someWf (hs : s.memory.mem.wf = true) (k p) : SomeWf (s.beginReplica k p) :=
  fun _ => State.beginReplica_wf hs
@[simp] theorem State.nextReplica_wf (hs : s.memory.mem.wf = true) (k n) : (s.nextReplica k n).memory.mem.wf = true := by
  simp [State.nextReplica, hs]
@[simp] theorem State.moveBlock_wf (hs : s.memory.mem.wf = true) (k) : SomeWf (s.moveBlock k) := by
  unfold State.moveBlock; dsimp only
  split
  · simp [hs]
  · split
    · simp [hs]
    · split
      · simp [hs]
      · split
        · simp [hs]
        · split
          · simp [hs]
          · split
            · simp
            · split
              · split <;> simp [hs]
              · split <;> simp [hs]

@[simp] theorem State.releaseParked_wf (hs : s.memory.mem.wf = true) : s.releaseParked.memory.mem.wf = true := by
  unfold State.releaseParked; split <;> simp [hs]
@[simp] theorem State.killAsid_wf (hs : s.memory.mem.wf = true) (x) : (s.killAsid x).memory.mem.wf = true := by
  unfold State.killAsid; dsimp only
  refine State.hearthRun_wf ?_
  rw [State.regate_mem]
  refine State.hostClean_wf (foldl_stateWf (fun u c hu => State.atCore_wf hu fun v hv => ?_) _ (by simpa using hs)) _
  refine State.discardSaved_wf ?_ _
  split <;> simp [hv]

@[simp] theorem State.writeReg_wf (hs : s.memory.mem.wf = true) (off v) : (s.writeReg off v).memory.mem.wf = true := by
  have hc : ((s.withCore ((off - 0x1000000) / 0x8000)).atCore ((off - 0x1000000) / 0x8000)
      (fun s => s.writeCore (off / 8 % 0x1000) v)).memory.mem.wf = true :=
    State.atCore_wf (by simp [hs]) fun u hu => by simp [hu]
  simp [State.writeReg, hs, hc]

@[simp] theorem State.endEmpty_wf (hs : s.memory.mem.wf = true) (flip) : (s.endEmpty flip).memory.mem.wf = true := by
  simp [State.endEmpty, hs]
@[simp] theorem State.commit_wf (hs : s.memory.mem.wf = true) (t) : (s.commit t).memory.mem.wf = true := by
  unfold State.commit; split
  · simp [hs]
  · dsimp only; rw [State.tick_mem]; split <;> simp [hs]

end
end Sys2Proof.Machine
end

section
/-! ## Events that act at a core -/
namespace Sys2Proof.Machine
open Sys2Proof

section
variable {s : State}

/-- An event that acts at a core and may not be enabled. -/
theorem maybe_wf (hs : s.memory.mem.wf = true) {nm : String} {c : Nat} {f : State → Option State}
    (hf : ∀ u : State, u.memory.mem.wf = true → SomeWf (f u)) : NextWf (enabledOr nm (s.atCore? c f)) := by
  simpa using State.atCore?_wf hs hf

/-- One that always acts. -/
theorem always_wf (hs : s.memory.mem.wf = true) {c : Nat} {f : State → State}
    (hf : ∀ u : State, u.memory.mem.wf = true → (f u).memory.mem.wf = true) : NextWf (.next (s.atCore c f)) := by
  simpa using State.atCore_wf hs hf

/-- One that makes a record of the core first. -/
theorem known_wf (hs : s.memory.mem.wf = true) {c : Nat} {f : State → State}
    (hf : ∀ u : State, u.memory.mem.wf = true → (f u).memory.mem.wf = true) : NextWf (.next ((s.withCore c).atCore c f)) :=
  always_wf (by simpa using hs) hf

theorem execMatrixReadHoldClear_wf (hs : s.memory.mem.wf = true) (c) : NextWf (execMatrixReadHoldClear c s) :=
  maybe_wf hs fun u hu => by split <;> simp [hu]
theorem execMatrixComplete_wf (hs : s.memory.mem.wf = true) (c) : NextWf (execMatrixComplete c s) :=
  maybe_wf hs fun u hu => by split <;> simp [hu]
theorem execTaskEntry_wf (hs : s.memory.mem.wf = true) (c) : NextWf (execTaskEntry c s) := maybe_wf hs fun u hu => by
  split
  · simp
  · extract_lets who
    split
    · simp
    · split
      · simp
      · split
        · extract_lets r
          have hr : r.2.memory.mem.wf = true := State.readHeader_wf hu _ _
          split
          · simp [hr]
          · simp [hr]
          · split
            · split <;> simp [hr]
            next v ht =>
              have hv := State.fillPages_wf hr (.inr ht)
              simp [hv]
            next v ht =>
              have hv := State.fillPages_wf hr (.inl ht)
              split <;> simp [hv]
        · simp

theorem execCoreRetire_wf (hs : s.memory.mem.wf = true) (c) : NextWf (execCoreRetire c s) := maybe_wf hs fun u hu => by
  split
  · simp
  · split
    · simp
    · extract_lets ls
      split
      · simp [hu]
      · split
        · simp
        · rename_i s1 s2 _ _
          have h1 : s1.memory.mem.wf = true := by unfold s1; split <;> simp [hu]
          have h2 : s2.memory.mem.wf = true := by simpa [s2] using h1
          split <;> simp [h2]

theorem execMemoryAccessComplete_wf (hs : s.memory.mem.wf = true) (c seq) : NextWf (execMemoryAccessComplete c seq s) :=
  maybe_wf hs fun u hu => by split <;> simp [hu]
theorem execScPerform_wf (hs : s.memory.mem.wf = true) (c seq) : NextWf (execScPerform c seq s) :=
  maybe_wf hs fun u hu => by split <;> simp [hu]
theorem execCopyComplete_wf (hs : s.memory.mem.wf = true) (c o) : NextWf (execCopyComplete c o s) :=
  maybe_wf hs fun u hu => by split <;> simp [hu]
theorem execRetryBackoffExpire_wf (hs : s.memory.mem.wf = true) (c seq) : NextWf (execRetryBackoffExpire c seq s) :=
  maybe_wf hs fun u hu => by split <;> simp [hu]
theorem execWaitaddrPoll_wf (hs : s.memory.mem.wf = true) (c seq) : NextWf (execWaitaddrPoll c seq s) :=
  maybe_wf hs fun u hu => by split <;> simp [hu]
theorem execWaitaddrTimeout_wf (hs : s.memory.mem.wf = true) (c seq) : NextWf (execWaitaddrTimeout c seq s) :=
  maybe_wf hs fun u hu => by split <;> simp [hu]
theorem execLsendDelivered_wf (hs : s.memory.mem.wf = true) (c seq) : NextWf (execLsendDelivered c seq s) := maybe_wf hs fun u hu => by
  split
  · simp
  · split
    · split
      · simp
      · split
        · simp [hu]
        · split
          · simp
          · split
            · simp [hu]
            · split <;> simp [hu]
    · simp

theorem execReplicaBlockMoved_wf (hs : s.memory.mem.wf = true) (c seq) : NextWf (execReplicaBlockMoved c seq s) := maybe_wf hs fun u hu => by
  split
  · simp
  · split <;> simp [hu]

theorem execCrucibleCommandComplete_wf (hs : s.memory.mem.wf = true) (c seq) : NextWf (execCrucibleCommandComplete c seq s) := maybe_wf hs fun u hu => by
  split
  · simp
  · split
    · simp
    · split
      · simp [hu]
      · split <;> simp [hu]

theorem execResultLanding_wf (hs : s.memory.mem.wf = true) (c) : NextWf (execResultLanding c s) :=
  maybe_wf hs fun u hu => by simp [hu]
theorem execHeldBundleIssue_wf (hs : s.memory.mem.wf = true) (c) : NextWf (execHeldBundleIssue c s) :=
  maybe_wf hs fun u hu => by simp [hu]
theorem execGatherFreezeEnd_wf (hs : s.memory.mem.wf = true) (c) : NextWf (execGatherFreezeEnd c s) :=
  maybe_wf hs fun u hu => by simp [hu]
theorem execBellowsFreezeEnd_wf (hs : s.memory.mem.wf = true) (c) : NextWf (execBellowsFreezeEnd c s) :=
  maybe_wf hs fun u hu => by simp [hu]
theorem execProgramTrapEntry_wf (hs : s.memory.mem.wf = true) (c) : NextWf (execProgramTrapEntry c s) := maybe_wf hs fun u hu => by
  split
  · simp
  · dsimp only
    generalize hv : (if u.core.front.after = .resume then { u with core := u.core.rejoin } else u : State) = v
    have h : v.memory.mem.wf = true := by rw [← hv]; simp [hu]
    split <;> simp [h]

theorem execEretResume_wf (hs : s.memory.mem.wf = true) (c) : NextWf (execEretResume c s) :=
  maybe_wf hs fun u hu => by simp [hu]
theorem execCctlPhase_wf (hs : s.memory.mem.wf = true) (c) : NextWf (execCctlPhase c s) :=
  known_wf hs fun u hu => by simp [hu]
theorem execCctlForce_wf (hs : s.memory.mem.wf = true) (c) : NextWf (execCctlForce c s) :=
  always_wf hs fun u hu => by simp [hu]
theorem execCctlCancel_wf (hs : s.memory.mem.wf = true) (c) : NextWf (execCctlCancel c s) :=
  always_wf hs fun u hu => by simp [hu]
theorem execCctlResume_wf (hs : s.memory.mem.wf = true) (c) : NextWf (execCctlResume c s) :=
  always_wf hs fun u hu => by simp [hu]
theorem execCctlEnd_wf (hs : s.memory.mem.wf = true) (c) : NextWf (execCctlEnd c s) :=
  always_wf hs fun u hu => by simp [hu]
theorem execTokclr_wf (hs : s.memory.mem.wf = true) (c mask) : NextWf (execTokclr c mask s) :=
  always_wf hs fun u hu => by simp [hu]
theorem execXlrespRetry_wf (hs : s.memory.mem.wf = true) (c unit) : NextWf (execXlrespRetry c unit s) :=
  always_wf hs fun u hu => by split <;> simp [hu]
theorem execXlrespRefuse_wf (hs : s.memory.mem.wf = true) (c unit) : NextWf (execXlrespRefuse c unit s) :=
  always_wf hs fun u hu => by split <;> simp [hu]
theorem execContextSaveDone_wf (hs : s.memory.mem.wf = true) (c) : NextWf (execContextSaveDone c s) := maybe_wf hs fun u hu => by
  split
  · simp
  · split
    · simp
    · extract_lets mode s1 tl core s2 s3
      have h1 : s1.memory.mem.wf = true := State.writeArea_wf hu _ _
      have h2 : s2.memory.mem.wf = true := h1
      have h3 : s3.memory.mem.wf = true := by simp [s3, h2]
      rw [someWf_some]
      refine State.hearthRun_wf ?_
      rw [State.regate_mem]; split <;> simp [h3]

theorem execContextRestore_wf (hs : s.memory.mem.wf = true) (c) : NextWf (execContextRestore c s) :=
  maybe_wf hs fun u hu => by simp [hu]
theorem execContextRestoreDone_wf (hs : s.memory.mem.wf = true) (c) : NextWf (execContextRestoreDone c s) := maybe_wf hs fun u hu => by
  split
  · simp
  · extract_lets who
    split
    · simp
    · rename_i t slabs fin _
      have hfin : ∀ w : State, w.memory.mem.wf = true → (fin w).memory.mem.wf = true := fun w hw => by simp [fin, hw]
      split
      · simp [hu, hfin]
      next v ht =>
        have hv := State.refill_wf hu (.inr ht)
        simp [hv]
      next v ht =>
        have hv := State.refill_wf hu (.inl ht)
        simp [hfin, hv]

end

end Sys2Proof.Machine
end

section
/-! ## Instructions and events
Those whose proof splits along their own branches; `exec_wf` puts every instruction and event together. -/
namespace Sys2Proof.Machine
open Sys2Proof

section
variable {s : State}

@[simp] theorem execVbcast_wf (hs : s.memory.mem.wf = true) (h o) : NextWf (execVbcast h o s) := by
  unfold execVbcast
  refine vissue_wf hs ?_ _ _
  split
  · simp
  · split
    · simp [hs]
    · split
      · simp
      · split <;> simp [hs]

@[simp] theorem execBflip_wf (hs : s.memory.mem.wf = true) (h) : NextWf (execBflip h s) := by
  unfold execBflip
  refine issue_wf hs ?_ _ _
  split
  · simp
  · split <;> simp [hs]

@[simp] theorem execHostSnoopResponse_wf (hs : s.memory.mem.wf = true) (line) : NextWf (execHostSnoopResponse line s) := by
  unfold execHostSnoopResponse
  rw [nextWf_enabledOr]
  split
  · simp
  · split <;> simp [State.settleFan_mem, hs]

@[simp] theorem execHostCxlMemWrite_wf (hs : s.memory.mem.wf = true) (x bytes) : NextWf (execHostCxlMemWrite x bytes s) := by
  unfold execHostCxlMemWrite
  rw [nextWf_enabledOr]
  cases s.inHdm x.port x.addr bytes.length <;> simp [hs]

@[simp] theorem execSealComplete_wf (hs : s.memory.mem.wf = true) (slot) : NextWf (execSealComplete slot s) := by
  unfold execSealComplete
  rw [nextWf_enabledOr]
  split
  · simp
  · extract_lets parentOk
    split
    · simp
    · split
      · simp
      · extract_lets s1
        have h1 : s1.memory.mem.wf = true := foldl_stateWf (fun u i hu => State.sealBlock_wf hu _ _ _) _ hs
        split <;> simp [h1]

@[simp] theorem execTailWordChange_wf (hs : s.memory.mem.wf = true) (q) : NextWf (execTailWordChange q s) := by
  unfold execTailWordChange
  rw [nextWf_enabledOr]
  dsimp only
  split
  · simp
  · split
    · simp [hs]
    · split <;> simp [hs]

@[simp] theorem execLaunchRecord_wf (hs : s.memory.mem.wf = true) (q) : NextWf (execLaunchRecord q s) := by
  unfold execLaunchRecord
  rw [nextWf_enabledOr]
  dsimp only
  split
  · simp
  · split <;> simp [hs]

@[simp] theorem execBar_wf (hs : s.memory.mem.wf = true) (h o) : NextWf (execBar h o s) := by
  unfold execBar; exact barIssue_wf hs (fun u hu => State.barArrive_wf hu _ _ _) _ _ _
@[simp] theorem execBara_wf (hs : s.memory.mem.wf = true) (h o) : NextWf (execBara h o s) := by
  unfold execBara; exact barIssue_wf hs (fun u hu => State.barArrive_wf hu _ _ _) _ _ _
@[simp] theorem execBarw_wf (hs : s.memory.mem.wf = true) (h o) : NextWf (execBarw h o s) := by
  unfold execBarw; exact barIssue_wf hs (fun u hu => State.barWait_wf hu _ _) _ _ _
@[simp] theorem execSstep_wf (hs : s.memory.mem.wf = true) (h o) : NextWf (execSstep h o s) := by
  unfold execSstep
  refine barIssue_wf hs (fun u hu => ?_) _ _ _
  split
  · simp [hu]
  · split
    · simp [hu]
    · extract_lets ls s1
      have h1 : s1.memory.mem.wf = true := State.releaseLines_wf hu _ _ _
      split <;> simp [h1]

@[simp] theorem execLrecv_wf (hs : s.memory.mem.wf = true) (h o) : NextWf (execLrecv h o s) := by
  unfold execLrecv; dsimp only
  refine cissue_wf hs ?_ _ _ _
  split
  · simp
  · split
    · simp
    · split
      · simp
      · split
        · simp
        · split
          · simp
          · split <;> simp [hs]

@[simp] theorem execUeDetected_wf (hs : s.memory.mem.wf = true) (c bank unit kind addr) :
    NextWf (execUeDetected c bank unit kind addr s) := by
  unfold execUeDetected
  rw [nextWf_enabledOr]
  split
  · simp
  · extract_lets s1
    split
    · simp
    · exact someWf_some.2 (State.atCore_wf (by simp [s1, hs]) fun u hu => by simp [hu])

@[simp] theorem execStackRemoval_wf (hs : s.memory.mem.wf = true) (stk) : NextWf (execStackRemoval stk s) := by
  unfold execStackRemoval
  rw [nextWf_enabledOr]
  split
  · simp
  · extract_lets gone st s1 mem s2 s3 s4
    have h3 : s3.memory.mem.wf = true := (congrArg Memory.wf (s2.countGone_mem gone)).trans hs
    have h4 : s4.memory.mem.wf = true := foldl_stateWf (fun u c hu => State.atCore_wf hu fun v hv => by
      refine State.discardSaved_wf ?_ _
      have h5 : (if v.core.task.isSome then v.cutOff 1 else v).memory.mem.wf = true := by split <;> simp [hv]
      split <;> exact h5) _ h3
    simp [h4]

theorem State.writeCbind_wf (hs : s.memory.mem.wf = true) (stk f v) : (s.writeCbind stk f v).memory.mem.wf = true := by
  unfold State.writeCbind; dsimp only
  split
  · refine State.hearthRun_wf ?_
    split
    · exact State.atCore_wf (by simp [hs]) fun u hu => by simp [hu]
    · simp [hs]
  · split
    · simp [hs]
    · split
      · simp [hs]
      · exact State.hearthRun_wf (by split <;> simp [hs])

@[simp] theorem execCbindWrite_wf (hs : s.memory.mem.wf = true) (stk f v) : NextWf (execCbindWrite stk f v s) := by
  simp [execCbindWrite, State.writeCbind_wf hs]
@[simp] theorem execWsLoadDone_wf (hs : s.memory.mem.wf = true) (stk ue) : NextWf (execWsLoadDone stk ue s) := by
  unfold execWsLoadDone
  rw [nextWf_enabledOr]
  extract_lets st
  split
  · simp
  · split
    · simp [hs]
    next he => simp [State.engineRead_mem he, hs]

@[simp] theorem execMemoryRequestMsg_wf (hs : s.memory.mem.wf = true) (n) : NextWf (execMemoryRequestMsg n s) := by
  unfold execMemoryRequestMsg
  rw [nextWf_enabledOr]
  extract_lets l
  split
  · simp [hs]
  · split
    · simp
    · split
      · simp
      next hm => simp [State.serveMem_wf hs hm]

end

section
variable {s : State}

@[simp] theorem execLdsp_wf (hs : s.memory.mem.wf = true) (h o) : NextWf (execLdsp h o s) := by
  unfold execLdsp; split <;> simp [hs]
@[simp] theorem execStsp_wf (hs : s.memory.mem.wf = true) (h o) : NextWf (execStsp h o s) := by
  unfold execStsp; split <;> simp [hs]
@[simp] theorem execBrm_wf (hs : s.memory.mem.wf = true) (h o lit) : NextWf (execBrm h o lit s) := by
  unfold execBrm; split <;> simp [hs]
@[simp] theorem execWait_wf (hs : s.memory.mem.wf = true) (h o) : NextWf (execWait h o s) := by
  unfold execWait; dsimp only
  split
  · split <;> simp [hs]
  · simp [hs]

@[simp] theorem execMvfc_wf (hs : s.memory.mem.wf = true) (h o) : NextWf (execMvfc h o s) := by
  unfold execMvfc; dsimp only
  split
  · simp [hs]
  · split <;> simp [hs]

@[simp] theorem execVsat_wf (hs : s.memory.mem.wf = true) (h o) : NextWf (execVsat h o s) := by
  unfold execVsat; extract_lets c b hb per dests es body
  have hb : SlotWf body := by unfold body; split <;> simp [hs]
  split
  · simp [hs]
  · exact vissue_wf hs hb _ _

@[simp] theorem execVcvt_wf (hs : s.memory.mem.wf = true) (h o) : NextWf (execVcvt h o s) := by
  unfold execVcvt; extract_lets
  split
  · simp [hs]
  · refine vissue_wf hs ?_ _ _
    split <;> simp [hs]

@[simp] theorem execVcmp_wf (hs : s.memory.mem.wf = true) (h o) : NextWf (execVcmp h o s) := by
  unfold execVcmp; dsimp only
  split
  · simp [hs]
  · split <;> simp [hs]

@[simp] theorem execVpset_wf (hs : s.memory.mem.wf = true) (h o) : NextWf (execVpset h o s) := by
  unfold execVpset; dsimp only; split <;> simp [hs]
@[simp] theorem execVscan_wf (hs : s.memory.mem.wf = true) (h o) : NextWf (execVscan h o s) := by
  unfold execVscan; dsimp only
  split
  · simp [hs]
  · split <;> simp [hs]

@[simp] theorem execVperm_wf (hs : s.memory.mem.wf = true) (h o) : NextWf (execVperm h o s) := by
  unfold execVperm; dsimp only; split <;> simp [hs]
@[simp] theorem execVslide_wf (hs : s.memory.mem.wf = true) (h o) : NextWf (execVslide h o s) := by
  unfold execVslide; dsimp only; split <;> simp [hs]
@[simp] theorem execViota_wf (hs : s.memory.mem.wf = true) (h o) : NextWf (execViota h o s) := by
  unfold execViota; dsimp only
  split
  · simp [hs]
  · split <;> simp [hs]

@[simp] theorem execVmovi_wf (hs : s.memory.mem.wf = true) (h o) : NextWf (execVmovi h o s) := by
  unfold execVmovi; dsimp only
  split
  · simp [hs]
  · split <;> simp [hs]

@[simp] theorem execVgetl_wf (hs : s.memory.mem.wf = true) (h o) : NextWf (execVgetl h o s) := by
  unfold execVgetl; dsimp only
  split
  · simp [hs]
  · refine vissue_wf hs ?_ _ _
    split <;> simp [hs]

@[simp] theorem execVputl_wf (hs : s.memory.mem.wf = true) (h o) : NextWf (execVputl h o s) := by
  unfold execVputl; dsimp only
  split
  · simp [hs]
  · refine vissue_wf hs ?_ _ _
    split <;> simp [hs]

@[simp] theorem execVgather_wf (hs : s.memory.mem.wf = true) (h o) : NextWf (execVgather h o s) := by
  unfold execVgather; split <;> simp [hs]
@[simp] theorem execVscatter_wf (hs : s.memory.mem.wf = true) (h o) : NextWf (execVscatter h o s) := by
  unfold execVscatter; split <;> simp [hs]
@[simp] theorem execVcmpt_wf (hs : s.memory.mem.wf = true) (h o) : NextWf (execVcmpt h o s) := by
  unfold execVcmpt; dsimp only
  split
  · split
    · simp [hs]
    · split <;> simp [hs]
  · simp [hs]

@[simp] theorem execLsend_wf (hs : s.memory.mem.wf = true) (h o) : NextWf (execLsend h o s) := by
  unfold execLsend; dsimp only
  refine cissue_wf hs ?_ _ _ _
  split
  · simp
  · split
    · simp
    · split <;> simp [hs]

@[simp] theorem execEvheadWrite_wf (hs : s.memory.mem.wf = true) (v) : NextWf (execEvheadWrite v s) :=
  nextWf_next.2 (foldl_stateWf (fun _ e hu => State.post_wf hu e) _ hs)
@[simp] theorem execUnplaceableReport_wf (hs : s.memory.mem.wf = true) (serial) : NextWf (execUnplaceableReport serial s) := by
  unfold execUnplaceableReport; split <;> simp [hs]
@[simp] theorem execCheckIn_wf (hs : s.memory.mem.wf = true) (agent line) : NextWf (execCheckIn agent line s) := by
  unfold execCheckIn; split <;> simp [hs]
@[simp] theorem execSilentDrop_wf (hs : s.memory.mem.wf = true) (agent line) : NextWf (execSilentDrop agent line s) := by
  unfold execSilentDrop; split <;> simp [hs]
@[simp] theorem execHostCxlMemRead_wf (hs : s.memory.mem.wf = true) (a len) : NextWf (execHostCxlMemRead a len s) := by
  unfold execHostCxlMemRead; split <;> simp [hs]
@[simp] theorem execCxlMemHeldTimeout_wf (hs : s.memory.mem.wf = true) (idx) : NextWf (execCxlMemHeldTimeout idx s) := by
  unfold execCxlMemHeldTimeout; split <;> simp [hs]
@[simp] theorem execDemoteComplete_wf (hs : s.memory.mem.wf = true) (slot) : NextWf (execDemoteComplete slot s) := by
  unfold execDemoteComplete
  rw [nextWf_enabledOr]
  split
  · simp
  · split
    · simp
    · dsimp only
      rw [someWf_some, State.reclaimTest_mem]
      split
      · exact foldl_stateWf (fun u b hu => State.blockPut_wf (by simp [hu]) _ _ _) _ hs
      · simp [hs]

@[simp] theorem execLeaseExpire_wf (hs : s.memory.mem.wf = true) (slot) : NextWf (execLeaseExpire slot s) := by
  unfold execLeaseExpire; split <;> simp [hs]
@[simp] theorem execFrameMigrateDone_wf (hs : s.memory.mem.wf = true) : NextWf (execFrameMigrateDone s) := by
  unfold execFrameMigrateDone
  rw [nextWf_enabledOr]
  split
  · simp
  · dsimp only
    rw [someWf_some]
    refine State.serveHeld_wf (State.post_wf ?_ _)
    split <;> simp [hs]

@[simp] theorem execFrameReleaseRemap_wf (hs : s.memory.mem.wf = true) : NextWf (execFrameReleaseRemap s) := by
  unfold execFrameReleaseRemap; dsimp only
  split
  · simp [hs]
  · split <;> simp [hs]

@[simp] theorem execRoleDrainDone_wf (hs : s.memory.mem.wf = true) (stk k) : NextWf (execRoleDrainDone stk k s) := by
  unfold execRoleDrainDone
  rw [nextWf_enabledOr]
  split
  · simp
  · dsimp only
    split
    · simp
    · rw [someWf_some]
      exact foldl_stateWf (fun u l hu => by split <;> simp [hu]) _ hs

@[simp] theorem execLimiterWrite_wf (hs : s.memory.mem.wf = true) (off v) : NextWf (execLimiterWrite off v s) := by
  unfold execLimiterWrite; split <;> simp [hs]
@[simp] theorem execRouteSwitch_wf (hs : s.memory.mem.wf = true) (d) : NextWf (execRouteSwitch d s) := by
  unfold execRouteSwitch; split <;> simp [hs]
@[simp] theorem execResponseMsg_wf (hs : s.memory.mem.wf = true) (n) : NextWf (execResponseMsg n s) := by
  unfold execResponseMsg; split <;> simp [hs]
@[simp] theorem execLinkMessageMsg_wf (hs : s.memory.mem.wf = true) (n) : NextWf (execLinkMessageMsg n s) := by
  unfold execLinkMessageMsg; dsimp only
  split
  · simp [hs]
  · split <;> simp [hs]

@[simp] theorem execBarrierMsg_wf (hs : s.memory.mem.wf = true) (n) : NextWf (execBarrierMsg n s) := by
  unfold execBarrierMsg; dsimp only; split <;> simp [hs]
@[simp] theorem execNodeDirectoryMsg_wf (hs : s.memory.mem.wf = true) (n) : NextWf (execNodeDirectoryMsg n s) := by
  unfold execNodeDirectoryMsg; split <;> simp [hs]
@[simp] theorem execTimeBaseMsg_wf (hs : s.memory.mem.wf = true) (n) : NextWf (execTimeBaseMsg n s) := by
  unfold execTimeBaseMsg; split <;> simp [hs]
@[simp] theorem execManagementMsg_wf (hs : s.memory.mem.wf = true) (n) : NextWf (execManagementMsg n s) := by
  unfold execManagementMsg; split <;> simp [hs]
@[simp] theorem execSecurityFloorAdvance_wf (hs : s.memory.mem.wf = true) : NextWf (execSecurityFloorAdvance s) := by
  unfold execSecurityFloorAdvance; split <;> simp [hs]
@[simp] theorem execSpdmGetMeasurements_wf (hs : s.memory.mem.wf = true) (idx) : NextWf (execSpdmGetMeasurements idx s) := by
  unfold execSpdmGetMeasurements; split <;> simp [hs]

/-- Cutting the power keeps host memory, a part of memory. -/
theorem execThermalShutdown_wf (hs : s.memory.mem.wf = true) (die) : NextWf (execThermalShutdown die s) := by
  unfold execThermalShutdown
  rw [nextWf_enabledOr]
  split
  · simp
  · exact someWf_some.2 (State.unpower_wf hs)

@[simp] theorem execCpy_wf (hs : s.memory.mem.wf = true) (h o) : NextWf (execCpy h o s) := by
  unfold execCpy; exact cissue_wf hs (by simp [hs]) _ _ _
@[simp] theorem execCpyr_wf (hs : s.memory.mem.wf = true) (h o) : NextWf (execCpyr h o s) := by
  unfold execCpyr; exact cissue_wf hs (by simp [hs]) _ _ _
@[simp] theorem execFence_wf (hs : s.memory.mem.wf = true) (h o) : NextWf (execFence h o s) := by
  unfold execFence; exact cissue_wf hs (by simp [hs]) _ _ _
@[simp] theorem execWaitaddr_wf (hs : s.memory.mem.wf = true) (h o) : NextWf (execWaitaddr h o s) := by
  unfold execWaitaddr; exact cissue_wf hs (by simp [hs]) _ _ _
@[simp] theorem execKld_wf (hs : s.memory.mem.wf = true) (h o) : NextWf (execKld h o s) := by
  unfold execKld; split
  · simp [hs]
  · exact cissue_wf hs (by simp [hs]) _ _ _

@[simp] theorem execStoreTick_wf (hs : s.memory.mem.wf = true) : NextWf (execStoreTick s) := by
  unfold execStoreTick; extract_lets now st m regs s1 s2
  have h1 : s1.memory.mem = s.memory.mem := rfl
  have h2 : s2.memory.mem = s1.memory.mem := by
    unfold s2; split
    · exact foldl_mem _ _ _ fun u m => by split <;> simp
    · rfl
  refine nextWf_next.2 (foldl_stateWf (fun u n hu => State.lostOver_wf hu n) _ ?_)
  simp [h2, h1, hs]

@[simp] theorem execShootdownDone_wf (hs : s.memory.mem.wf = true) : NextWf (execShootdownDone s) := by
  unfold execShootdownDone
  rw [nextWf_enabledOr]
  dsimp only
  split
  · simp
  · split
    · split
      · simp
      · exact someWf_some.2 (foldl_stateWf (fun u l hu => State.checkIn_wf hu _ _ _) _ hs)
    · simp [hs]

/-- Every event that names a core keeps memory canonical. -/
theorem eventCore_wf (hs : s.memory.mem.wf = true) {i : Instr} {n : Nat} (h : eventCore i = some n) : NextWf (exec i s) := by
  cases i <;> cases h
  case resultLanding => exact execResultLanding_wf hs n
  case heldBundleIssue => exact execHeldBundleIssue_wf hs n
  case gatherFreezeEnd => exact execGatherFreezeEnd_wf hs n
  case bellowsFreezeEnd => exact execBellowsFreezeEnd_wf hs n
  case programTrapEntry => exact execProgramTrapEntry_wf hs n
  case eretResume => exact execEretResume_wf hs n
  case matrixReadHoldClear => exact execMatrixReadHoldClear_wf hs n
  case matrixComplete => exact execMatrixComplete_wf hs n
  case copyComplete _ => exact execCopyComplete_wf hs n _
  case memoryAccessComplete _ => exact execMemoryAccessComplete_wf hs n _
  case crucibleCommandComplete _ => exact execCrucibleCommandComplete_wf hs n _
  case lsendDelivered _ => exact execLsendDelivered_wf hs n _
  case waitaddrPoll _ => exact execWaitaddrPoll_wf hs n _
  case waitaddrTimeout _ => exact execWaitaddrTimeout_wf hs n _
  case retryBackoffExpire _ => exact execRetryBackoffExpire_wf hs n _
  case taskEntry => exact execTaskEntry_wf hs n
  case coreRetire => exact execCoreRetire_wf hs n
  case scPerform _ => exact execScPerform_wf hs n _
  case replicaBlockMoved _ => exact execReplicaBlockMoved_wf hs n _
  case cctlPhase => exact execCctlPhase_wf hs n
  case cctlForce => exact execCctlForce_wf hs n
  case cctlResume => exact execCctlResume_wf hs n
  case cctlEnd => exact execCctlEnd_wf hs n
  case cctlCancel => exact execCctlCancel_wf hs n
  case contextSaveDone => exact execContextSaveDone_wf hs n
  case contextRestore => exact execContextRestore_wf hs n
  case contextRestoreDone => exact execContextRestoreDone_wf hs n
  case tokclr _ => exact execTokclr_wf hs n _
  case xlrespRetry _ => exact execXlrespRetry_wf hs n _
  case xlrespRefuse _ => exact execXlrespRefuse_wf hs n _

/-- Every instruction and event keeps memory canonical. -/
theorem exec_wf (hs : s.memory.mem.wf = true) (i : Instr) : NextWf (exec i s) := by
  cases i
  case nop | add | addi | sub | mul | mulh | mulhz | div | divz | rem | remz | and | or | xor | andn | andi | ori | xori | shl |
  shr | shra | shli | shri | shrai | rot | clz | popc | min | max | minz | maxz | mov | movi | ext | ins | lea | sext | cmp |
  cmpi | tbit | pset | pget | pput | cmpt | br | jmp | call | ret | brloop | endTask | fmt | view | mvtc | lock | unlock | specx |
  trap | eret | tick =>
    simp [exec, execNop, execAdd, execAddi, execSub, execMul, execMulh, execMulhz, execDiv, execDivz, execRem, execRemz, execAnd,
    execOr, execXor, execAndn, execAndi, execOri, execXori, execShl, execShr, execShra, execShli, execShri, execShrai, execRot,
    execClz, execPopc, execMin, execMax, execMinz, execMaxz, execMov, execMovi, execExt, execIns, execLea, execSext, execCmp,
    execCmpi, execTbit, execPset, execPget, execPput, execCmpt, execBr, execJmp, execCall, execRet, execBrloop, execEndTask,
    execFmt, execView, execMvtc, execLock, execUnlock, execSpecx, execTrap, execEret, execTick, hs]
  case vnop | vadd | vsub | vmul | vmad | vmin | vmax | vabs | vneg | vand | vor | vxor | vshl | vshr | vshra | vclz | vpopc |
  vwadd | vwmad | vrcp | vrsq | vexp2 | vlog2 | vpcnt | vpany | vrsum | vrmax | vrmin | vmov | vld | vst | vlds | vsts =>
    simp [exec, execVnop, execVadd, execVsub, execVmul, execVmad, execVmin, execVmax, execVabs, execVneg, execVand, execVor,
    execVxor, execVshl, execVshr, execVshra, execVclz, execVpopc, execVwadd, execVwmad, execVrcp, execVrsq, execVexp2, execVlog2,
    execVpcnt, execVpany, execVrsum, execVrmax, execVrmin, execVmov, execVld, execVst, execVlds, execVsts, hs]
  case mnop | mld | mst | mzero | mma | mmas | mnorm | mout | mcvt | mtrn | mfac | lrmul | lradd | mtemper | mdense | lrmma | mrank =>
    simp [exec, execMnop, execMld, execMst, execMzero, execMma, execMmas, execMnorm, execMout, execMcvt, execMtrn, execMfac,
    execLrmul, execLradd, execMtemper, execMdense, execLrmma, execMrank, hs]
  case cnop | cpy | cpyr | radv | ldg | stg | vldg | vstg | amo | cas | fence | waitaddr | bind | unbind | bcast | latch | khash |
  klook | kopen | kwr | kseal | klease | kref | kunref | kld | krepl | kstat | kdrop =>
    simp [exec, execCnop,  execRadv, execLdg, execStg, execVldg, execVstg, execAmo, execCas, 
     execBind, execUnbind, execBcast, execLatch, execKhash, execKlook, execKopen, execKwr, execKseal, execKlease,
    execKref, execKunref,  execKrepl, execKstat, execKdrop, hs]
  case wsRefreshWindowEnd | ageBoundary | readMiss | checkOut | invalidation | invalidationAck | moduleRemoval | hostSnoop |
  hdmDecoderCommit | storeTick | ceDetected | errorBankClear | evheadWrite | kill | killDone | frameMigrate | moduleReset |
  fwauthDone | meminitDone | mstateGo | hcfgWrite | shootdown | shootdownDone | ovlinvByIdent | ovlinvByAsid | ovlinvAll |
  nsCreate | nsDestroy | nsRights | zadmit | lqEnable | lqDisable | lqRestart | slabEntryWrite | bankRoleWrite | wsLoad |
  crmarkWrite | hlccfgWrite | thermalCapTick | linkEnable | linkTrained | routeWrite | registerWrite | dataFlit | linkNak |
  linkPause | linkResume | linkCpause | linkCresume | linkIdle | nakRepeat | pauseRepeat | resumeRepeat | pldmFirmwareUpdate |
  spdmNegotiateAlgorithms | spdmGetCertificate | spdmChallenge | powerUp | cxlLinkDown =>
    simp [exec, execWsRefreshWindowEnd, execAgeBoundary, execReadMiss, execCheckOut, execInvalidation, execInvalidationAck,
    execModuleRemoval, execHostSnoop, execHdmDecoderCommit, execCeDetected, execErrorBankClear, 
    execKill, execKillDone, execFrameMigrate, execModuleReset, execFwauthDone, execMeminitDone, execMstateGo, execHcfgWrite,
    execShootdown, execOvlinvByIdent, execOvlinvByAsid, execOvlinvAll, execNsCreate, execNsDestroy,
    execNsRights, execZadmit, execLqEnable, execLqDisable, execLqRestart, execSlabEntryWrite, execBankRoleWrite, execWsLoad,
    execCrmarkWrite, execHlccfgWrite, execThermalCapTick, execLinkEnable, execLinkTrained, execRouteWrite, execRegisterWrite,
    execDataFlit, execLinkNak, execLinkPause, execLinkResume, execLinkCpause, execLinkCresume, execLinkIdle, execNakRepeat,
    execPauseRepeat, execResumeRepeat, execPldmFirmwareUpdate, execSpdmNegotiateAlgorithms, execSpdmGetCertificate,
    execSpdmChallenge, execPowerUp, execCxlLinkDown, hs]
  case ldsp | stsp | brm | wait | mvfc | bflip | vsat | vcvt | vcmp | vpset | vscan | vperm | vbcast | vslide | viota | vmovi |
  vgetl | vputl | vgather | vscatter | vcmpt | bar | bara | barw | sstep | lsend | lrecv | tailWordChange | launchRecord |
  unplaceableReport | checkIn | silentDrop | stackRemoval | hostSnoopResponse | hostCxlMemWrite | hostCxlMemRead |
  cxlMemHeldTimeout | sealComplete | demoteComplete | leaseExpire | ueDetected | frameMigrateDone | frameReleaseRemap |
  cbindWrite | roleDrainDone | wsLoadDone | limiterWrite | routeSwitch | memoryRequestMsg | responseMsg | linkMessageMsg |
  barrierMsg | nodeDirectoryMsg | timeBaseMsg | managementMsg | securityFloorAdvance | spdmGetMeasurements => simp [exec, hs]
  case resultLanding | heldBundleIssue | gatherFreezeEnd | bellowsFreezeEnd | programTrapEntry | eretResume | matrixReadHoldClear |
  matrixComplete | copyComplete | memoryAccessComplete | crucibleCommandComplete | lsendDelivered | waitaddrPoll |
  waitaddrTimeout | retryBackoffExpire | taskEntry | coreRetire | scPerform | replicaBlockMoved | cctlPhase | cctlForce |
  cctlResume | cctlEnd | cctlCancel | contextSaveDone | contextRestore | contextRestoreDone | tokclr | xlrespRetry | xlrespRefuse =>
    exact eventCore_wf hs rfl
  case powerRemoval => exact nextWf_next.2 (State.unpower_wf hs)
  case thermalShutdown => exact execThermalShutdown_wf hs _

end
end Sys2Proof.Machine
end

section
/-! ## One step keeps memory canonical -/
namespace Sys2Proof.Machine
open Sys2Proof

variable {s t : State}

theorem State.atEach_wf (hs : s.memory.mem.wf = true) {f : State → State}
    (hf : ∀ u : State, u.memory.mem.wf = true → (f u).memory.mem.wf = true) (ms : List Nat) : (s.atEach ms f).memory.mem.wf = true :=
  foldl_stateWf (fun _ _ hu => State.atCore_wf hu hf) ms hs

theorem Trial.slot_wf {t : Trial} (ht : t.st.memory.mem.wf = true) (i : Instr) : (t.slot i).st.memory.mem.wf = true := by
  unfold Trial.slot
  split
  next hi =>
    have hn := exec_wf ht i _ hi
    split
    · exact hn
    · simpa using hn
    · exact ht
  · exact ht

theorem Trial.slots_wf (is : List Instr) {t : Trial} (ht : t.st.memory.mem.wf = true) :
    (is.foldl Trial.slot t).st.memory.mem.wf = true :=
  List.foldlRecOn (motive := fun t : Trial => t.st.memory.mem.wf = true) is Trial.slot ht fun _ hu i _ => Trial.slot_wf hu i

theorem State.present_wf (hs : s.memory.mem.wf = true) : s.present.st.memory.mem.wf = true := by
  have hb : s.begin.memory.mem.wf = true := hs
  unfold State.present; dsimp only
  split
  · exact hb
  · split
    · exact hb
    · split
      · exact hb
      · exact hb
      · exact Trial.slots_wf _ (by simpa using hb)

theorem State.trials_wf (ms : List Nat) (hs : s.memory.mem.wf = true) : (State.trials ms s).1.memory.mem.wf = true := by
  induction ms generalizing s with
  | nil => exact hs
  | cons m ms ih =>
    unfold State.trials
    split
    · exact ih hs
    next hf => exact ih (State.present_wf (by rwa [State.focus_mem hf]))

theorem State.hold_wf (hs : s.memory.mem.wf = true) (t : Trial) : (s.hold t).memory.mem.wf = true := by
  unfold State.hold
  extract_lets s1
  have h1 : s1.memory.mem.wf = true := by
    unfold s1
    split
    · exact Trial.slots_wf _ (by simpa using hs)
    · exact hs
  exact h1

theorem State.issueSet_wf (hs : s.memory.mem.wf = true) (ms gs : List Nat) : (s.issueSet ms gs).memory.mem.wf = true := by
  have hr := State.trials_wf ms hs
  unfold State.issueSet
  extract_lets r
  split
  · exact State.atEach_wf (foldl_stateWf (fun u e hu => State.atCore_wf hu fun v hv => State.hold_wf hv _) _ hs)
      (fun v hv => by simpa using hv) _
  · split
    · refine State.atEach_wf (foldl_stateWf (fun u e hu => ?_) _ hs) (fun v hv => by simpa using hv) _
      split
      · exact State.atCore_wf hu fun v hv => State.failAt_wf hv _
      · exact hu
    · split
      · exact State.atEach_wf (State.atEach_wf hs (fun v hv => State.recoverRest_wf hv) _) (fun v hv => by simpa using hv) _
      · rename_i s1 s2 _ _ _
        have h1 : s1.memory.mem.wf = true :=
          foldl_stateWf (fun u e hu => State.atCore_wf hu fun v hv => State.commit_wf hv _) _ (State.busCycle_wf hr)
        have h2 : s2.memory.mem.wf = true := by
          unfold s2; split
          · exact State.atEach_wf h1 (fun v hv => by split <;> simpa using hv) _
          · exact h1
        split
        · exact State.atEach_wf h2 (fun v hv => by split <;> simpa using hv) _
        · exact h2

theorem State.turn_wf (hs : s.memory.mem.wf = true) (ms gs : List Nat) : (s.turn ms gs).memory.mem.wf = true := by
  unfold State.turn
  dsimp only
  split
  · exact State.atEach_wf hs (fun v hv => by simpa using hv) _
  · exact State.issueSet_wf hs _ _

theorem State.period_wf (hs : s.memory.mem.wf = true) : s.period.memory.mem.wf = true := by
  unfold State.period
  dsimp only
  split
  · exact State.atEach_wf hs (fun v hv => by simpa using hv) _
  · split
    · exact State.turn_wf hs _ _
    · exact State.atEach_wf (State.turn_wf hs _ _) (fun v hv => by simpa using hv) _

theorem State.tryEvent_wf (hs : s.memory.mem.wf = true) (i : Instr) : SomeWf (s.tryEvent i) := by
  unfold State.tryEvent
  split
  next hi => exact someWf_some.2 (exec_wf hs i _ hi)
  · exact someWf_none

theorem State.after_wf (hs : s.memory.mem.wf = true) (i : Instr) : (s.after i).memory.mem.wf = true := by
  unfold State.after
  cases h : s.tryEvent i with
  | none => exact hs
  | some t => exact State.tryEvent_wf hs i t h

theorem State.tickNow_wf (hs : s.memory.mem.wf = true) : s.tickNow.memory.mem.wf = true := by
  have h1 := State.after_wf hs .storeTick
  unfold State.tickNow
  generalize s.after .storeTick = u at h1 ⊢
  exact foldl_stateWf (fun _ i hu => State.after_wf hu i) _ h1

/-- The first event of a list that can come about. -/
theorem State.findSome?_tryEvent_wf (hs : s.memory.mem.wf = true) (is : List Instr) : SomeWf (is.findSome? s.tryEvent) := by
  intro t h
  obtain ⟨i, -, hi⟩ := List.exists_of_findSome?_eq_some h
  exact State.tryEvent_wf hs i t hi

theorem State.auto_wf (hs : s.memory.mem.wf = true) : SomeWf s.auto := by
  unfold State.auto
  split
  · exact someWf_some.2 (State.tickNow_wf hs)
  · split
    next hd => exact someWf_some.2 (State.findSome?_tryEvent_wf hs _ _ hd)
    · simp [hs]

theorem State.autoGroup_wf (hs : s.memory.mem.wf = true) : SomeWf s.autoGroup := by
  intro t h
  obtain ⟨m, -, hm⟩ := List.exists_of_findSome?_eq_some h
  split at hm
  next hf => exact State.auto_wf (by rwa [State.focus_mem hf]) t hm
  · cases hm

theorem State.progress_wf (hs : s.memory.mem.wf = true) : s.progress.memory.mem.wf = true := by
  unfold State.progress
  split
  · refine foldl_stateWf (fun u is hu => ?_) _ hs
    cases h : is.findSome? u.tryEvent with
    | none => exact hu
    | some t => exact State.findSome?_tryEvent_wf hu is t h
  · exact hs

theorem State.chosen_mem (s : State) : s.chosen.memory.mem = s.memory.mem := by
  unfold State.chosen
  split <;> exact State.focus_getD_mem _ _

theorem State.advance_wf (hs : s.memory.mem.wf = true) : s.advance.memory.mem.wf = true := by
  have hc : s.chosen.memory.mem.wf = true := by rwa [State.chosen_mem]
  unfold State.advance; dsimp only
  split
  next ha => exact State.autoGroup_wf hc _ ha
  · exact State.period_wf (State.atEach_wf (by exact hc) (fun _ hu => State.progress_wf hu) _)

/-- A step, of a bundle or of an event, keeps memory canonical. -/
theorem step_wf (hs : s.memory.mem.wf = true) : NextWf (step s) := by
  intro t h
  unfold step State.move at h
  split at h
  · split at h
    · exact exec_wf (by exact hs) _ _ h
    · cases h
  · split at h
    · split at h
      · cases h
      · split at h
        · cases h; exact hs
        · split at h
          next hi => cases h; rw [State.publish_mem]; exact exec_wf (by exact hs) _ _ hi
          next hn => exact absurd h (hn _)
    · cases h; rw [State.publish_mem]; exact State.advance_wf hs

end Sys2Proof.Machine
end

section
namespace Sys2Proof.Machine
open Sys2Proof

/-- Settles O8: what each function, event and instruction does to memory, carried up to `step`. -/
theorem memoryStaysCanonical : Obligations.MemoryStaysCanonical :=
  fun _ _ hs h => step_wf hs _ h

end Sys2Proof.Machine
end

section
/-! ## Lines and the directory
What a lookup of a line, of an entry and of bytes at their home finds after each operation of the directory (05 R131 to R134). -/
namespace Sys2Proof.Machine
open Sys2Proof

/-! ### Lookups by key -/

/-- What is put in place of the elements of its own key is found. -/
theorem find?_replace {α : Type} {p : α → Bool} (a : α) (l : List α) (h : p a = true) :
    (l.filter (fun x => !p x) ++ [a]).find? p = some a := by
  rw [List.find?_append, List.find?_eq_none.2 fun x hx => by simpa using (List.mem_filter.1 hx).2]
  simp [h]

/-- What drops or keeps other elements only leaves a lookup. -/
theorem find?_filter_of_imp {α : Type} {p q : α → Bool} (l : List α) (h : ∀ x, p x = true → q x = true) :
    (l.filter q).find? p = l.find? p := by
  rw [List.find?_filter]
  congr 1
  funext x
  have := h x
  cases hp : p x <;> simp_all

@[simp] theorem State.entry_setEntry_same (s : State) (d : DirEntry) : (s.setEntry d).entry d.line = some d :=
  find?_replace (p := fun e : DirEntry => e.line == d.line) d s.memory.dir (by simp)
theorem State.entry_line {s : State} {line : Nat} {d : DirEntry} (h : s.entry line = some d) : d.line = line := by
  simpa using List.find?_some h
theorem State.entryOf_line (s : State) (line : Nat) : (s.entryOf line).line = line := by
  unfold State.entryOf
  cases h : s.entry line with
  | none => rfl
  | some d => exact State.entry_line h
theorem State.entryOf_some {s : State} {line : Nat} {d : DirEntry} (h : s.entry line = some d) : s.entryOf line = d := by
  simp [State.entryOf, h]

@[simp] theorem State.entry_touchL2 (s : State) (l w line) : (s.touchL2 l w).entry line = s.entry line := rfl
@[simp] theorem State.entry_homeStore (s : State) (pa bs line) : (s.homeStore pa bs).entry line = s.entry line := rfl
@[simp] theorem State.entry_dropLine (s : State) (ag l line) : (s.dropLine ag l).entry line = s.entry line := rfl
@[simp] theorem State.entry_setLine (s : State) (c line) : (s.setLine c).entry line = s.entry line := rfl
@[simp] theorem State.entryOf_touchL2 (s : State) (l w line) : (s.touchL2 l w).entryOf line = s.entryOf line := rfl

@[simp] theorem State.cline_touchL2 (s : State) (l w ag line) : (s.touchL2 l w).cline ag line = s.cline ag line := rfl
@[simp] theorem State.cline_setEntry (s : State) (d ag line) : (s.setEntry d).cline ag line = s.cline ag line := rfl
@[simp] theorem State.cline_setLine_same (s : State) (c : CLine) : (s.setLine c).cline c.agent c.line = some c :=
  find?_replace (p := fun l : CLine => l.agent == c.agent && l.line == c.line) c s.memory.lines (by simp)

theorem State.cline_eq_none {s : State} {ag line : Nat} :
    s.cline ag line = none ↔ ∀ l ∈ s.memory.lines, ¬(l.agent = ag ∧ l.line = line) := by
  simp [State.cline]
@[simp] theorem State.cline_dropLine_same (s : State) (ag line : Nat) : (s.dropLine ag line).cline ag line = none :=
  State.cline_eq_none.2 fun l hl => by simpa [or_iff_not_imp_left] using (List.mem_filter.1 hl).2

@[simp] theorem State.homeRead_touchL2 (s : State) (l w pa n) : (s.touchL2 l w).homeRead pa n = s.homeRead pa n := rfl

/-! ### Fan-outs -/

/-- The lines after a fan-out: of its own those that are kept, with the bytes of the home; every other. -/
theorem State.fanDone_lines (s : State) (d : DirEntry) (f : FanOut) : (s.fanDone d f).memory.lines =
    s.memory.lines.filterMap (fun (l : CLine) => if l.line = d.line then
      (if (f.keep.filter (fun a => (s.cline a d.line).isSome)).contains l.agent
        then some { l with bytes := s.homeRead (d.line * 128) 128, out := false, wrote := [] } else none) else some l) := by
  unfold State.fanDone; dsimp only; split <;> rfl

/-- A fan-out that completes gives no agent a line. -/
theorem State.cline_fanDone {s : State} {ag line : Nat} (h : s.cline ag line = none) (d f) : (s.fanDone d f).cline ag line = none := by
  rw [State.cline_eq_none] at h ⊢
  intro l hm
  rw [State.fanDone_lines] at hm
  obtain ⟨k, hk, hkl⟩ := List.mem_filterMap.1 hm
  have hk := h k hk
  split at hkl
  · split at hkl
    · cases hkl; exact hk
    · cases hkl
  · cases hkl; exact hk

theorem State.cline_settleFan {s : State} {ag line : Nat} (h : s.cline ag line = none) (l) : (s.settleFan l).cline ag line = none := by
  unfold State.settleFan
  split
  · exact h
  · split
    · exact h
    · split
      · exact State.cline_fanDone h _ _
      · exact h

theorem State.cline_startFan {s : State} {ag line : Nat} (h : s.cline ag line = none) (l fr keep byHost wrote) :
    (s.startFan l fr keep byHost wrote).cline ag line = none := by
  unfold State.startFan; dsimp only
  split
  · exact State.cline_settleFan (by exact h) _
  · exact State.cline_settleFan (by exact h) _

/-- A fan-out that waits for an agent goes on. -/
theorem State.settleFan_waits {s : State} {line : Nat} {d : DirEntry} {f : FanOut} (hd : s.entry line = some d) (hf : d.fan = some f)
    (h : f.await ≠ [] ∨ f.host = true) : s.settleFan line = s := by
  have hn : (f.await.isEmpty && !f.host) = false := by rcases h with h | h <;> simp [h]
  simp [State.settleFan, hd, hf, hn]

/-! ### Bytes at their home -/

theorem State.frame_of_remaps_nil {s : State} (h : s.memory.remaps = []) (pa : Nat) : s.frame pa = pa := by
  simp [State.frame, h, lookupN]

/-- Bytes stored within a frame lie one after the other. -/
theorem State.homeStore_mem (s : State) {pa : Nat} {bs : List Byte} (h : pa % 65536 + bs.length ≤ 65536) :
    (s.homeStore pa bs).memory.mem = s.memory.mem.setN (s.frame pa) bs :=
  s.memory.mem.setCells_zipIdx (s.frame pa) 0 bs (fun j => s.frame (pa + j)) fun j hj => s.frame_add (by omega)

theorem State.homeRead_getD (s : State) (pa : Nat) {i n : Nat} (h : i < n) : (s.homeRead pa n).getD i 0 = s.memory.mem.get (s.frame (pa + i)) := by
  simp [State.homeRead, List.getD_eq_getElem?_getD, h]

end Sys2Proof.Machine
end

section
/-! ## Checking a line in -/
namespace Sys2Proof.Machine
open Sys2Proof

/-- The bytes that a check-in leaves: the copy's where they differ from the twin's, the home's otherwise. -/
def mergedLine (copy twin home : List Byte) : List Byte :=
  (List.range 128).map (fun i => if copy.getD i 0 = twin.getD i 0 then home.getD i 0 else copy.getD i 0)

theorem mergedLine_length (copy twin home : List Byte) : (mergedLine copy twin home).length = 128 := by simp [mergedLine]

theorem mergedLine_getD {i : Nat} (hi : i < 128) (copy twin home : List Byte) :
    (mergedLine copy twin home).getD i 0 = if copy.getD i 0 = twin.getD i 0 then home.getD i 0 else copy.getD i 0 := by
  simp [mergedLine, hi]

/-- A check-in writes the merged line at its home, and nothing else. -/
theorem State.checkIn_mem {s : State} {ag line : Nat} {c : CLine} {d : DirEntry} {twin : List Byte} (hc : s.cline ag line = some c)
    (hd : s.entry line = some d) (ht : d.twin = some twin) (keep : Bool) :
    (s.checkIn ag line keep).memory.mem =
      s.memory.mem.setN (s.frame (line * 128)) (mergedLine c.bytes twin (s.homeRead (line * 128) 128)) := by
  simp only [State.checkIn, hc, State.startFan_mem, State.mem_ite, State.setLine_mem, State.dropLine_mem, State.setEntry_mem, ite_self,
    State.entryOf_touchL2, State.entryOf_some hd, ht, Option.getD_some, State.homeRead_touchL2]
  exact State.homeStore_mem (s.touchL2 line true) (by simp; omega)

/-- An agent that checks a line in and keeps no copy is left without it. -/
theorem State.cline_checkIn {s : State} {ag line : Nat} {c : CLine} (hc : s.cline ag line = some c) :
    (s.checkIn ag line false).cline ag line = none := by
  simp only [State.checkIn, hc, Bool.false_and]
  exact State.cline_startFan (State.cline_dropLine_same _ ag line) _ _ _ _ _

theorem exec_checkIn_out {s : State} {ag line : Nat} {c : CLine} (hr : (s.stack (ag / 11)).removed = false) (hc : s.cline ag line = some c)
    (ho : c.out = true) : exec (.checkIn ag line) s = .next (s.checkIn ag line false) := by
  simp [exec, execCheckIn, State.fromAgent, hr, hc, ho]

/-- Settles O56: the home takes the merged line (`State.checkIn_mem`), whose bytes are read where they were written. -/
theorem checkInMerges : Obligations.CheckInMerges := by
  intro s ag line c d twin hw hr hc ho hd ht hm hl
  refine ⟨_, exec_checkIn_out hr hc ho, ?_⟩
  have hlen := mergedLine_length c.bytes twin (s.homeRead (line * 128) 128)
  rw [State.checkIn_mem hc hd ht, State.frame_of_remaps_nil hm]
  refine ⟨fun i hi => ?_, fun a ha => Memory.get_setN_other hw (by omega)⟩
  rw [Memory.get_setN_same hw (by omega)]
  rw [← List.getD_eq_getElem _ 0, mergedLine_getD hi, s.homeRead_getD _ hi, State.frame_of_remaps_nil hm]

end Sys2Proof.Machine
end

section
/-! ## The directory's events -/
namespace Sys2Proof.Machine
open Sys2Proof

/-- What comes from an agent of a removed stack changes nothing (05 R134). -/
theorem State.fromAgent_removed {s : State} {ag : Nat} (h : (s.stack (ag / 11)).removed = true) (r : Option State) :
    s.fromAgent ag r = some s := by simp [State.fromAgent, h]
theorem State.fromAgent_present {s : State} {ag : Nat} (h : (s.stack (ag / 11)).removed = false) (r : Option State) :
    s.fromAgent ag r = r := by simp [State.fromAgent, h]

/-- An agent with room gives no line up. -/
theorem State.makeRoom_room {s : State} {ag : Nat} (h : (s.memory.lines.filter (fun l => l.agent == ag)).length < s.capacity ag) (line : Nat) :
    s.makeRoom ag line = s := by
  have hsub : (s.memory.lines.filter (fun l => l.agent == ag && l.line != line)).length ≤ (s.memory.lines.filter (fun l => l.agent == ag)).length := by
    rw [show s.memory.lines.filter (fun l => l.agent == ag && l.line != line) =
      (s.memory.lines.filter (fun l => l.agent == ag)).filter (fun l => l.line != line) by rw [List.filter_filter]; congr 1; funext l; rw [Bool.and_comm]]
    exact List.length_filter_le _ _
  simp [State.makeRoom, Nat.lt_of_le_of_lt hsub h]

/-- A coarse vector covers the agent it was told of. -/
theorem mem_coarse {ag : Nat} (h : ag < 88) (v : BitVec 22) : ag ∈ (Sharers.coarse (v ||| (1 : BitVec 22) <<< (ag / 4))).agents := by
  have : ag / 4 < 22 := by omega
  simp [Sharers.agents, h, this]

theorem mem_insertSet (k : Nat) (l : List Nat) : k ∈ insertSet k l := by
  induction l with
  | nil => simp [insertSet]
  | cons a l ih =>
    unfold insertSet
    split
    · simp [*]
    · split
      · simp
      · simp [ih]

/-- An agent that is recorded is one that an invalidation goes to. -/
theorem Sharers.mem_add {ag : Nat} (h : ag < 88) (sh : Sharers) : ag ∈ (sh.add ag).agents := by
  cases sh with
  | pointers l =>
    unfold Sharers.add; dsimp only
    split
    next hc => simpa [Sharers.agents] using hc
    · split
      · simp [Sharers.agents]
      · rw [coarseOf, List.foldl_append]
        exact mem_coarse h _
  | coarse v => exact mem_coarse h v

/-- READ_MISS by an agent with room. -/
theorem exec_readMiss_room {s : State} {ag line : Nat} (hr : (s.stack (ag / 11)).removed = false) (hb : s.fanBusy line = false)
    (hc : s.cline ag line = none) (hf : s.frameBusy (line * 128) = false)
    (h : (s.memory.lines.filter (fun l => l.agent == ag)).length < s.capacity ag) :
    exec (.readMiss ag line) s = .next (((s.touchL2 line false).setEntry
      { s.entryOf line with sharers := (s.entryOf line).sharers.add ag }).setLine ⟨ag, line, s.homeRead (line * 128) 128, false, []⟩) := by
  simp [exec, execReadMiss, State.fromAgent_present hr, hb, hc, hf, State.readMiss, State.makeRoom_room h]

/-- CHECK_OUT by an agent with room. -/
theorem exec_checkOut_room {s : State} {ag line : Nat} (hr : (s.stack (ag / 11)).removed = false) (hb : s.fanBusy line = false)
    (hc : s.cline ag line = none) (hf : s.frameBusy (line * 128) = false)
    (h : (s.memory.lines.filter (fun l => l.agent == ag)).length < s.capacity ag) :
    exec (.checkOut ag line) s = .next (((s.touchL2 line false).setEntry
      { s.entryOf line with sharers := (s.entryOf line).sharers.add ag, out := insertSet ag (s.entryOf line).out,
                            twin := if (s.entryOf line).out.isEmpty then some (s.homeRead (line * 128) 128) else (s.entryOf line).twin }).setLine
      ⟨ag, line, s.homeRead (line * 128) 128, true, []⟩) := by
  simp [exec, execCheckOut, State.fromAgent_present hr, hb, hc, hf, State.checkOut, State.makeRoom_room h]

/-- The entry that a directory operation puts for the line is the line's. -/
theorem State.entry_setEntry_of_line {s : State} {line : Nat} {d : DirEntry} (h : d.line = line) : (s.setEntry d).entry line = some d := by
  rw [← h]; exact s.entry_setEntry_same d

/-- INVALIDATION of a line that is not checked out. -/
theorem exec_invalidation_clean {s : State} {ag line : Nat} {d : DirEntry} {f : FanOut} (hr : (s.stack (ag / 11)).removed = false)
    (hd : s.entry line = some d) (hf : d.fan = some f) (hi : ag ∈ f.inval) (hc : ∀ c, s.cline ag line = some c → c.out = false) :
    ∃ u : State, u.cline ag line = none ∧ u.memory.mem = s.memory.mem ∧ exec (.invalidation ag line) s = .next (u.setEntry
      { d with fan := some { f with inval := f.inval.filter (fun a => a != ag), acking := f.acking ++ [ag] } }) := by
  cases h : s.cline ag line with
  | none =>
    refine ⟨s.setEntry { d with fan := some { f with inval := f.inval.filter (fun a => a != ag) } }, h, rfl, ?_⟩
    simp [exec, execInvalidation, State.fromAgent_present hr, State.invalidate, hd, hf, hi, h]
  | some c =>
    refine ⟨(s.setEntry { d with fan := some { f with inval := f.inval.filter (fun a => a != ag) } }).dropLine ag line,
      State.cline_dropLine_same _ _ _, rfl, ?_⟩
    simp [exec, execInvalidation, State.fromAgent_present hr, State.invalidate, hd, hf, hi, h, hc c h]

/-- INVALIDATION_ACK while others are awaited. -/
theorem exec_invalidationAck_waits {s : State} {ag line : Nat} {d : DirEntry} {f : FanOut} (hr : (s.stack (ag / 11)).removed = false)
    (hd : s.entry line = some d) (hf : d.fan = some f) (ha : ag ∈ f.acking) (hw : f.await.filter (fun a => a != ag) ≠ []) :
    exec (.invalidationAck ag line) s = .next (s.setEntry
      { d with fan := some { f with acking := f.acking.erase ag, await := f.await.filter (fun a => a != ag) } }) := by
  have hl := State.entry_line hd
  have he : (s.setEntry { d with fan := some { f with acking := f.acking.erase ag, await := f.await.filter (fun a => a != ag) } }).entry line =
    some _ := State.entry_setEntry_of_line (by exact hl)
  simp [exec, execInvalidationAck, State.fromAgent_present hr, State.ackFan, hd, hf, ha, State.settleFan_waits he rfl (.inl hw)]

/-- Settles O55: each event by the state that it leaves, where the line and its entry are looked up. -/
theorem directoryEvents : Obligations.DirectoryEvents := by
  intro s ag line
  refine ⟨fun hr => ?_, fun hr => ⟨fun hb hc hf hroom => ⟨?_, ?_⟩, fun c hc ho hb => ?_, fun d f hd hf => ⟨fun hi hc => ?_, fun ha hw => ?_⟩⟩, fun c hc ho => ?_⟩
  · simp [exec, execReadMiss, execCheckOut, execCheckIn, execInvalidation, execInvalidationAck, State.fromAgent_removed hr]
  · exact ⟨_, _, exec_readMiss_room hr hb hc hf hroom, State.cline_setLine_same _ _, rfl, rfl, rfl,
      fun ha => ⟨_, State.entry_setEntry_of_line (s.entryOf_line line), Sharers.mem_add ha _⟩⟩
  · exact ⟨_, _, _, exec_checkOut_room hr hb hc hf hroom, State.cline_setLine_same _ _, rfl, rfl,
      State.entry_setEntry_of_line (s.entryOf_line line), mem_insertSet _ _, fun ha => Sharers.mem_add ha _, rfl⟩
  · exact ⟨_, exec_checkIn_out hr hc ho, State.cline_checkIn hc⟩
  · have hl := State.entry_line hd
    obtain ⟨u, hu, hm, he⟩ := exec_invalidation_clean hr hd hf hi hc
    exact ⟨_, _, _, he, hu, State.entry_setEntry_of_line (by exact hl), rfl, by simp, by simp, hm⟩
  · have hl := State.entry_line hd
    obtain ⟨a, ham, hne⟩ := hw
    have hne : f.await.filter (fun a => a != ag) ≠ [] := fun h => by
      have := List.filter_eq_nil_iff.1 h a ham
      simp [hne] at this
    exact ⟨_, _, _, exec_invalidationAck_waits hr hd hf ha hne, State.entry_setEntry_of_line (by exact hl), rfl, rfl, rfl⟩
  · exact ⟨s.dropLine ag line, by simp [exec, execSilentDrop, hc, ho], State.cline_dropLine_same _ _ _, rfl, rfl⟩

end Sys2Proof.Machine
end

section
/-! ## The host's requests
What a write, a read and a snoop by the host leave, and what a request that fails keeps of the module (05 R136, R137; 16 R361). -/
namespace Sys2Proof.Machine
open Sys2Proof

/-! ### Writes of any extent at lines without an entry -/

/-- A write at a line that no agent and no host share starts no fan-out. -/
theorem State.homeWrite_unshared {s : State} {pa : Nat} (h : s.entry (pa / 128) = none) (bs byHost wrote) :
    s.homeWrite pa bs byHost wrote = (s.touchL2 (pa / 128) true).homeStore pa bs := by
  simp [State.homeWrite, h]

/-- An address lies in a part of a range. -/
def inPart (l : Nat × Nat × Nat) (a : Nat) : Prop := l.1 * 128 + l.2.1 ≤ a ∧ a < l.1 * 128 + l.2.1 + l.2.2

/-- The parts of a range lie in it, each within its line. -/
theorem mem_lineParts {pa n : Nat} {l : Nat × Nat × Nat} (h : l ∈ lineParts pa n) :
    pa ≤ l.1 * 128 + l.2.1 ∧ l.1 * 128 + l.2.1 + l.2.2 ≤ pa + n ∧ l.2.1 + l.2.2 ≤ 128 ∧ l.2.1 < 128 := by
  unfold lineParts at h
  split at h
  · simp at h
  · obtain ⟨i, hi, rfl⟩ := List.mem_map.1 h
    have := List.mem_range.1 hi
    dsimp only
    omega

/-- The parts of a range cover it. -/
theorem exists_inPart {pa n a : Nat} (h1 : pa ≤ a) (h2 : a < pa + n) : ∃ l ∈ lineParts pa n, inPart l a := by
  unfold lineParts inPart
  rw [if_neg (by omega)]
  refine ⟨_, List.mem_map.2 ⟨a / 128 - pa / 128, List.mem_range.2 (by omega), rfl⟩, ?_⟩
  dsimp only
  omega

/-- What parts of a range written at unshared lines leave: the bytes of the range where a part lies, and everything else. -/
theorem foldl_homeWrite_unshared {pa : Nat} {bs : List Byte} (byHost wrote) (ls : List (Nat × Nat × Nat)) :
    ∀ {s : State}, s.memoryWf → s.memory.remaps = [] → (∀ l ∈ ls, s.entry l.1 = none) →
      (∀ l ∈ ls, pa ≤ l.1 * 128 + l.2.1 ∧ l.1 * 128 + l.2.1 + l.2.2 ≤ pa + bs.length ∧ l.2.1 + l.2.2 ≤ 128 ∧ l.2.1 < 128) →
      let t := ls.foldl (fun (s : State) l => s.homeWrite (l.1 * 128 + l.2.1) ((bs.drop (l.1 * 128 + l.2.1 - pa)).take l.2.2) byHost wrote) s
      t.memory.dir = s.memory.dir ∧ t.outward = s.outward ∧
      (∀ a, (∃ l ∈ ls, inPart l a) → t.memory.mem.get a = bs.getD (a - pa) 0) ∧
      (∀ a, (∀ l ∈ ls, ¬inPart l a) → t.memory.mem.get a = s.memory.mem.get a) := by
  induction ls with
  | nil => exact fun _ _ _ _ => ⟨rfl, rfl, fun a ⟨l, hl, _⟩ => absurd hl (by simp), fun _ _ => rfl⟩
  | cons l ls ih =>
    intro s hw hm he hp
    obtain ⟨hlo, hhi, hin, hoff⟩ := hp l (by simp)
    have hline : (l.1 * 128 + l.2.1) / 128 = l.1 := by omega
    have hlen : ((bs.drop (l.1 * 128 + l.2.1 - pa)).take l.2.2).length = l.2.2 := by simp; omega
    have hu := State.homeWrite_unshared (s := s) (pa := l.1 * 128 + l.2.1) (by rw [hline]; exact he l (by simp))
      ((bs.drop (l.1 * 128 + l.2.1 - pa)).take l.2.2) byHost wrote
    have hmem := State.homeWrite_mem s (pa := l.1 * 128 + l.2.1) (bs := (bs.drop (l.1 * 128 + l.2.1 - pa)).take l.2.2) (by omega) byHost wrote
    rw [State.frame_of_remaps_nil hm] at hmem
    rw [List.foldl_cons]
    generalize s.homeWrite (l.1 * 128 + l.2.1) ((bs.drop (l.1 * 128 + l.2.1 - pa)).take l.2.2) byHost wrote = u at hu hmem ⊢
    obtain ⟨hdir, hout, hsame, hother⟩ := ih (s := u) (by rw [State.memoryWf, hmem]; exact Memory.setN_wf hw) (by rw [hu]; exact hm)
      (fun k hk => by rw [hu]; exact he k (by simp [hk])) (fun k hk => hp k (by simp [hk]))
    refine ⟨by rw [hdir, hu]; rfl, by rw [hout, hu]; rfl, fun a ha => ?_, fun a ha => ?_⟩
    · by_cases hr : ∃ k ∈ ls, inPart k a
      · exact hsame a hr
      · obtain ⟨k, hk, hka⟩ := ha
        have hla : inPart l a := by
          rcases List.mem_cons.1 hk with rfl | hk
          · exact hka
          · exact absurd ⟨k, hk, hka⟩ hr
        obtain ⟨h1, h2⟩ := hla
        rw [hother a fun k hk hka => hr ⟨k, hk, hka⟩, hmem, show a = l.1 * 128 + l.2.1 + (a - (l.1 * 128 + l.2.1)) by omega,
          Memory.get_setN_same hw (by omega)]
        rw [List.getElem_take, List.getElem_drop, ← List.getD_eq_getElem _ 0]
        congr 1
        omega
    · have hla : ¬inPart l a := ha l (by simp)
      rw [hother a fun k hk => ha k (by simp [hk]), hmem, Memory.get_setN_other hw (by unfold inPart at hla; omega)]

/-- A write whose lines nobody shares leaves its bytes, every other byte, the directory and what is sent. -/
theorem State.homePut_unshared {s : State} {pa : Nat} {bs : List Byte} (hw : s.memoryWf) (hm : s.memory.remaps = [])
    (he : ∀ l ∈ lineParts pa bs.length, s.entry l.1 = none) (byHost wrote) :
    (s.homePut pa bs byHost wrote).memory.dir = s.memory.dir ∧ (s.homePut pa bs byHost wrote).outward = s.outward ∧
    (∀ i, i < bs.length → (s.homePut pa bs byHost wrote).memory.mem.get (pa + i) = bs.getD i 0) ∧
    (∀ a, a < pa ∨ pa + bs.length ≤ a → (s.homePut pa bs byHost wrote).memory.mem.get a = s.memory.mem.get a) := by
  obtain ⟨hd, ho, hsame, hother⟩ := foldl_homeWrite_unshared (pa := pa) (bs := bs) byHost wrote (lineParts pa bs.length) hw hm he
    fun l hl => mem_lineParts hl
  refine ⟨hd, ho, fun i hi => ?_, fun a ha => hother a fun l hl hla => ?_⟩
  · have := hsame (pa + i) (exists_inPart (by omega) (by omega))
    rwa [Nat.add_sub_cancel_left] at this
  · have := mem_lineParts hl
    unfold inPart at hla
    omega

/-! ### What events posted and fan-outs keep -/

@[simp] theorem State.fanDone_heldReqs (s : State) (d f) : (s.fanDone d f).memory.heldReqs = s.memory.heldReqs := by
  unfold State.fanDone; dsimp only; split <;> rfl
@[simp] theorem State.settleFan_heldReqs (s : State) (line) : (s.settleFan line).memory.heldReqs = s.memory.heldReqs := by
  unfold State.settleFan
  split
  · rfl
  · split
    · rfl
    · split <;> simp
@[simp] theorem State.startFan_heldReqs (s : State) (line fr keep byHost wrote) :
    (s.startFan line fr keep byHost wrote).memory.heldReqs = s.memory.heldReqs := by
  unfold State.startFan; dsimp only
  split <;> rw [State.settleFan_heldReqs] <;> rfl
@[simp] theorem State.homeWrite_heldReqs (s : State) (pa bs byHost wrote) :
    (s.homeWrite pa bs byHost wrote).memory.heldReqs = s.memory.heldReqs := by
  unfold State.homeWrite; dsimp only
  split
  · rfl
  · rw [State.startFan_heldReqs]; rfl
@[simp] theorem State.homePut_heldReqs (s : State) (pa bs byHost wrote) : (s.homePut pa bs byHost wrote).memory.heldReqs = s.memory.heldReqs :=
  foldl_keeps (fun s : State => s.memory.heldReqs) _ (fun u _ => u.homeWrite_heldReqs _ _ _ _) _ s
@[simp] theorem State.post_heldReqs (s : State) (e) : (s.post e).memory.heldReqs = s.memory.heldReqs := by
  unfold State.post; dsimp only
  split
  · split <;> rfl
  · exact s.homePut_heldReqs _ _ _ _
@[simp] theorem State.logUe_heldReqs (s : State) (b cnum unit kind addr) : (s.logUe b cnum unit kind addr).memory.heldReqs = s.memory.heldReqs := by
  unfold State.logUe State.logBank; dsimp only
  split
  · rw [State.post_heldReqs]
  · rfl

theorem State.outward_fanDone (s : State) (d f) : s.outward <+: (s.fanDone d f).outward := by
  unfold State.fanDone; dsimp only
  split <;> exact List.prefix_append _ _
theorem State.outward_settleFan (s : State) (line) : s.outward <+: (s.settleFan line).outward := by
  unfold State.settleFan
  split
  · exact List.prefix_rfl
  · split
    · exact List.prefix_rfl
    · split
      · exact s.outward_fanDone _ _
      · exact List.prefix_rfl
theorem State.outward_startFan (s : State) (line fr keep byHost wrote) : s.outward <+: (s.startFan line fr keep byHost wrote).outward := by
  unfold State.startFan; dsimp only
  split
  · exact State.outward_settleFan (State.setEntry _ _) _
  · refine List.IsPrefix.trans ?_ (State.outward_settleFan _ _)
    change s.outward <+: if _ then _ else _
    split
    · exact List.prefix_append _ _
    · exact List.prefix_rfl
theorem State.outward_homeWrite (s : State) (pa bs byHost wrote) : s.outward <+: (s.homeWrite pa bs byHost wrote).outward := by
  unfold State.homeWrite; dsimp only
  split
  · exact List.prefix_rfl
  · exact State.outward_startFan ((s.touchL2 _ true).homeStore pa bs) _ _ _ _ _
/-- A write at its home takes back nothing that has been sent. -/
theorem State.outward_homePut (s : State) (pa bs byHost wrote) : s.outward <+: (s.homePut pa bs byHost wrote).outward :=
  List.foldlRecOn (motive := fun u : State => s.outward <+: u.outward) _ _ List.prefix_rfl
    fun u hu _ _ => hu.trans (u.outward_homeWrite _ _ _ _)
theorem State.outward_post (s : State) (e) : s.outward <+: (s.post e).outward := by
  unfold State.post; dsimp only
  split
  · split <;> exact List.prefix_rfl
  · exact s.outward_homePut _ _ _ _
theorem State.outward_logUe (s : State) (b cnum unit kind addr) : s.outward <+: (s.logUe b cnum unit kind addr).outward := by
  unfold State.logUe State.logBank
  extract_lets board s1
  split
  · exact State.outward_post s1 _
  · exact List.prefix_rfl

/-! ### Snoops -/

/-- An invalidating snoop of a cached line takes it and sends its bytes. -/
theorem State.snoop_inval {s : State} {line : Nat} {l : HLine} (h : s.memory.host.find? (fun k => k.line == line) = some l) (store) :
    (s.snoop line true store).memory.host = s.memory.host.filter (fun k => !(k.line == line)) ∧
    (s.snoop line true store).outward = s.outward ++ [.snoopData line l.bytes] := by
  simp [State.snoop, h, State.hostForget, State.hostWriteBack]

theorem State.snoop_miss {s : State} {line : Nat} (h : s.memory.host.find? (fun k => k.line == line) = none) (inval store) :
    (s.snoop line inval store).outward = s.outward ++ [.snoopMiss line] := by
  simp [State.snoop, h]

/-! ### Reads and writes -/

/-- A host write that starts no fan-out is answered at once. -/
theorem State.hostMemWrite_unshared {s : State} {pa : Nat} {bs : List Byte} (hw : s.memoryWf) (hm : s.memory.remaps = [])
    (he : ∀ l ∈ lineParts pa bs.length, s.entry l.1 = none) (addr : Nat) :
    (s.hostMemWrite addr pa bs).outward = s.outward ++ [.hostDone addr true] ∧
    (∀ i, i < bs.length → (s.hostMemWrite addr pa bs).memory.mem.get (pa + i) = bs.getD i 0) ∧
    (∀ a, a < pa ∨ pa + bs.length ≤ a → (s.hostMemWrite addr pa bs).memory.mem.get a = s.memory.mem.get a) := by
  obtain ⟨hd, ho, hsame, hother⟩ := State.homePut_unshared hw hm he true []
  have hf : (lineParts pa bs.length).flatMap (fun l => (s.homePut pa bs true).fanOf l.1) = [] := by
    rw [List.flatMap_eq_nil_iff]
    intro l hl
    have : (s.homePut pa bs true).entry l.1 = none := by rw [State.entry, hd]; exact he l hl
    simp [State.fanOf, this]
  simp only [State.hostMemWrite, hf, List.isEmpty_nil, if_true, ho]
  exact ⟨trivial, hsame, hother⟩

/-- The fan-out that a host write starts at a line that agents share. -/
def State.hostFan (s : State) (d : DirEntry) : FanOut :=
  let ags := d.sharers.agents.filter (fun a => !(s.stack (a / 11)).removed)
  ⟨s.memory.nextFan, ags, ags, [], [], false, []⟩

/-- A write by the host to a shared line starts its fan-out, which waits for the agents. -/
theorem State.startFan_byHost {s : State} {line : Nat} {d : DirEntry} (hd : s.entry line = some d) (hf : d.fan = none)
    (hs : ∃ a ∈ d.sharers.agents, (s.stack (a / 11)).removed = false) :
    (s.startFan line none false true []).entry line = some { d with hostShares := false, fan := some (s.hostFan d) } ∧
    (s.startFan line none false true []).memory.hostWrites = s.memory.hostWrites := by
  have hl := State.entry_line hd
  obtain ⟨a, ha, hr⟩ := hs
  have hw : (s.hostFan d).await ≠ [] := List.ne_nil_of_mem (List.mem_filter.2 ⟨ha, by simp [hr]⟩)
  let s1 : State := { s with memory := { s.memory with nextFan := s.memory.nextFan + 1 } }
  have he := State.entry_setEntry_of_line (s := s1) (d := { d with hostShares := false, fan := some (s.hostFan d) }) hl
  have hst : s.startFan line none false true [] = (s1.setEntry { d with hostShares := false, fan := some (s.hostFan d) }).settleFan line := by
    have hb (a : Nat) : (none != some a) = true := rfl
    simp [State.startFan, State.entryOf_some hd, hf, State.hostFan, s1, hb]
  rw [hst, State.settleFan_waits he rfl (.inl hw)]
  exact ⟨he, rfl⟩

/-- A host write of one line. -/
theorem State.homePut_one {s : State} {pa : Nat} {bs : List Byte} {d : DirEntry} (hp : lineParts pa bs.length = [(pa / 128, pa % 128, bs.length)])
    (hd : s.entry (pa / 128) = some d) :
    s.homePut pa bs true = ((s.touchL2 (pa / 128) true).homeStore pa bs).startFan (pa / 128) none false true [] := by
  have hpa : pa / 128 * 128 + pa % 128 = pa := by omega
  simp [State.homePut, hp, hpa, State.homeWrite, hd]

/-- A host write of one line that agents share is answered after its fan-out, which runs. -/
theorem State.hostMemWrite_shared {s : State} {addr pa : Nat} {bs : List Byte} {d : DirEntry}
    (hp : lineParts pa bs.length = [(pa / 128, pa % 128, bs.length)]) (hd : s.entry (pa / 128) = some d) (hf : d.fan = none)
    (hs : ∃ a ∈ d.sharers.agents, (s.stack (a / 11)).removed = false) :
    (s.hostMemWrite addr pa bs).memory.hostWrites = s.memory.hostWrites ++ [(addr, [s.memory.nextFan])] ∧
    (s.hostMemWrite addr pa bs).fansRun [s.memory.nextFan] = true := by
  obtain ⟨he, hh⟩ := State.startFan_byHost (s := (s.touchL2 (pa / 128) true).homeStore pa bs) hd hf hs
  rw [← State.homePut_one hp hd] at he hh
  have hfan : (s.homePut pa bs true).fanOf (pa / 128) = [s.memory.nextFan] := by simp [State.fanOf, he]; rfl
  simp only [State.hostMemWrite, hp, List.flatMap_cons, List.flatMap_nil, List.append_nil, hfan]
  refine ⟨by rw [← show _ = s.memory.hostWrites from hh]; rfl, List.any_eq_true.2 ⟨_, List.mem_of_find?_eq_some he, ?_⟩⟩
  simp only [State.hostFan, List.contains_cons, Bool.or_eq_true, beq_iff_eq]
  exact .inl rfl

/-- A host read leaves the homes as they are and sends their bytes. -/
theorem State.hostMemRead_spec (s : State) (addr pa n : Nat) :
    (s.hostMemRead addr pa n).outward = s.outward ++ [.hostData addr (s.homeRead pa n) (s.poisoned pa n)] ∧
    (s.hostMemRead addr pa n).memory.mem = s.memory.mem := by
  have hk := foldl_keeps (fun u : State => (u.memory.mem, u.memory.poison, u.memory.remaps, u.outward))
    (fun (s : State) (l : Nat × Nat × Nat) => (s.touchL2 l.1 false).setEntry { (s.touchL2 l.1 false).entryOf l.1 with hostShares := true })
    (fun _ _ => rfl) (lineParts pa n) s
  simp only [Prod.mk.injEq] at hk
  obtain ⟨hm, hp, hr, ho⟩ := hk
  simp only [State.hostMemRead]
  generalize List.foldl _ s _ = u at hm hp hr ho ⊢
  have hf : u.frame = s.frame := by funext a; simp only [State.frame, hr]
  exact ⟨by simp [State.homeRead, State.poisoned, ho, hm, hp, hf], hm⟩

/-- A held request that fails leaves the others held, and is answered. -/
theorem State.hostMemFail_heldReqs (s : State) (r : HeldReq) : (s.hostMemFail r).memory.heldReqs = s.memory.heldReqs := by
  simp [State.hostMemFail]
theorem State.hostMemFail_outward (s : State) (r : HeldReq) :
    (if r.write then Outward.hostDone r.addr false else Outward.hostData r.addr (List.replicate r.len 0) true) ∈ (s.hostMemFail r).outward :=
  (State.outward_logUe { s with outward := s.outward ++ [_] } _ _ _ _ _).subset (by simp)

theorem exec_hostCxlMemWrite_held {s : State} {port addr pa : Nat} {bytes : List Byte} (ha : s.inHdm port addr bytes.length = some pa)
    (hh : s.hostMemHeld pa = true) : exec (.hostCxlMemWrite ⟨port, addr⟩ bytes) s = .next
      { s with memory := { s.memory with heldReqs := s.memory.heldReqs ++ [⟨true, addr, bytes, bytes.length, port⟩] } } := by
  simp [exec, execHostCxlMemWrite, ha, hh]

theorem exec_hostCxlMemWrite_free {s : State} {port addr pa : Nat} {bytes : List Byte} (ha : s.inHdm port addr bytes.length = some pa)
    (hh : s.hostMemHeld pa = false) : exec (.hostCxlMemWrite ⟨port, addr⟩ bytes) s = .next (s.hostMemWrite addr pa bytes) := by
  simp [exec, execHostCxlMemWrite, ha, hh]

theorem exec_hostCxlMemRead_held {s : State} {port addr len pa : Nat} (ha : s.inHdm port addr len = some pa) (hh : s.hostMemHeld pa = true) :
    exec (.hostCxlMemRead ⟨port, addr⟩ len) s = .next
      { s with memory := { s.memory with heldReqs := s.memory.heldReqs ++ [⟨false, addr, [], len, port⟩] } } := by
  simp [exec, execHostCxlMemRead, ha, hh]

/-! ### Decoders -/

/-- A valid window of the limiter holds the device range (15 R335). -/
def inHdmWindow (dpa dev : Nat) (w : Word × Word) : Bool :=
  w.1.getLsbD 0 && decide (fld w.1 16 36 * 65536 ≤ dpa) && decide (dpa + dev ≤ (fld w.2 16 36 + 1) * 65536)

/-- A commit whose device range no window holds, or of size 0, fails. -/
theorem exec_hdmDecoderCommit (s : State) (port dec hpa size dpa : Nat) (two : Bool) :
    exec (.hdmDecoderCommit port dec ⟨hpa, dpa, two⟩ size) s = .next
      (if size ≠ 0 ∧ s.regs.lim.hdm.toList.any (inHdmWindow dpa (if two then size / 2 else size)) then
        { s with board := { s.board with hdm := s.board.hdm.filter (fun d => !(d.port == port && d.dec == dec)) ++
          [⟨port, dec, hpa, size, dpa, two⟩] } }
      else { s with outward := s.outward ++ [.hdmError port dec] }) := by
  have h : exec (.hdmDecoderCommit port dec ⟨hpa, dpa, two⟩ size) s = enabledOr "HDM_DECODER_COMMIT" (if size ≠ 0 ∧ _ then _ else _) := rfl
  rw [h, ← apply_ite some, enabledOr_some]
  rfl

/-! ### The statement -/

/-- Settles O57: each request by what it leaves at its home, in the queue of held requests and on its way to the host. -/
theorem hostEvents : Obligations.HostEvents := by
  intro s
  refine ⟨fun line d f hd hf hh hw => ?_, fun line inval store hp => ⟨fun l hl hi => ?_, fun hl => ?_⟩,
    fun port addr bytes pa ha => ⟨fun hh => ?_, fun hh hw hm he => ?_, fun d hh hp hd hf hs => ?_⟩,
    fun port addr len pa ha => ⟨fun hh => ?_, fun hh hr => ?_⟩, fun idx r hr => ?_,
    fun port dec hpa size dpa two => ⟨fun hs hw => ?_, fun hs => ?_⟩, fun e addr n h1 h2 => ⟨fun ht => ?_, fun ht hp => ?_⟩⟩
  · have hl := State.entry_line hd
    have he := State.entry_setEntry_of_line (s := s) (d := { d with fan := some { f with host := false } }) (by exact hl)
    refine ⟨_, _, _, ?_, he, rfl, rfl, rfl⟩
    simp [exec, execHostSnoopResponse, hd, hf, hh, State.settleFan_waits he rfl (.inl hw)]
  · subst hi
    obtain ⟨hhost, hout⟩ := State.snoop_inval hl store
    refine ⟨s.snoop line true store, by simp [exec, execHostSnoop, hp], ?_, by simp [hout]⟩
    rw [hhost]
    simp
  · exact ⟨s.snoop line inval store, by simp [exec, execHostSnoop, hp], State.snoop_miss hl _ _⟩
  · exact ⟨_, exec_hostCxlMemWrite_held ha hh, rfl, rfl⟩
  · obtain ⟨hout, hsame, hother⟩ := State.hostMemWrite_unshared hw hm he addr
    exact ⟨_, exec_hostCxlMemWrite_free ha hh, hout, hsame, hother⟩
  · exact ⟨_, exec_hostCxlMemWrite_free ha hh, State.hostMemWrite_shared hp hd hf hs⟩
  · exact ⟨_, exec_hostCxlMemRead_held ha hh, rfl, rfl⟩
  · exact ⟨s.hostMemRead addr pa len, by simp [exec, execHostCxlMemRead, ha, hh, hr], s.hostMemRead_spec addr pa len⟩
  · let u : State := { s with memory := { s.memory with heldReqs := s.memory.heldReqs.eraseIdx idx } }
    refine ⟨u.hostMemFail r, by simp [exec, execCxlMemHeldTimeout, hr, u], u.hostMemFail_heldReqs r, fun hw => ?_, fun hw => ?_⟩
    · simpa [hw] using u.hostMemFail_outward r
    · simpa [hw] using u.hostMemFail_outward r
  · obtain ⟨w, hw, hv, hb, ht⟩ := hw
    have hin : s.regs.lim.hdm.toList.any (inHdmWindow dpa (if two then size / 2 else size)) = true :=
      List.any_eq_true.2 ⟨w, hw, by simp only [inHdmWindow, hv, hb, ht, decide_true, Bool.and_self]⟩
    exact ⟨_, (exec_hdmDecoderCommit s port dec hpa size dpa two).trans (by rw [if_pos ⟨hs, hin⟩]), by simp⟩
  · have hout : ¬(size ≠ 0 ∧ s.regs.lim.hdm.toList.any (inHdmWindow dpa (if two then size / 2 else size)) = true) := by
      rintro ⟨h0, hin⟩
      obtain ⟨w, hw, hin⟩ := List.any_eq_true.1 hin
      simp only [inHdmWindow, Bool.and_eq_true, decide_eq_true_eq] at hin
      obtain ⟨⟨hv, hb⟩, ht⟩ := hin
      rcases hs.resolve_left h0 w hw with h | h | h
      · exact absurd (hv.symm.trans h) (by decide)
      · omega
      · exact absurd ht (Nat.not_le.2 h)
    rw [exec_hdmDecoderCommit, if_neg hout]
    exact ⟨_, rfl, rfl, rfl⟩
  · simp [HdmDec.map, ht]; omega
  · simp [HdmDec.map, ht]; omega

end Sys2Proof.Machine
end

section
/-! ## Kills where two cores have one number
What a kill ends departs; Hearth then dispatches onto a free core, and a core of the same number takes the task too. -/
namespace Sys2Proof.Machine
open Sys2Proof

/-- A task of ASID 1. -/
def sharedNumberTask : Task :=
  { serial := 0, node := 0, asid := 1, idx := 0, n := 1, iter := 0, firing := 0, dgrp := 0, pr := false, cbase := 0, clen := 0,
    image := 0, ident := 0, started := true, entered := true, redone := false, team := [] }

/-- A launch of ASID 2 whose only task is ready. -/
def sharedNumberLaunch : Launch :=
  { serial := 1, q := 0, seq := 0, asid := 2, pri := 0, g := 1, cmax := 1, image := 0, arg := 0, dgrp := 0, dsize := 0, drank := 0, donePtr := 0,
    nodes := [{ kind := .task 0 false 0 1 1 0, dep := 0, left := 0, succ0 := none, succ1 := none, iters := 0, firings := 1, ready := some 0,
                home := none, redispatches := 0, noRedo := false, running := 0, cluster := none }],
    ntask := 0, fnode := none, status := 0, capHit := false, stopping := false, lastDispatch := 0, lastCluster := none, reported := false, todo := [] }

/-- Hearth dispatches in OPERATIONAL; core 0 is bound and runs the task, and another core of number 0 is free. -/
def sharedNumber : State :=
  let r := State.reset
  { r with
    core := { r.core with task := some sharedNumberTask }
    others := [r.core]
    regs := { r.regs with m := { r.regs.m with hcfg := 0x8000000000000000, mstate := 4 } }
    stackv := vset r.stackv 0 { StackS.zero with cbind := vset StackS.zero.cbind 0 0x40000000, wsgate := 2 }
    hearth := { r.hearth with launches := [sharedNumberLaunch] } }

/-- After the kill of ASID 1 the core in focus has been dispatched onto: it has not departed. -/
theorem sharedNumber_killAsid_departed : (sharedNumber.killAsid 1).core.front.departed = false := by decide

/-- Refutes O60: nothing in the statement keeps two cores from having one number, as no run gives them, and then KILL does not leave the
killed task's core departed (`sharedNumber_killAsid_departed`). -/
theorem not_driverEvents : ¬ Obligations.DriverEvents := by
  intro h
  obtain ⟨-, -, -, -, hkill, -⟩ := h sharedNumber
  obtain ⟨t, ht, -, -, hcore⟩ := (hkill 1).2 rfl (by decide)
  obtain ⟨hdep, -⟩ := hcore sharedNumberTask rfl rfl
  have hx : exec (.kill 1) sharedNumber = .next (sharedNumber.killAsid 1) := rfl
  rw [hx, Host.Outcome.next.injEq] at ht
  rw [← ht, sharedNumber_killAsid_departed] at hdep
  exact Bool.false_ne_true hdep

end Sys2Proof.Machine
end

section
/-! ## A command that ends or goes on
`finish` and `setCmd` field by field; both leave registers and memory alone. -/
namespace Sys2Proof.Machine
open Sys2Proof

@[simp] theorem State.finish_memory (s : State) (k code) : (s.finish k code).memory = s.memory := by
  unfold State.finish; split <;> rfl
@[simp] theorem State.finish_channels (s : State) (k code) : (s.finish k code).channels = s.channels := by
  unfold State.finish; split <;> rfl
@[simp] theorem State.finish_core_regs (s : State) (k code) : (s.finish k code).core.regs = s.core.regs := by
  unfold State.finish; split <;> rfl
@[simp] theorem State.finish_core_cnum (s : State) (k code) : (s.finish k code).core.cnum = s.core.cnum := by
  unfold State.finish; split <;> rfl
@[simp] theorem State.finish_core_tiles (s : State) (k code) : (s.finish k code).core.units.tiles = s.core.units.tiles := by
  unfold State.finish; split <;> rfl
@[simp] theorem State.finish_core_lamport (s : State) (k code) : (s.finish k code).core.units.lamport = s.core.units.lamport := by
  unfold State.finish; split <;> rfl
@[simp] theorem State.finish_core_x (s : State) (k code r) : (s.finish k code).core.x r = s.core.x r := by
  simp [Core.x]

theorem Core.token_setToken (c : Core) (k : KTok) (t : Token) : (c.setToken k t).token k = t := vget_vset_same _ _ _ _ k.isLt

/-- A command ends in a state in which the core's commands and tokens are as they were. -/
theorem State.finish_ended {s t : State} (hc : t.core.units.cmds = s.core.units.cmds) (ht : t.core.units.tokens = s.core.units.tokens)
    (k : Cmd) (code : BitVec 3) : Ended s (t.finish k code) k code := by
  have htok : t.core.token k.tok = s.core.token k.tok := by simp only [Core.token, ht]
  have he := Core.token_setToken t.core k.tok ((s.core.token k.tok).record k.spec k.seq code).drop
  refine ⟨?_, ?_⟩
  · rw [← hc]; unfold State.finish; split <;> rfl
  · rw [← htok] at he ⊢
    unfold State.finish; split <;> exact he

@[simp] theorem State.setCmd_memory (s : State) (k) : (s.setCmd k).memory = s.memory := rfl
@[simp] theorem State.setCmd_core_regs (s : State) (k) : (s.setCmd k).core.regs = s.core.regs := rfl
@[simp] theorem State.setCmd_core_cnum (s : State) (k) : (s.setCmd k).core.cnum = s.core.cnum := rfl

/-- A list whose elements keep their key is searched by it as before. -/
theorem find?_map_of_key {α : Type} {p : α → Bool} {f : α → α} (hf : ∀ x, p (f x) = p x) (l : List α) :
    (l.map f).find? p = (l.find? p).map f := by
  rw [List.find?_map]
  congr 2
  funext x
  exact hf x

/-- The command put in place of itself. -/
theorem State.cmd_setCmd {s : State} {k k' : Cmd} (h : s.cmd k.seq = some k) (hk : k'.seq = k.seq) : (s.setCmd k').cmd k.seq = some k' := by
  have hm := find?_map_of_key (p := fun j : Cmd => j.seq == k.seq) (f := fun j => if j.seq = k'.seq then k' else j)
    (fun j => by split <;> simp_all) s.core.units.cmds
  exact hm.trans (by rw [show s.core.units.cmds.find? _ = some k from h]; simp [hk])

/-- A command that is free to go on is neither parked nor refused nor in a window. -/
theorem State.mayPerform_free {s : State} {k : Cmd} (h : s.mayPerform k = true) : k.parked = none ∧ k.retry = none ∧ k.window = false := by
  simp only [State.mayPerform, Bool.and_eq_true, Option.isNone_iff_eq_none, Bool.not_eq_true'] at h
  exact ⟨h.1.1.1, h.1.1.2, h.1.2⟩

@[simp] theorem State.fansRun_nil (s : State) : s.fansRun [] = false := by
  unfold State.fansRun
  rw [List.any_eq_false]
  intro d _
  split <;> simp

/-- What is written completes the command where nothing is awaited of it. -/
theorem State.written_done {s : State} {k : Cmd} {code : BitVec 3} (h : code ≠ 0 ∨ s.releaseFree k = true) :
    s.written k [] [] code = s.finish k code := by
  have hd : (code != 0 || s.releaseFree k) = true := by simpa using h
  simp only [State.written, List.isEmpty_nil, State.fansRun_nil, Bool.not_false, Bool.and_true, hd, if_true]

theorem State.releaseFree_of_not_copy {s : State} {k : Cmd} (h : isCopy k.ins = false) : s.releaseFree k = true := by
  simp [State.releaseFree, h]

end Sys2Proof.Machine
end

section
/-! ## Pieces of memory that a cached translation maps
The plan of an access to such a page, and its bytes where the agent holds their line (05 R113, R114). -/
namespace Sys2Proof.Machine
open Sys2Proof

variable {s : State} {asid : BitVec 12} {kind : AccKind} {va n pa : Nat}

/-- An address that a cached translation takes to this module's memory is looked up without a walk. -/
theorem State.look_of_mapped (h : s.mapped asid kind va n pa) : s.look asid va kind = (.at_ (.home pa), s) := by
  obtain ⟨-, hva, -, hb, hp, hseal, t, hf, -, hloc, rfl⟩ := h
  have ha : leafAdmits t.leaf kind = true := by
    have := List.find?_some hf
    rw [Bool.and_eq_true] at this
    exact this.2
  have hw : (kind == .write && s.sealedFrame (s.frame (fld t.leaf 16 36 * 65536 + va % 2 ^ t.log))) = false := by
    cases kind with
    | write => simpa using hseal rfl
    | read => rfl
    | fetch => rfl
  simp only [State.look, if_neg (Nat.not_le.2 hva), State.translate, hf, ha, hloc, hb, hp, hw]
  rfl

/-- Its bytes are one piece. -/
theorem State.segments_of_mapped (h : s.mapped asid kind va n pa) : s.segments asid kind va n = (.ok [⟨va, n, .home pa⟩], s) := by
  have hl := State.look_of_mapped h
  obtain ⟨hn, -, hpage, -⟩ := h
  have hmin : min n (65536 - va % 65536) = n := by omega
  unfold State.segments State.resolve
  simp only [if_neg (Nat.ne_of_gt hn), hl, hmin, Nat.sub_self]
  unfold State.resolve
  rfl

theorem State.plan_of_mapped (h : s.mapped s.asid kind va n pa) : s.plan kind [(va, n)] = (.ok [⟨va, n, .home pa⟩], s) := by
  simp [State.plan, State.segments_of_mapped h, Except.map]

variable {ag : Nat} {c : CLine}

theorem State.cline_agent (h : s.cline ag n = some c) : c.agent = ag ∧ c.line = n := by
  simpa using List.find?_some h

/-- A piece in a line is that line's part. -/
theorem Seg.lines_of_held (hn : 0 < n) (h : s.held ag pa n c) : (⟨va, n, .home pa⟩ : Seg).lines = [(pa / 128, pa % 128, n)] :=
  lineParts_line hn h.2.1

/-- A piece in a line that the agent holds, for a write checked out, is not refused. -/
theorem State.segBusy_held (hn : 0 < n) (h : s.held ag pa n c) {write : Bool} (ho : c.out = true ∨ write = false) (older : Nat → Bool) :
    s.segBusy ag write older [⟨va, n, .home pa⟩] = none := by
  have hw : (c.out || !write) = true := by rcases ho with ho | ho <;> simp [ho]
  obtain ⟨hc, -, -⟩ := id h
  simp [State.segBusy, Seg.lines_of_held hn h, hc, hw]

/-- A read of a held piece gives the agent's bytes. -/
theorem State.segRead_held (hn : 0 < n) (h : s.held ag pa n c) (got : List Host.Cell) :
    s.segRead ag got ⟨va, n, .home pa⟩ = (some ((c.bytes.drop (pa % 128)).take n), s) := by
  obtain ⟨hc, hl, hp⟩ := h
  have hh : s.haveLine ag (pa / 128) = s := by simp [State.haveLine, hc]
  simp [State.segRead, hp, lineParts_line hn hl, hh, hc]

/-- The line with bytes written by a core. -/
def CLine.store (c : CLine) (off : Nat) (bs : List Byte) (by_ : Nat × Nat) : CLine :=
  { c with bytes := patch c.bytes off bs, wrote := if c.wrote.contains by_ then c.wrote else c.wrote ++ [by_] }

/-- A write of a held piece changes the agent's line. -/
theorem State.segWrite_held (hn : 0 < n) (h : s.held ag pa n c) (ho : c.out = true) (cnum : Nat) (bs : List Byte) :
    s.segWrite ag cnum asid ⟨va, n, .home pa⟩ bs = s.setLine (c.store (pa % 128) (bs.take n) (cnum, va / 128)) := by
  obtain ⟨hc, hl, -⟩ := h
  have hown : s.ownLine ag (pa / 128) = s := by simp [State.ownLine, hc, ho]
  have hpa : pa / 128 * 128 + pa % 128 - pa = 0 := by omega
  simp [State.segWrite, lineParts_line hn hl, hown, hc, hpa, CLine.store]

/-- The line written is found. -/
theorem State.cline_store (h : s.cline ag n = some c) (off : Nat) (bs : List Byte) (by_ : Nat × Nat) :
    (s.setLine (c.store off bs by_)).cline ag n = some (c.store off bs by_) := by
  obtain ⟨rfl, rfl⟩ := State.cline_agent h
  exact State.cline_setLine_same s (c.store off bs by_)

/-- A read of a held range. -/
theorem State.readRanges_held {k : Cmd} (hm : s.mapped s.asid .read va n pa) (h : s.held s.core.cid pa n c) :
    s.readRanges k [(va, n)] = .inr ((c.bytes.drop (pa % 128)).take n, s) := by
  have hn := hm.1
  simp [State.readRanges, State.plan_of_mapped hm, State.segBusy_held hn h (.inr rfl), hasGot, State.segRead_held hn h]

/-- A write of a held range that nothing else has to wait for. -/
theorem State.writeRanges_held {k : Cmd} (hm : s.mapped s.asid .write va n pa) (h : s.held s.core.cid pa n c) (ho : c.out = true)
    (hr : k.relScope < 2) (hk : isCopy k.ins = false) (bs : List Byte) :
    s.writeRanges k [(va, n)] bs = (s.setLine (c.store (pa % 128) (bs.take n) (s.core.cnum, va / 128))).finish k 0 := by
  have hn := hm.1
  simp only [State.writeRanges, State.plan_of_mapped hm, State.segBusy_held hn h (.inl ho), State.writeSegs, List.foldl_cons, List.foldl_nil,
    State.segWrite_held hn h ho, List.take_take, Nat.min_self, State.writeRemote, List.append_nil, State.releaseOwn, if_neg (Nat.not_le.2 hr)]
  exact State.written_done (.inr (State.releaseFree_of_not_copy hk))

end Sys2Proof.Machine
end

section
/-! ## Operations at a line at rest
What AMO, CAS and sc accesses leave at the home of a line that no agent has and no directory entry names (11 R275, R276; 05 R127). -/
namespace Sys2Proof.Machine
open Sys2Proof

/-! ### Numbers as bytes -/

theorem leNat_lt (bs : List Byte) : leNat bs < 2 ^ (8 * bs.length) := by
  induction bs with
  | nil => simp [leNat]
  | cons b bs ih =>
    have hb := b.isLt
    have hp : 2 ^ (8 * (bs.length + 1)) = 256 * 2 ^ (8 * bs.length) := by rw [Nat.mul_add, Nat.pow_add, Nat.mul_comm]
    simp only [leNat, List.length_cons, hp]
    omega

/-- A number that fits in its bytes is read back. -/
theorem leNat_leBytes_of_lt {n v : Nat} (h : v < 2 ^ (8 * n)) : leNat (leBytes n v) = v := by
  induction n generalizing v with
  | zero => simp [leBytes, leNat]; omega
  | succ n ih =>
    have hp : 2 ^ (8 * (n + 1)) = 2 ^ (8 * n) * 256 := by rw [Nat.mul_add, Nat.pow_add]
    have hv : v / 256 < 2 ^ (8 * n) := Nat.div_lt_of_lt_mul (by rw [hp] at h; omega)
    simp only [leBytes, leNat, ih hv, BitVec.toNat_ofNat]
    omega

theorem State.homeNum_lt (s : State) (pa n : Nat) : s.homeNum pa n < 2 ^ (8 * n) := by
  have := leNat_lt (s.homeRead pa n)
  rwa [show (s.homeRead pa n).length = n by simp [State.homeRead]] at this

/-- What an operation at a home stores fits in its bytes. -/
theorem homeOp_lt {kind op n old y cmp v : Nat} (hold : old < 2 ^ (8 * n)) (hy : y < 2 ^ (8 * n)) (h : homeOp kind op n old y cmp = some v) :
    v < 2 ^ (8 * n) := by
  have hamo : amoNew op n old y < 2 ^ (8 * n) := by
    unfold amoNew; dsimp only
    split
    · exact Nat.mod_lt _ (Nat.two_pow_pos _)
    · exact Nat.and_lt_two_pow _ hy
    · exact Nat.or_lt_two_pow hold hy
    · exact Nat.xor_lt_two_pow hold hy
    · split <;> assumption
    · split <;> assumption
    · omega
    · omega
    · exact hy
  unfold homeOp at h
  split at h
  · cases h
  · cases h; exact hy
  · cases h; exact hamo
  · split at h
    · cases h; exact hy
    · cases h

/-! ### The operation -/

/-- An argument of the command as its operation takes it. -/
def Cmd.opArg (k : Cmd) (i : Nat) : Nat := (k.ops.getD i 0).toNat % 2 ^ (8 * (homeKind k.ins).2.2)

/-- The value that the operation of the command stores, if any, where the home holds `old`. -/
def Cmd.stores (k : Cmd) (old : Nat) : Option Nat :=
  homeOp (homeKind k.ins).1 (homeKind k.ins).2.1 (homeKind k.ins).2.2 old (k.opArg 1) (k.opArg 2)

/-- The home of a line without a directory entry after the operation. -/
def State.operated (s : State) (k : Cmd) (pa : Nat) : State :=
  match k.stores (s.homeNum pa (homeKind k.ins).2.2) with
  | some v => (s.touchL2 (pa / 128) true).homeStore pa (leBytes (homeKind k.ins).2.2 v)
  | none => s.touchL2 (pa / 128) false

@[simp] theorem State.operated_core (s : State) (k pa) : (s.operated k pa).core = s.core := by
  unfold State.operated; split <;> rfl
@[simp] theorem State.operated_dir (s : State) (k pa) : (s.operated k pa).memory.dir = s.memory.dir := by
  unfold State.operated; split <;> rfl
@[simp] theorem State.operated_remaps (s : State) (k pa) : (s.operated k pa).memory.remaps = s.memory.remaps := by
  unfold State.operated; split <;> rfl
@[simp] theorem State.operated_stackv (s : State) (k pa) : (s.operated k pa).stackv = s.stackv := by
  unfold State.operated; split <;> rfl

/-- Within a line the operation writes its bytes, and nothing else. -/
theorem State.operated_mem {s : State} {k : Cmd} {pa : Nat} (hl : pa % 128 + (homeKind k.ins).2.2 ≤ 128) :
    (s.operated k pa).memory.mem = match k.stores (s.homeNum pa (homeKind k.ins).2.2) with
      | some v => s.memory.mem.setN (s.frame pa) (leBytes (homeKind k.ins).2.2 v)
      | none => s.memory.mem := by
  unfold State.operated
  split
  · exact State.homeStore_mem (s.touchL2 (pa / 128) true) (by rw [leBytes_length]; omega)
  · rfl

theorem State.operated_other {s : State} {k : Cmd} {pa a : Nat} (hw : s.memoryWf) (hl : pa % 128 + (homeKind k.ins).2.2 ≤ 128)
    (ha : a < s.frame pa ∨ s.frame pa + (homeKind k.ins).2.2 ≤ a) : (s.operated k pa).memory.mem.get a = s.memory.mem.get a := by
  rw [State.operated_mem hl]
  split
  · exact Memory.get_setN_other hw (by rwa [leBytes_length])
  · rfl

/-- The number at a home, by the bytes of memory and the remaps. -/
theorem State.homeNum_congr {s t : State} (hm : t.memory.mem = s.memory.mem) (hr : t.memory.remaps = s.memory.remaps) (pa n : Nat) :
    t.homeNum pa n = s.homeNum pa n := by
  have hf : t.frame = s.frame := by funext a; simp only [State.frame, hr]
  simp only [State.homeNum, State.homeRead, hm, hf]

/-- A number stored at a home within a line is read back. -/
theorem State.homeNum_of_setN {s t : State} {pa n v : Nat} (hw : s.memoryWf) (hm : t.memory.mem = s.memory.mem.setN (s.frame pa) (leBytes n v))
    (hr : t.memory.remaps = s.memory.remaps) (hl : pa % 128 + n ≤ 128) (hv : v < 2 ^ (8 * n)) : t.homeNum pa n = v := by
  have hf : t.frame = s.frame := by funext a; simp only [State.frame, hr]
  have hb : t.homeRead pa n = leBytes n v := by
    refine List.ext_getElem (by simp [State.homeRead, leBytes_length]) fun i h1 h2 => ?_
    have hi : i < n := by simpa [State.homeRead] using h1
    have := Memory.get_setN_same (k := s.frame pa) (i := i) hw (bs := leBytes n v) (by rwa [leBytes_length])
    simp only [State.homeRead, List.getElem_map, List.getElem_range, hf, hm, s.frame_add (show pa % 65536 + i < 65536 by omega), this]
  rw [State.homeNum, hb, leNat_leBytes_of_lt hv]

theorem State.operated_homeNum {s : State} {k : Cmd} {pa : Nat} (hw : s.memoryWf) (hl : pa % 128 + (homeKind k.ins).2.2 ≤ 128) :
    (s.operated k pa).homeNum pa (homeKind k.ins).2.2 =
      (k.stores (s.homeNum pa (homeKind k.ins).2.2)).getD (s.homeNum pa (homeKind k.ins).2.2) := by
  have hm := State.operated_mem (s := s) hl
  cases hv : k.stores (s.homeNum pa (homeKind k.ins).2.2) with
  | none =>
    rw [hv] at hm
    exact State.homeNum_congr hm (s.operated_remaps k pa) _ _
  | some v =>
    rw [hv] at hm
    exact State.homeNum_of_setN hw hm (s.operated_remaps k pa) hl
      (homeOp_lt (s.homeNum_lt _ _) (Nat.mod_lt _ (Nat.two_pow_pos _)) hv)

/-! ### Its stamp and its value -/

/-- After the operation, the stamp where it is an sc one: the slice's floor takes it. -/
def State.sequenced (s : State) (k : Cmd) (pa : Nat) : State :=
  if orderOf k.ins == .sc then
    let p := (s.operated k pa).stampHome pa s.core.units.lamport.toNat (s.coreId s.core)
    p.2.setClock true p.1
  else s.operated k pa

/-- The stamp of a line without an entry is its slice's floor. -/
theorem State.stampHome_fresh {s : State} {pa : Nat} (h : s.entry (pa / 128) = none) (clk core : Nat) :
    (s.stampHome pa clk core).1 = max clk (s.stack (homeStack (pa / 128 * 128))).floor.1 + 1 ∧
    (s.stampHome pa clk core).2.memory = s.memory ∧ (s.stampHome pa clk core).2.core = s.core := by
  simp [State.stampHome, h, State.entryOf, State.freshEntry]

/-- The core's clock after the operation. -/
def State.clockAfter (s : State) (k : Cmd) (pa : Nat) : Word :=
  if orderOf k.ins = .sc then BitVec.ofNat 64 (max s.core.units.lamport.toNat (s.stack (homeStack (pa / 128 * 128))).floor.1 + 1)
  else s.core.units.lamport

/-- What the stamp changes: the core's clock. -/
theorem State.sequenced_spec {s : State} {k : Cmd} {pa : Nat} (he : s.entry (pa / 128) = none) :
    (s.sequenced k pa).memory = (s.operated k pa).memory ∧
    (s.sequenced k pa).core = { s.core with units := { s.core.units with lamport := s.clockAfter k pa } } := by
  have heo : (s.operated k pa).entry (pa / 128) = none := by rw [State.entry, s.operated_dir]; exact he
  obtain ⟨ht, hm, hc⟩ := State.stampHome_fresh heo s.core.units.lamport.toNat (s.coreId s.core)
  have hst : (s.operated k pa).stack = s.stack := by funext i; simp only [State.stack, State.operated_stackv]
  by_cases hsc : orderOf k.ins = .sc
  · simp only [State.sequenced, State.clockAfter, hsc, beq_self_eq_true, if_true, State.setClock, hm, hc, ht, hst, State.operated_core]
    exact ⟨trivial, trivial⟩
  · simp only [State.sequenced, State.clockAfter, beq_eq_false_iff_ne.2 hsc, hsc, if_false, Bool.false_eq_true, State.operated_core]
    exact ⟨trivial, trivial⟩

@[simp] theorem State.loadInto_memory (s : State) (i n v) : (s.loadInto i n v).memory = s.memory := by
  unfold State.loadInto; split <;> rfl
@[simp] theorem State.loadInto_units (s : State) (i n v) : (s.loadInto i n v).core.units = s.core.units := by
  unfold State.loadInto; split <;> simp
@[simp] theorem State.loadInto_cnum (s : State) (i n v) : (s.loadInto i n v).core.cnum = s.core.cnum := by
  unfold State.loadInto; split <;> simp

/-- The operation at a line at rest completes the command. -/
theorem State.homeAccess_rest {s : State} {k : Cmd} {pa : Nat} (hr : s.atRest s.core.cid pa (homeKind k.ins).2.2)
    (hb : s.behind k (pa / 128) = false) (hk : isCopy k.ins = false) :
    s.homeAccess k pa = ((s.sequenced k pa).loadInto k.ins (homeKind k.ins).2.2 (s.homeNum pa (homeKind k.ins).2.2)).finish
      { k with performed := true } 0 := by
  obtain ⟨hc, he, hf, hp⟩ := hr
  have hfan : s.fanBusy (pa / 128) = false := by simp [State.fanBusy, he]
  unfold State.homeAccess
  extract_lets op n line sc s0 old y cmp s1 st s2
  have hgo : (s.fanBusy line || s.frameBusy pa || s.behind k line) = false := by simp only [line, hfan, hf, hb, Bool.or_self]
  rw [hgo, if_neg Bool.false_ne_true]
  split
  next l hl => exact absurd (hl.symm.trans hc) (Option.some_ne_none l)
  next =>
    rw [show s.poisoned pa n = false from hp, if_neg Bool.false_ne_true]
    have h1 : s1 = s.operated k pa := by
      have hw (v : Nat) := State.homeWrite_unshared he (leBytes n v) false [(s.core.cnum, k.addr / 128)]
      simp only [s1, hw]
      rfl
    have hq : st.2.setClock sc st.1 = s.sequenced k pa := by
      unfold st State.sequenced
      rw [h1]
      cases hsc : sc <;> simp [show (orderOf k.ins == .sc) = _ from hsc, State.setClock]
    have h2 : s2 = (s.sequenced k pa).loadInto k.ins n old := congrArg (·.loadInto k.ins n old) hq
    have hd : s2.fanOf line = [] := by
      have : s2.entry line = none := by
        rw [h2, State.entry, State.loadInto_memory, (State.sequenced_spec he).1, State.operated_dir]; exact he
      simp [State.fanOf, this]
    rw [hd, ite_self, h2]
    exact State.written_done (.inr (State.releaseFree_of_not_copy hk))

end Sys2Proof.Machine
end

section
/-! ## Sequenced operations, retries, windows, watches and LSEND
Each event of a command of the core in focus by the state that its own step leaves. -/
namespace Sys2Proof.Machine
open Sys2Proof

/-! ### Events of a command of the core in focus -/

theorem exec_memoryAccessComplete_focus {s t : State} {k : Cmd} (hc : s.cmd k.seq = some k) (hi : isMemAccess k.ins = true)
    (h : s.accessComplete k = some t) (hn : t.core.cnum = s.core.cnum) :
    exec (.memoryAccessComplete s.core.cnum k.seq) s = .next t :=
  congrArg (enabledOr _) (State.atCore?_self s t _ (by simp only [hc, hi, if_true, h]) hn)

theorem exec_scPerform_focus {s t : State} {k : Cmd} (hc : s.cmd k.seq = some k) (ho : orderOf k.ins = .sc) (hst : k.stage = 1)
    (hp : k.performed = false) (ha : k.asks = []) (hf : s.fansRun k.fans = false) (hm : s.mayPerform k = true)
    (h : (if isFence k.ins then (({ s with core := { s.core with units := { s.core.units with lamport := s.core.units.lamport + 1 } } } : State).setCmd
      { k with stage := 2, performed := true }) else s.atHome k) = t) (hn : t.core.cnum = s.core.cnum) :
    exec (.scPerform s.core.cnum k.seq) s = .next t := by
  refine congrArg (enabledOr _) (State.atCore?_self s t _ ?_ hn)
  simp only [hc, ho, hst, hp, ha, hf, hm, ← h]
  cases isFence k.ins <;> rfl

theorem exec_retryBackoffExpire_focus {s : State} {k : Cmd} {line : Nat} (hc : s.cmd k.seq = some k) (hr : k.retry = some line)
    (ho : ∀ d ∈ s.cores, ∀ j ∈ d.units.cmds, j.retry = some line → olderReq (k.born, s.core.cnum, k.seq) (j.born, d.cnum, j.seq) = true) :
    exec (.retryBackoffExpire s.core.cnum k.seq) s = .next (s.setCmd { k with retry := none }) := by
  refine congrArg (enabledOr _) (State.atCore?_self s (s.setCmd { k with retry := none }) _ ?_ rfl)
  have hall : (s.cores.all (fun d => d.units.cmds.all (fun j => j.retry != k.retry ||
      olderReq (k.born, s.core.cnum, k.seq) (j.born, d.cnum, j.seq)))) = true := by
    refine List.all_eq_true.2 fun d hd => List.all_eq_true.2 fun j hj => ?_
    by_cases hjr : j.retry = some line
    · simp [ho d hd j hj hjr]
    · simp [hr, hjr]
  simp only [hc]
  rw [hall, hr]
  rfl

theorem exec_waitaddrPoll_focus {s t : State} {k : Cmd} (hc : s.cmd k.seq = some k) (hi : isWatch k.ins = true) (ha : k.asks = [])
    (hm : s.mayPerform k = true) (h : s.watchRead k false = t) (hn : t.core.cnum = s.core.cnum) :
    exec (.waitaddrPoll s.core.cnum k.seq) s = .next t :=
  congrArg (enabledOr _) (State.atCore?_self s t _ (by simp only [hc, hi, ha, hm, ← h]; rfl) hn)

theorem exec_waitaddrTimeout_focus {s t : State} {k : Cmd} {l : Nat} (hc : s.cmd k.seq = some k) (hi : isWatch k.ins = true)
    (hl : k.limit = some l) (ht : l ≤ s.regs.m.tbase.toNat) (hp : k.performed = true)
    (h : (s.loadInto k.ins (homeKind k.ins).2.2 k.last.toNat).finish k 0 = t) (hn : t.core.cnum = s.core.cnum) :
    exec (.waitaddrTimeout s.core.cnum k.seq) s = .next t := by
  refine congrArg (enabledOr _) (State.atCore?_self s t _ ?_ hn)
  simp only [hc, hi, hl, hp, ← h, Option.any_some, ht, decide_true]
  rfl

/-- An LSEND whose turn it is goes by its channel's entry. -/
theorem exec_lsendDelivered_turn {s t : State} {k : Cmd} {h : Head} {o : CB} (hc : s.cmd k.seq = some k) (hi : k.ins = .lsend h o)
    (ha : k.acks = []) (hf : s.fansRun k.fans = false) (hs : k.stage = 0) (hm : s.mayPerform k = true)
    (hr : ¬(isRelease k.ins = true ∧ 2 ≤ cmdScope k.ins))
    (hfirst : ∀ j ∈ s.core.units.cmds, j.seq < k.seq → ∀ h' q, j.ins = .lsend h' q → q.shape ≠ o.shape)
    (ht : (s.sendEntry o.shape = none ∧ t = s.finish k 7) ∨ ∃ e, s.sendEntry o.shape = some e ∧ s.deliver k e = some t)
    (hn : t.core.cnum = s.core.cnum) : exec (.lsendDelivered s.core.cnum k.seq) s = .next t := by
  refine congrArg (enabledOr _) (State.atCore?_self s t _ ?_ hn)
  simp only [hc, hi]
  rw [if_neg (by simp [ha, hf]), if_neg (by simp [hs]), if_neg ?wait, if_neg (by rintro ⟨-, hrel⟩; exact hr (by rwa [hi]))]
  case wait =>
    rw [hm, Bool.not_true, Bool.false_or, Bool.not_eq_true, List.any_eq_false]
    intro j hj
    rw [Bool.and_eq_true, decide_eq_true_eq]
    rintro ⟨hlt, hq⟩
    split at hq
    next h' q hji => exact hfirst j hj hlt h' q hji (by simpa using hq)
    next => cases hq
  rcases ht with ⟨he, rfl⟩ | ⟨e, he, hd⟩
  · rw [he]
  · rw [he]; exact hd

/-- An LSEND that was sent to another module ends when it has been acknowledged. -/
theorem exec_lsendDelivered_acknowledged {s : State} {k : Cmd} {h : Head} {o : CB} (hc : s.cmd k.seq = some k) (hi : k.ins = .lsend h o)
    (ha : k.acks = []) (hf : s.fansRun k.fans = false) (hs : k.stage = 2) :
    exec (.lsendDelivered s.core.cnum k.seq) s = .next (s.finish k k.err) := by
  refine congrArg (enabledOr _) (State.atCore?_self s (s.finish k k.err) _ ?_ (s.finish_core_cnum _ _))
  simp only [hc, hi]
  rw [if_neg (by simp [ha, hf]), if_pos hs]

/-! ### What they leave -/

/-- An operation at the home of a mapped line at rest. -/
theorem State.atHome_rest {s : State} {k : Cmd} {pa : Nat} (hal : k.addr % (homeKind k.ins).2.2 = 0)
    (hm : s.mapped s.asid (if (homeKind k.ins).1 = 0 then .read else .write) k.addr (homeKind k.ins).2.2 pa)
    (hr : s.atRest s.core.cid pa (homeKind k.ins).2.2) (hb : s.behind k (pa / 128) = false) (hk : isCopy k.ins = false) :
    s.atHome k = ((s.sequenced k pa).loadInto k.ins (homeKind k.ins).2.2 (s.homeNum pa (homeKind k.ins).2.2)).finish
      { k with performed := true } 0 := by
  simp only [State.atHome, hal, State.plan_of_mapped hm, ne_eq, not_true_eq_false, if_false]
  exact State.homeAccess_rest hr hb hk

/-- What the operation at a mapped line at rest leaves: the command has ended, the home has what it stored, the rest of memory stands, the
clock has its stamp. -/
theorem State.atHome_rest_spec {s : State} {k : Cmd} {pa : Nat} (hw : s.memoryWf) (hal : k.addr % (homeKind k.ins).2.2 = 0)
    (hm : s.mapped s.asid (if (homeKind k.ins).1 = 0 then .read else .write) k.addr (homeKind k.ins).2.2 pa)
    (hr : s.atRest s.core.cid pa (homeKind k.ins).2.2) (hb : s.behind k (pa / 128) = false) (hk : isCopy k.ins = false)
    (hl : pa % 128 + (homeKind k.ins).2.2 ≤ 128) :
    Ended s (s.atHome k) k 0 ∧ (s.atHome k).core.cnum = s.core.cnum ∧ (s.atHome k).core.units.lamport = s.clockAfter k pa ∧
    (s.atHome k).homeNum pa (homeKind k.ins).2.2 =
      (k.stores (s.homeNum pa (homeKind k.ins).2.2)).getD (s.homeNum pa (homeKind k.ins).2.2) ∧
    (∀ a, a < s.frame pa ∨ s.frame pa + (homeKind k.ins).2.2 ≤ a → (s.atHome k).memory.mem.get a = s.memory.mem.get a) := by
  obtain ⟨hmem, hcore⟩ := State.sequenced_spec (s := s) (k := k) hr.2.1
  rw [State.atHome_rest hal hm hr hb hk]
  have he := State.finish_ended (s := s) (t := (s.sequenced k pa).loadInto k.ins (homeKind k.ins).2.2 (s.homeNum pa (homeKind k.ins).2.2))
    (by rw [State.loadInto_units, hcore]) (by rw [State.loadInto_units, hcore]) { k with performed := true } 0
  refine ⟨he, ?_, ?_, ?_, fun a ha => ?_⟩
  · rw [State.finish_core_cnum, State.loadInto_cnum, hcore]
  · rw [State.finish_core_lamport, State.loadInto_units, hcore]
  · refine (State.homeNum_congr ?_ ?_ _ _).trans (State.operated_homeNum hw hl)
    · rw [State.finish_memory, State.loadInto_memory, hmem]
    · rw [State.finish_memory, State.loadInto_memory, hmem]
  · rw [State.finish_memory, State.loadInto_memory, hmem]
    exact State.operated_other hw hl ha

/-- The register that an instruction loads at its home. -/
theorem State.loadInto_x {s : State} {i : Instr} {h : Head} {o : CA} (n v : Nat) (hi : i = .amo h o ∨ i = .cas h o ∨ i = .waitaddr h o)
    (hd : o.d ≠ 0) : (s.loadInto i n v).core.x o.d = BitVec.ofNat 64 v := by
  rcases hi with rfl | rfl | rfl <;> exact Core.x_setX_same _ _ _ hd

theorem State.loadInto_ldg_x {s : State} {h : Head} {o : CA} (n v : Nat) (hd : o.d ≠ 0) :
    (s.loadInto (.ldg h o) n v).core.x o.d = if o.x.getLsbD 0 then BitVec.ofInt 64 (toS (8 * n) v) else BitVec.ofNat 64 v :=
  Core.x_setX_same _ _ _ hd

/-- An operation at the home of a line at rest returns the value that the home had. -/
theorem State.atHome_rest_x {s : State} {k : Cmd} {pa : Nat} {h : Head} {o : CA} (hal : k.addr % (homeKind k.ins).2.2 = 0)
    (hm : s.mapped s.asid (if (homeKind k.ins).1 = 0 then .read else .write) k.addr (homeKind k.ins).2.2 pa)
    (hr : s.atRest s.core.cid pa (homeKind k.ins).2.2) (hb : s.behind k (pa / 128) = false) (hi : k.ins = .amo h o ∨ k.ins = .cas h o)
    (hd : o.d ≠ 0) : (s.atHome k).core.x o.d = BitVec.ofNat 64 (s.homeNum pa (homeKind k.ins).2.2) := by
  have hk : isCopy k.ins = false := by rcases hi with hi | hi <;> rw [hi] <;> rfl
  rw [State.atHome_rest hal hm hr hb hk, State.finish_core_x]
  exact State.loadInto_x _ _ (by tauto) hd

theorem State.atHome_rest_ldg_x {s : State} {k : Cmd} {pa : Nat} {h : Head} {o : CA} (hal : k.addr % (homeKind k.ins).2.2 = 0)
    (hm : s.mapped s.asid (if (homeKind k.ins).1 = 0 then .read else .write) k.addr (homeKind k.ins).2.2 pa)
    (hr : s.atRest s.core.cid pa (homeKind k.ins).2.2) (hb : s.behind k (pa / 128) = false) (hi : k.ins = .ldg h o) (hd : o.d ≠ 0) :
    (s.atHome k).core.x o.d = if o.x.getLsbD 0 then BitVec.ofInt 64 (toS (8 * (homeKind k.ins).2.2) (s.homeNum pa (homeKind k.ins).2.2))
      else BitVec.ofNat 64 (s.homeNum pa (homeKind k.ins).2.2) := by
  rw [State.atHome_rest hal hm hr hb (by rw [hi]; rfl), State.finish_core_x, hi]
  exact State.loadInto_ldg_x _ _ hd

/-- One read of a watch through a held line. -/
theorem State.watchRead_held {s : State} {k : Cmd} {h : Head} {o : CA} {pa : Nat} {c : CLine} (hi : k.ins = .waitaddr h o) (he : k.err = 0)
    (hal : k.addr % 2 ^ o.size.toNat = 0) (hm : s.mapped s.asid .read k.addr (2 ^ o.size.toNat) pa)
    (hh : s.held s.core.cid pa (2 ^ o.size.toNat) c) :
    s.watchRead k false = if leNat ((c.bytes.drop (pa % 128)).take (2 ^ o.size.toNat)) ≠ (k.ops.getD 2 0).toNat % 2 ^ (8 * 2 ^ o.size.toNat)
      then (s.loadInto k.ins (2 ^ o.size.toNat) (leNat ((c.bytes.drop (pa % 128)).take (2 ^ o.size.toNat)))).finish k 0
      else s.setCmd { k with last := BitVec.ofNat 64 (leNat ((c.bytes.drop (pa % 128)).take (2 ^ o.size.toNat))), performed := true, got := [],
                             asked := none } := by
  have hk : homeKind k.ins = (0, 0, 2 ^ o.size.toNat) := by rw [hi]; rfl
  simp only [State.watchRead, hk, he, hal, State.readRanges_held hm hh, ne_eq, not_true_eq_false, if_false, Bool.false_eq_true, false_or]

/-- Copies that wait for a group of the weight store go on, in every core of the stack. -/
def State.windowEnded (s : State) (stk grp : Nat) : State :=
  s.mapCores (fun c => { c with units := { c.units with cmds := c.units.cmds.map (fun k =>
    if k.window && c.stk == stk && (copyGroups k c.g).contains grp then { k with window := false } else k) } })

/-- A window that ends lets the copies that waited for it go on. -/
theorem exec_wsRefreshWindowEnd_waits {s : State} {k : Cmd} {grp : Nat} (hc : s.cmd k.seq = some k) (hw : k.window = true)
    (hg : (copyGroups k s.core.g).contains grp = true) (hr : s.refreshing s.core.stk grp = false) :
    exec (.wsRefreshWindowEnd s.core.stk grp) s = .next (s.windowEnded s.core.stk grp) ∧
    (s.windowEnded s.core.stk grp).cmd k.seq = some { k with window := false } := by
  have hgo : (k.window && s.core.stk == s.core.stk && (copyGroups k s.core.g).contains grp) = true := by rw [hw, hg]; simp
  have hwait : (s.cores.any (fun c => c.units.cmds.any (fun k => k.window && c.stk == s.core.stk && (copyGroups k c.g).contains grp))) = true :=
    List.any_eq_true.2 ⟨s.core, by simp [State.cores], List.any_eq_true.2 ⟨k, List.mem_of_find?_eq_some hc, hgo⟩⟩
  refine ⟨by simp only [exec, execWsRefreshWindowEnd, hr, hwait]; rfl, ?_⟩
  have hm := find?_map_of_key (p := fun j : Cmd => j.seq == k.seq)
    (f := fun k => if k.window && s.core.stk == s.core.stk && (copyGroups k s.core.g).contains grp then { k with window := false } else k)
    (fun j => by split <;> rfl) s.core.units.cmds
  exact hm.trans (by rw [show s.core.units.cmds.find? _ = some k from hc, Option.map_some, if_pos hgo])

/-- An LSEND in its own module puts its message, or the marker of its failure, into the queue and ends. -/
theorem State.deliver_local {s : State} {k : Cmd} {e : ChEntry} (hd : e.dstm = s.mid) (hroom : (s.channel e.idx).queue.length < 64) :
    s.deliver k e = some ((s.enqueue e.idx (s.sendBody k)).finish k (s.sendBody k).code) := by
  simp only [State.deliver, hd, if_true, if_neg (Nat.not_le.2 hroom)]

/-- Without a path to its module an LSEND ends with 7, and its channel is down. -/
theorem State.deliver_lost {s : State} {k : Cmd} {e : ChEntry} (hd : e.dstm ≠ s.mid)
    (hl : s.nmod < e.dstm ∨ s.route e.dstm = none ∨ (s.channel e.idx).down = true) : s.deliver k e = some ((s.pathLost e).finish k 7) := by
  have hl' : s.nmod < e.dstm ∨ (s.route e.dstm).isNone = true ∨ (s.channel e.idx).down = true := by
    rwa [Option.isNone_iff_eq_none]
  simp only [State.deliver, hd, if_false, if_pos hl']

/-- The queue of a channel that has taken a message. -/
theorem State.enqueue_queue (s : State) (i : Nat) (m : QMsg) : ((s.enqueue i m).channel i).queue = (s.channel i).queue ++ [m] := by
  have h := s.channel_setChannel { s.channel i with queue := (s.channel i).queue ++ [m] }
  rw [show ({ s.channel i with queue := (s.channel i).queue ++ [m] } : Channel).entry = i from s.channel_entry i] at h
  exact congrArg Channel.queue h

theorem State.pathLost_down (s : State) (e : ChEntry) : ((s.pathLost e).channel e.idx).down = true := by
  have h := s.channel_setChannel { s.channel e.idx with down := true }
  rw [show ({ s.channel e.idx with down := true } : Channel).entry = e.idx from s.channel_entry e.idx] at h
  exact congrArg Channel.down h

theorem State.finish_channel (s : State) (k code i) : (s.finish k code).channel i = s.channel i := by
  simp only [State.channel, State.finish_channels]

/-- What LSEND_DELIVERED leaves where the message goes into a queue of this module. -/
theorem State.sent_local {s t : State} {k : Cmd} {e : ChEntry} {m : QMsg} (hm : s.sendBody k = m)
    (ht : t = (s.enqueue e.idx (s.sendBody k)).finish k (s.sendBody k).code) :
    Ended s t k m.code ∧ (t.core.regs = s.core.regs ∧ t.memory = s.memory) ∧ (t.channel e.idx).queue = (s.channel e.idx).queue ++ [m] := by
  subst ht hm
  refine ⟨State.finish_ended (t := s.enqueue e.idx (s.sendBody k)) rfl rfl k _, ⟨?_, ?_⟩, ?_⟩
  · rw [State.finish_core_regs]; rfl
  · rw [State.finish_memory]; rfl
  · rw [State.finish_channel, State.enqueue_queue]

/-- A copy's order is never sc: its two flags name acquire and release. -/
theorem isCopy_of_sc {i : Instr} (h : orderOf i = .sc) : isCopy i = false := by
  unfold isCopy
  split
  · unfold orderOf at h; dsimp only at h; split at h <;> cases h
  · unfold orderOf at h; dsimp only at h; split at h <;> cases h
  · rfl

/-! ### The statement -/

/-- Settles O52: the event of each command, and what its step leaves. -/
theorem sequencerAndWatchEvents : Obligations.SequencerAndWatchEvents := by
  intro s k hc ha hk hf n cid still
  refine ⟨fun ho hst hp hm => ⟨fun hfe => ?_, ?_⟩, fun line hr hold => ?_, fun grp hw hg hr => ?_, ?_, fun h o l hi hlim hl hp => ?_,
    fun h o hi hst => ?_, fun h o hi hst hm hrel hfirst => ⟨fun he => ?_, fun e he hd hlost => ?_, fun e he hd hroom => ?_⟩⟩
  · let u : State := { s with core := { s.core with units := { s.core.units with lamport := s.core.units.lamport + 1 } } }
    exact ⟨u.setCmd { k with stage := 2, performed := true }, exec_scPerform_focus hc ho hst hp ha hf hm (by rw [if_pos hfe]) rfl, rfl,
      State.cmd_setCmd (s := u) hc rfl, rfl, rfl⟩
  · intro pa hfe hw op size hal hmap hrest hb hl
    obtain ⟨hend, hnum, hlam, hhome, -⟩ := State.atHome_rest_spec hw hal hmap hrest hb (isCopy_of_sc ho) hl
    refine ⟨s.atHome k, exec_scPerform_focus hc ho hst hp ha hf hm (by rw [hfe]; rfl) hnum, hend, ?_, hhome,
      fun h o hi hd => State.atHome_rest_x hal hmap hrest hb hi hd, fun h o hi hd => State.atHome_rest_ldg_x hal hmap hrest hb hi hd⟩
    rw [hlam, State.clockAfter, if_pos ho]
  · exact ⟨_, exec_retryBackoffExpire_focus hc hr hold, State.cmd_setCmd hc rfl, rfl, rfl⟩
  · obtain ⟨hx, hcmd⟩ := exec_wsRefreshWindowEnd_waits hc hw hg hr
    exact ⟨_, hx, hcmd, rfl, rfl⟩
  · intro h o pa c hi he hm size hal hmap hheld
    have hr := State.watchRead_held hi he hal hmap hheld
    refine ⟨fun hv => ?_, fun hv => ?_⟩
    · rw [if_pos hv] at hr
      refine ⟨_, exec_waitaddrPoll_focus hc (by rw [hi]; rfl) ha hm hr (by simp), State.finish_ended (by simp) (by simp) k 0, by simp, fun hd => ?_⟩
      rw [State.finish_core_x]
      exact State.loadInto_x _ _ (.inr (.inr hi)) hd
    · rw [if_neg (not_not.2 hv)] at hr
      exact ⟨_, exec_waitaddrPoll_focus hc (by rw [hi]; rfl) ha hm hr rfl, ⟨rfl, rfl⟩, State.cmd_setCmd hc rfl⟩
  · refine ⟨_, exec_waitaddrTimeout_focus hc (by rw [hi]; rfl) hlim hl hp rfl (by simp), State.finish_ended (by simp) (by simp) k 0, by simp, fun hd => ?_⟩
    rw [State.finish_core_x, State.loadInto_x _ _ (.inr (.inr hi)) hd, BitVec.ofNat_toNat, BitVec.setWidth_eq]
  · exact ⟨_, exec_lsendDelivered_acknowledged hc hi hk hf hst, State.finish_ended rfl rfl k _, State.finish_core_regs _ _ _, State.finish_memory _ _ _⟩
  · exact ⟨_, exec_lsendDelivered_turn hc hi hk hf hst hm hrel hfirst (.inl ⟨he, rfl⟩) (State.finish_core_cnum _ _ _),
      State.finish_ended rfl rfl k 7, State.finish_core_regs _ _ _, State.finish_memory _ _ _⟩
  · refine ⟨_, exec_lsendDelivered_turn hc hi hk hf hst hm hrel hfirst (.inr ⟨e, he, State.deliver_lost hd hlost⟩) (State.finish_core_cnum _ _ _),
      State.finish_ended (t := s.pathLost e) rfl rfl k 7, ?_, State.finish_core_regs _ _ _, State.finish_memory _ _ _⟩
    rw [State.finish_channel, State.pathLost_down]
  · have hx := exec_lsendDelivered_turn hc hi hk hf hst hm hrel hfirst (.inr ⟨e, he, State.deliver_local hd hroom⟩) (State.finish_core_cnum _ _ _)
    refine ⟨fun h1 => ⟨_, hx, State.sent_local (m := .failed 1) ?_ rfl⟩, fun h1 h2 => ⟨_, hx, State.sent_local (m := .failed 2) ?_ rfl⟩,
      fun h1 h2 => ⟨_, hx, State.sent_local (m := .msg (s.bankRead 0 k.addr 256)) ?_ rfl⟩⟩
    · rw [State.sendBody, if_pos h1]
    · rw [State.sendBody, if_neg (not_not.2 h1), h2]; rfl
    · rw [State.sendBody, if_neg (not_not.2 h1), h2]; rfl

end Sys2Proof.Machine
end

section
/-! ## Memory accesses
Each access by what `performAccess` leaves, and the paths of `accessComplete` that reach it (05 R114, R122; 11 R273 to R277). -/
namespace Sys2Proof.Machine
open Sys2Proof

variable {s : State} {k : Cmd}

/-! ### The steps of a completion -/

/-- A command that awaits nothing takes the next of its steps. -/
theorem State.accessComplete_awaits (ha : k.asks = []) (hk : k.acks = []) (hf : s.fansRun k.fans = false) :
    s.accessComplete k =
      if k.stage = 2 then some (s.takeRemote k)
      else if k.stage = 4 then s.casRead k
      else if k.err ≠ 0 then some (s.finish k k.err)
      else if k.stage = 3 then none
      else if k.stage = 0 ∧ !s.mayPerform k then none
      else if k.parked.isSome || k.retry.isSome then none
      else if k.stage = 0 ∧ isRelCas k.ins then s.relCas k
      else if k.stage = 0 ∧ (isRelease k.ins ∧ 2 ≤ cmdScope k.ins) then s.startRelease k (isFence k.ins)
      else if orderOf k.ins = .sc then (if k.stage = 0 then some (s.setCmd { k with stage := 1 }) else none)
      else some (s.performAccess k) := by
  have hgo : (!k.asks.isEmpty || !k.acks.isEmpty || s.fansRun k.fans) = false := by simp [ha, hk, hf]
  rw [State.accessComplete, hgo, if_neg Bool.false_ne_true]

/-- An access that is relaxed or acquires, whose turn it is, is performed. -/
theorem State.accessComplete_relaxed (ha : k.asks = []) (hk : k.acks = []) (hf : s.fansRun k.fans = false) (hs : k.stage = 0)
    (he : k.err = 0) (hm : s.mayPerform k = true) (ho : orderOf k.ins = .rlx ∨ orderOf k.ins = .acq) :
    s.accessComplete k = some (s.performAccess k) := by
  obtain ⟨hp, hr, -⟩ := State.mayPerform_free hm
  have hrel : isRelease k.ins = false := by rcases ho with ho | ho <;> simp [isRelease, ho, Order.releases]
  have hcas : isRelCas k.ins = false := by
    unfold isRelCas
    split
    · rw [hrel]; rfl
    · rfl
  have hsc : orderOf k.ins ≠ .sc := by rcases ho with ho | ho <;> rw [ho] <;> decide
  simp [State.accessComplete_awaits ha hk hf, hs, he, hm, hp, hr, hrel, hcas, hsc]

/-- A release of scope .st or wider without covered lines goes on past its release part. -/
theorem State.accessComplete_release (ha : k.asks = []) (hk : k.acks = []) (hf : s.fansRun k.fans = false) (hs : k.stage = 0)
    (he : k.err = 0) (hm : s.mayPerform k = true) (hrel : isRelease k.ins = true) (hcas : isRelCas k.ins = false) (hsc : 2 ≤ cmdScope k.ins)
    (hl : s.coveredLines s.core.cid s.core.cnum (fun _ => true) = []) (hfan : s.coveredFans s.core.cnum (fun _ => true) = []) :
    s.accessComplete k = some (s.setCmd { k with stage := 1, fans := [], got := [] }) := by
  obtain ⟨hp, hr, -⟩ := State.mayPerform_free hm
  have hline (p : Nat → Bool) : s.coveredLines s.core.cid s.core.cnum p = [] := by
    simp only [State.coveredLines, List.map_eq_nil_iff, List.filter_eq_nil_iff, Bool.and_eq_true, List.any_eq_true] at hl ⊢
    rintro l hm ⟨h1, w, hw, h2, -⟩
    exact hl l hm ⟨h1, w, hw, h2, trivial⟩
  have hfans (p : Nat → Bool) : s.coveredFans s.core.cnum p = [] := by
    simp only [State.coveredFans, List.filterMap_eq_nil_iff] at hfan ⊢
    intro d hd
    have := hfan d hd
    split at this
    · rw [ite_eq_right_iff] at this ⊢
      intro hany
      obtain ⟨w, hw, hwp⟩ := List.any_eq_true.1 hany
      rw [Bool.and_eq_true] at hwp
      exact this (List.any_eq_true.2 ⟨w, hw, by rw [hwp.1]; rfl⟩)
    · rfl
  have hstart : s.startRelease k (isFence k.ins) = some (s.setCmd { k with stage := 1, fans := [], got := [] }) := by
    simp only [State.startRelease, hline, List.any_nil, Bool.false_eq_true, if_false, State.releaseLines, List.foldl_nil, hfans, List.append_nil]
  simp [State.accessComplete_awaits ha hk hf, hs, he, hm, hp, hr, hrel, hcas, hsc, hstart]

/-! ### The access -/

theorem State.performAccess_fence (h : isFence k.ins = true) : s.performAccess k = s.finish k 0 := by
  unfold isFence at h
  split at h
  next hi => simp only [State.performAccess, hi]
  next => cases h

theorem State.performAccess_ldg {h : Head} {o : CA} {pa : Nat} {c : CLine} (hi : k.ins = .ldg h o) (hal : k.addr % 2 ^ o.size.toNat = 0)
    (hm : s.mapped s.asid .read k.addr (2 ^ o.size.toNat) pa) (hh : s.held s.core.cid pa (2 ^ o.size.toNat) c) :
    s.performAccess k = (s.loadInto k.ins (2 ^ o.size.toNat) (leNat ((c.bytes.drop (pa % 128)).take (2 ^ o.size.toNat)))).finish k 0 := by
  simp only [State.performAccess, hi, hal, ne_eq, not_true_eq_false, if_false]
  rw [State.readRanges_held hm hh]

theorem State.performAccess_stg {h : Head} {o : CA} {pa : Nat} {c : CLine} (hi : k.ins = .stg h o) (hal : k.addr % 2 ^ o.size.toNat = 0)
    (hm : s.mapped s.asid .write k.addr (2 ^ o.size.toNat) pa) (hh : s.held s.core.cid pa (2 ^ o.size.toNat) c) (ho : c.out = true)
    (hr : k.relScope < 2) :
    s.performAccess k = (s.setLine (c.store (pa % 128) (leBytes (2 ^ o.size.toNat) (k.ops.getD 1 0).toNat) (s.core.cnum, k.addr / 128))).finish k 0 := by
  simp only [State.performAccess, hi, hal, ne_eq, not_true_eq_false, if_false]
  rw [State.writeRanges_held hm hh ho hr (by rw [hi]; rfl), List.take_of_length_le (by rw [leBytes_length])]

/-- The vector register of a VLDG with the bytes that it read. -/
def State.vloaded (s : State) (k : Cmd) (bs : List Byte) : State :=
  { s with core := s.core.setVec (k.ops.getD 1 0).toNat ((k.data.map (fun e => e.1)).zip bs) }

theorem State.performAccess_vldg {h : Head} {o : CV} {va m pa : Nat} {c : CLine} (hi : k.ins = .vldg h o) (hal : k.addr % esize o.ty = 0)
    (hx : k.extent = [(va, m)]) (hm : s.mapped s.asid .read va m pa) (hh : s.held s.core.cid pa m c) :
    s.performAccess k = (s.vloaded k ((c.bytes.drop (pa % 128)).take m)).finish k 0 := by
  simp only [State.performAccess, hi, hal, ne_eq, not_true_eq_false, if_false]
  rw [hx, State.readRanges_held hm hh]
  rfl

theorem State.performAccess_vstg {h : Head} {o : CV} {va m pa : Nat} {c : CLine} (hi : k.ins = .vstg h o) (hal : k.addr % esize o.ty = 0)
    (hx : k.extent = [(va, m)]) (hm : s.mapped s.asid .write va m pa) (hh : s.held s.core.cid pa m c) (ho : c.out = true)
    (hr : k.relScope < 2) :
    s.performAccess k = (s.setLine (c.store (pa % 128) ((k.data.map (fun e => e.2)).take m) (s.core.cnum, va / 128))).finish k 0 := by
  simp only [State.performAccess, hi, hal, ne_eq, not_true_eq_false, if_false]
  rw [hx, State.writeRanges_held hm hh ho hr (by rw [hi]; rfl)]

theorem State.performAccess_atHome {h : Head} {o : CA} (hi : k.ins = .amo h o ∨ k.ins = .cas h o) : s.performAccess k = s.atHome k := by
  rcases hi with hi | hi <;> simp only [State.performAccess, hi]

/-- An access that is not aligned to its size ends with error 1. -/
theorem State.performAccess_misaligned (hi : isMemAccess k.ins = true) (hfe : isFence k.ins = false)
    (hal : k.addr % (match k.ins with
      | .vldg _ o | .vstg _ o => esize o.ty
      | i => (homeKind i).2.2) ≠ 0) : s.performAccess k = s.finish k 1 := by
  unfold isMemAccess at hi
  split at hi
  next h => rw [h] at hal; simp only [State.performAccess, h]; exact if_pos hal
  next h => rw [h] at hal; simp only [State.performAccess, h]; exact if_pos hal
  next h => rw [h] at hal; simp only [State.performAccess, h]; exact if_pos hal
  next h => rw [h] at hal; simp only [State.performAccess, h]; exact if_pos hal
  next h => rw [h] at hal; simp only [State.performAccess, h, State.atHome]; exact if_pos hal
  next h => rw [h] at hal; simp only [State.performAccess, h, State.atHome]; exact if_pos hal
  next h => rw [h] at hfe; cases hfe
  next => cases hi

/-- What a store to a held line leaves. -/
theorem State.finish_store_spec {c : CLine} {pa n : Nat} (hh : s.held s.core.cid pa n c) (ho : c.out = true) (bs : List Byte) (by_ : Nat × Nat)
    (code : BitVec 3) :
    let t := (s.setLine (c.store (pa % 128) bs by_)).finish k code
    Ended s t k code ∧ t.core.regs = s.core.regs ∧ t.memory.mem = s.memory.mem ∧
      t.cline s.core.cid (pa / 128) = some (c.store (pa % 128) bs by_) ∧ (c.store (pa % 128) bs by_).out = true ∧
      (c.store (pa % 128) bs by_).bytes = patch c.bytes (pa % 128) bs := by
  refine ⟨State.finish_ended rfl rfl k code, ?_, ?_, ?_, ho, rfl⟩
  · rw [State.finish_core_regs]; rfl
  · rw [State.finish_memory]; rfl
  · rw [State.cline, State.finish_memory]; exact State.cline_store hh.1 _ _ _

end Sys2Proof.Machine
end

section
/-! ## Copies
COPY_COMPLETE by its steps, and what a copy between scratchpad, weight store and memory that a cached translation maps leaves
(11 R268 to R270). -/
namespace Sys2Proof.Machine
open Sys2Proof

variable {s : State} {k : Cmd}

/-! ### The steps of a completion -/

theorem exec_copyComplete_focus {t : State} {ue : Bool} (hc : s.cmd k.seq = some k) (hi : isCopy k.ins = true)
    (ha : k.asks = []) (hk : k.acks = []) (hf : s.fansRun k.fans = false)
    (h : (if k.err != 0 then some (s.finish k k.err)
      else if k.stage = 2 then (if s.releaseFree k then some (s.finish k 0) else none)
      else if !s.mayPerform k then none
      else s.copyPush k ue) = some t) (hn : t.core.cnum = s.core.cnum) :
    exec (.copyComplete s.core.cnum ⟨k.seq, ue⟩) s = .next t := by
  refine congrArg (enabledOr _) (State.atCore?_self s t _ ?_ hn)
  simp only [hc]
  rw [if_neg (by simp [hi, ha, hk, hf]), h]

/-- A copy that failed, or whose release its core's earlier accesses no longer hold up, ends. -/
theorem exec_copyComplete_over {ue : Bool} (hc : s.cmd k.seq = some k) (hi : isCopy k.ins = true)
    (ha : k.asks = []) (hk : k.acks = []) (hf : s.fansRun k.fans = false) (h : k.err ≠ 0 ∨ (k.stage = 2 ∧ s.releaseFree k = true)) :
    exec (.copyComplete s.core.cnum ⟨k.seq, ue⟩) s = .next (s.finish k k.err) := by
  refine exec_copyComplete_focus hc hi ha hk hf ?_ (s.finish_core_cnum _ _)
  by_cases he : k.err = 0
  · obtain ⟨hst, hr⟩ := h.resolve_left (fun h => h he)
    simp [he, hst, hr]
  · rw [if_pos (bne_iff_ne.2 he)]

/-- A copy once its acquire part is over. -/
def Cmd.moving (k : Cmd) : Cmd := { k with stage := 1 }

/-- A copy whose turn it is and whose acquire part awaits nothing moves its bytes. -/
theorem exec_copyComplete_moves {t : State} {ue : Bool} (hc : s.cmd k.seq = some k) (hi : isCopy k.ins = true)
    (ha : k.asks = []) (hk : k.acks = []) (hf : s.fansRun k.fans = false) (hst : k.stage = 0) (he : k.err = 0)
    (hm : s.mayPerform k = true) (hq : (Order.acquires (orderOf k.ins) && decide (2 ≤ cmdScope k.ins)) = false)
    (h : s.performCopy k.moving ue = t) (hn : t.core.cnum = s.core.cnum) :
    exec (.copyComplete s.core.cnum ⟨k.seq, ue⟩) s = .next t := by
  refine exec_copyComplete_focus hc hi ha hk hf ?_ hn
  have hfirst : (decide (k.stage = 0) && Order.acquires (orderOf k.ins) && decide (2 ≤ cmdScope k.ins)) = false := by
    rw [Bool.and_assoc, hq, Bool.and_false]
  have hpush : s.copyPush k ue = some (s.performCopy k.moving ue) := by
    simp only [State.copyPush, hfirst, Bool.false_eq_true, if_false, List.isEmpty_nil, Bool.and_self, if_true]
    rfl
  rw [he, hst, hm, hpush, h]
  rfl

/-! ### The plan -/

theorem State.rowSide_bank {a n : Nat} (h : s.okBanks a n = true) (write : Bool) : s.rowSide 0 write a n = (.ok [], s) := by
  simp [State.rowSide, h]

theorem State.rowSide_store {a n : Nat} (h : a + n ≤ 0xC0000000) : s.rowSide 2 false a n = (.ok [], s) := by
  simp [State.rowSide, Nat.not_lt.2 h]

theorem State.rowSide_mapped {write : Bool} {a n pa : Nat} (h : s.mapped s.asid (if write then .write else .read) a n pa) :
    s.rowSide 1 write a n = (.ok [⟨a, n, .home pa⟩], s) := by
  simp [State.rowSide, State.plan_of_mapped h]

/-- The plan of rows that have no piece in memory. -/
def bankPlans (rows : List CopyRow) : List RowPlan := rows.map (fun r => ⟨r, [], []⟩)

theorem State.planRows_banks {ssp dsp n : Nat} {rows : List CopyRow}
    (h : ∀ r ∈ rows, s.rowSide ssp false r.sa n = (.ok [], s) ∧ s.rowSide dsp true r.da n = (.ok [], s)) :
    State.planRows ssp dsp n rows s = (bankPlans rows, none, s) := by
  induction rows with
  | nil => rfl
  | cons r rows ih =>
    obtain ⟨hs, hd⟩ := h r List.mem_cons_self
    simp only [State.planRows, hs, hd, ih (fun q hq => h q (List.mem_cons_of_mem _ hq))]
    rfl

theorem State.planRows_one {ssp dsp n : Nat} {r : CopyRow} {src dst : List Seg} (hs : s.rowSide ssp false r.sa n = (.ok src, s))
    (hd : s.rowSide dsp true r.da n = (.ok dst, s)) : State.planRows ssp dsp n [r] s = ([⟨r, src, dst⟩], none, s) := by
  simp only [State.planRows, hs, hd]

@[simp] theorem State.segBusy_nil (ag : Nat) (write : Bool) (older : Nat → Bool) : s.segBusy ag write older [] = none := rfl

@[simp] theorem State.releaseOwn_nil (k : Cmd) : s.releaseOwn k [] = ([], s) := by
  unfold State.releaseOwn
  split <;> rfl

/-! ### The rows -/

/-- The bytes of a row's source in scratchpad or weight store. -/
def State.rowBytes (s : State) (ssp n : Nat) (r : CopyRow) : List Byte :=
  if ssp = 0 then s.bankRead r.g r.sa n else (s.stack s.core.stk).ws.getN r.sa n

/-- One row moved from there to the scratchpad. -/
def State.moveRow (ssp n : Nat) (s : State) (r : CopyRow) : State := s.putBank (s.bankCells true r.g r.da (s.rowBytes ssp n r))

/-- All of them. -/
def State.movedRows (s : State) (ssp n : Nat) (rows : List CopyRow) : State := rows.foldl (State.moveRow ssp n) s

@[simp] theorem State.movedRows_memory (ssp n : Nat) (rows) : (s.movedRows ssp n rows).memory = s.memory :=
  foldl_keeps State.memory (State.moveRow ssp n) (fun _ _ => rfl) rows s
@[simp] theorem State.movedRows_units (ssp n : Nat) (rows) : (s.movedRows ssp n rows).core.units = s.core.units :=
  foldl_keeps (fun u => u.core.units) (State.moveRow ssp n) (fun _ _ => rfl) rows s
@[simp] theorem State.movedRows_cnum (ssp n : Nat) (rows) : (s.movedRows ssp n rows).core.cnum = s.core.cnum :=
  foldl_keeps (fun u => u.core.cnum) (State.moveRow ssp n) (fun _ _ => rfl) rows s

/-- Rows from the weight store, which no move to the scratchpad changes. -/
theorem State.movedRows_store (n : Nat) (rows : List CopyRow) :
    s.movedRows 2 n rows = rows.foldl (fun u r => u.putBank (u.bankCells true r.g r.da ((s.stack s.core.stk).ws.getN r.sa n))) s := by
  suffices h : ∀ u : State, u.stack u.core.stk = s.stack s.core.stk →
      u.movedRows 2 n rows = rows.foldl (fun u r => u.putBank (u.bankCells true r.g r.da ((s.stack s.core.stk).ws.getN r.sa n))) u from h s rfl
  induction rows with
  | nil => exact fun _ _ => rfl
  | cons r rows ih =>
    intro u hu
    have hr : State.moveRow 2 n u r = u.putBank (u.bankCells true r.g r.da ((s.stack s.core.stk).ws.getN r.sa n)) := by
      rw [← hu]; rfl
    exact (congrArg (fun v : State => v.movedRows 2 n rows) hr).trans (ih _ hu)

theorem State.rowRead_correct {ssp n : Nat} (h : ssp ≠ 1) (p : RowPlan) :
    s.rowRead k false ssp n p = (some (s.rowBytes ssp n p.row), s) := by
  by_cases h0 : ssp = 0
  · simp [State.rowRead, State.rowBytes, h0]
  · simp [State.rowRead, State.rowBytes, h, h0]

theorem State.moveRows_banks {ssp n : Nat} (h : ssp ≠ 1) (born : Nat) (rows : List CopyRow) :
    State.moveRows k false born ssp 0 n (bankPlans rows) s = ([], false, s.movedRows ssp n rows) := by
  induction rows generalizing s with
  | nil => rfl
  | cons r rows ih =>
    change State.moveRows k false born ssp 0 n (⟨r, [], []⟩ :: bankPlans rows) s = _
    simp only [State.moveRows, State.rowRead_correct h, if_true, ih]
    rfl

/-- An uncorrectable error in the source stops the copy before its first row. -/
theorem State.moveRows_uncorrectable {ssp n : Nat} {rows : List CopyRow} (h : ssp ≠ 1) (hr : rows ≠ []) (born : Nat) :
    State.moveRows k true born ssp 0 n (bankPlans rows) s = ([], true, s) := by
  obtain ⟨r, rows, rfl⟩ := List.exists_cons_of_ne_nil hr
  change State.moveRows k true born ssp 0 n (⟨r, [], []⟩ :: bankPlans rows) s = _
  simp [State.moveRows, State.rowRead, h]

/-! ### The copy -/

/-- A copy to the scratchpad of rows that it can move, from banks or from groups of the weight store outside their windows. -/
theorem State.performCopy_banks {ssp n : Nat} {ue : Bool} (hs : (copyShape k).1 = ssp) (hd : (copyShape k).2.1 = 0)
    (hn : (copyShape k).2.2.2.1 = n)
    (h : ∀ r ∈ copyRows k s.core.g, s.rowSide ssp false r.sa n = (.ok [], s) ∧ s.okBanks r.da n = true)
    (hw : ssp = 2 → ∀ r ∈ copyRows k s.core.g, ∀ g ∈ wsGroups r.sa n, s.refreshing s.core.stk g = false) :
    s.performCopy k ue =
      let m := State.moveRows k ue (s.bornAt k) ssp 0 n (bankPlans (copyRows k s.core.g)) s
      m.2.2.written k m.1 [] (if m.2.1 then 3 else 0) := by
  have hplan := State.planRows_banks (s := s) (dsp := 0) fun r hr => ⟨(h r hr).1, State.rowSide_bank (h r hr).2 true⟩
  have hwin : ¬(ssp = 2 ∧ (bankPlans (copyRows k s.core.g)).any (fun r => (wsGroups r.row.sa n).any (s.refreshing s.core.stk)) = true) := by
    rintro ⟨h2, ha⟩
    obtain ⟨p, hp, hg⟩ := List.any_eq_true.1 ha
    obtain ⟨r, hr, rfl⟩ := List.mem_map.1 hp
    obtain ⟨g, hg, hgr⟩ := List.any_eq_true.1 hg
    rw [hw h2 r hr g hg] at hgr
    exact Bool.false_ne_true hgr
  have hsrc : (bankPlans (copyRows k s.core.g)).flatMap (fun r => r.src) = [] := by simp [bankPlans]
  have hdst : (bankPlans (copyRows k s.core.g)).flatMap (fun r => r.dst) = [] := by simp [bankPlans]
  have hgot : (bankPlans (copyRows k s.core.g)).all (fun r => r.src.all (hasGot k.got)) = true := by simp [bankPlans]
  simp only [State.performCopy, hs, hd, hn, hplan, if_neg hwin, hsrc, hdst, hgot, State.segBusy_nil, Option.none_or, Bool.not_true,
    Bool.false_eq_true, if_false, State.releaseOwn_nil]

theorem State.performCopy_moved {ssp n : Nat} (hs : (copyShape k).1 = ssp) (hd : (copyShape k).2.1 = 0)
    (hn : (copyShape k).2.2.2.1 = n) (h1 : ssp ≠ 1)
    (h : ∀ r ∈ copyRows k s.core.g, s.rowSide ssp false r.sa n = (.ok [], s) ∧ s.okBanks r.da n = true)
    (hw : ssp = 2 → ∀ r ∈ copyRows k s.core.g, ∀ g ∈ wsGroups r.sa n, s.refreshing s.core.stk g = false) :
    s.performCopy k false = (s.movedRows ssp n (copyRows k s.core.g)).written k [] [] 0 := by
  rw [State.performCopy_banks hs hd hn h hw, State.moveRows_banks h1]
  rfl

theorem State.performCopy_uncorrectable {n : Nat} (hs : (copyShape k).1 = 0) (hd : (copyShape k).2.1 = 0)
    (hn : (copyShape k).2.2.2.1 = n) (hr : copyRows k s.core.g ≠ [])
    (h : ∀ r ∈ copyRows k s.core.g, s.okBanks r.sa n = true ∧ s.okBanks r.da n = true) :
    s.performCopy k true = s.finish k 3 := by
  rw [State.performCopy_banks hs hd hn (fun r hr => ⟨State.rowSide_bank (h r hr).1 false, (h r hr).2⟩) (fun h => nomatch h),
    State.moveRows_uncorrectable Nat.zero_ne_one hr]
  exact State.written_done (code := 3) (.inl (by decide))

/-- A row from a line that the agent holds to the scratchpad. -/
theorem State.performCopy_fromLine {n pa : Nat} {r : CopyRow} {c : CLine} (hs : (copyShape k).1 = 1) (hd : (copyShape k).2.1 = 0)
    (hn : (copyShape k).2.2.2.1 = n) (hr : copyRows k s.core.g = [r]) (hm : s.mapped s.asid .read r.sa n pa)
    (hh : s.held s.core.cid pa n c) (hb : s.okBanks r.da n = true) :
    s.performCopy k false =
      (s.putBank (s.bankCells true r.g r.da ((c.bytes.drop (pa % 128)).take n))).written k [] [] 0 := by
  have hp := hm.1
  have hplan := State.planRows_one (State.rowSide_mapped (write := false) hm) (State.rowSide_bank hb true)
  simp [State.performCopy, hs, hd, hn, hr, hplan, State.segBusy_held hp hh (.inr rfl), hasGot, State.moveRows, State.rowRead,
    State.segRead_held hp hh]

/-- A row from the scratchpad to a line that the agent has checked out. -/
theorem State.performCopy_toLine {n pa : Nat} {r : CopyRow} {c : CLine} (hs : (copyShape k).1 = 0) (hd : (copyShape k).2.1 = 1)
    (hn : (copyShape k).2.2.2.1 = n) (hr : copyRows k s.core.g = [r]) (hb : s.okBanks r.sa n = true)
    (hm : s.mapped s.asid .write r.da n pa) (hh : s.held s.core.cid pa n c) (ho : c.out = true) (hrel : k.relScope < 2) :
    s.performCopy k false =
      (s.setLine (c.store (pa % 128) (s.bankRead r.g r.sa n) (s.core.cnum, r.da / 128))).written k [] [] 0 := by
  have hp := hm.1
  have hplan := State.planRows_one (State.rowSide_bank hb false) (State.rowSide_mapped (write := true) hm)
  have hlen : (s.bankRead r.g r.sa n).length = n := by simp [State.bankRead]
  simp [State.performCopy, hs, hd, hn, hr, hplan, State.segBusy_held hp hh (.inl ho), State.moveRows, State.rowRead, State.writeSegs,
    State.segWrite_held hp hh ho, List.take_of_length_le (Nat.le_of_eq hlen), State.writeRemote, State.releaseOwn, Nat.not_le.2 hrel]

/-! ### What they leave -/

/-- The release of a copy by the commands of its core. -/
theorem State.releaseFree_congr {t : State} (h : t.core.units = s.core.units) (k : Cmd) : t.releaseFree k = s.releaseFree k := by
  simp only [State.releaseFree, h]

/-- A copy whose release is held up has moved its bytes and goes on. -/
theorem State.written_held (h : s.releaseFree k = false) : s.written k [] [] 0 =
    s.setCmd { k with stage := 2, acks := [], fans := [], err := 0, performed := true, asked := none } := by
  have hd : ((0 : BitVec 3) != 0 || s.releaseFree k) = false := by rw [h]; rfl
  simp only [State.written, hd, Bool.and_false, Bool.false_eq_true, if_false]

end Sys2Proof.Machine
end

section
/-! ## What accesses and copies leave
The last facts of the two sections before, and the statement. -/
namespace Sys2Proof.Machine
open Sys2Proof

variable {s : State} {k : Cmd}

/-- A command that ends in the state it is in leaves registers and memory alone. -/
theorem State.finish_still (s : State) (k : Cmd) (code : BitVec 3) :
    Ended s (s.finish k code) k code ∧ (s.finish k code).core.regs = s.core.regs ∧ (s.finish k code).memory = s.memory :=
  ⟨State.finish_ended rfl rfl k code, s.finish_core_regs k code, s.finish_memory k code⟩

/-! ### Operations at the home -/

theorem Cmd.stores_amo {h : Head} {o : CA} (hi : k.ins = .amo h o) (old : Nat) :
    k.stores old = some (amoNew o.x.toNat (2 ^ o.size.toNat) old (k.opArg 1)) := by
  simp only [Cmd.stores, hi, homeKind, homeOp]

theorem Cmd.stores_cas {h : Head} {o : CA} (hi : k.ins = .cas h o) (old : Nat) :
    k.stores old = if old = k.opArg 2 then some (k.opArg 1) else none := by
  simp only [Cmd.stores, hi, homeKind, homeOp]

theorem homeKind_atHome {i : Instr} {h : Head} {o : CA} (hi : i = .amo h o ∨ i = .cas h o) :
    (homeKind i).1 ≠ 0 ∧ (homeKind i).2.2 = 2 ^ o.size.toNat := by
  rcases hi with rfl | rfl
  · exact ⟨Nat.succ_ne_zero 1, rfl⟩
  · exact ⟨Nat.succ_ne_zero 2, rfl⟩

/-! ### Stores that no scope holds up -/

theorem isRelease_of_relaxed {i : Instr} (ho : orderOf i = .rlx ∨ orderOf i = .acq) : isRelease i = false := by
  rcases ho with ho | ho <;> simp [isRelease, ho, Order.releases]

theorem Cmd.relScope_stg {h : Head} {o : CA} (hi : k.ins = .stg h o) (ho : orderOf k.ins = .rlx ∨ orderOf k.ins = .acq)
    (hs : cmdScope k.ins < 2) (hf : k.fence < 2) : k.relScope < 2 := by
  have hr := isRelease_of_relaxed ho
  rw [hi] at hr hs
  simp only [Cmd.relScope, hi, hr, isCopy, Bool.false_and, Bool.or_false, Bool.false_eq_true, if_false]
  omega

theorem Cmd.relScope_vstg {h : Head} {o : CV} (hi : k.ins = .vstg h o) (ho : orderOf k.ins = .rlx ∨ orderOf k.ins = .acq)
    (hs : cmdScope k.ins < 2) : k.relScope < 2 := by
  have hr := isRelease_of_relaxed ho
  rw [hi] at hr hs
  simp only [Cmd.relScope, hi, hr, isCopy, Bool.false_and, Bool.or_false, Bool.false_eq_true, if_false]
  omega

/-! ### Copies -/

/-- A copy that has moved rows to the scratchpad and whose release is free ends. -/
theorem State.movedRows_ended (ssp n : Nat) (rows : List CopyRow) (hr : s.releaseFree k = true) :
    let t := (s.movedRows ssp n rows).written k [] [] 0
    Ended s t k 0 ∧ t.memory = s.memory ∧ t.core.units.tiles = s.core.units.tiles ∧ t.core.cnum = s.core.cnum ∧
      t.core.regs = (s.movedRows ssp n rows).core.regs := by
  intro t
  have ht : t = (s.movedRows ssp n rows).finish k 0 :=
    State.written_done (.inr ((State.releaseFree_congr (s.movedRows_units ssp n rows) k).trans hr))
  rw [ht]
  exact ⟨State.finish_ended (by simp) (by simp) k 0, by simp, by simp, by simp, by simp⟩

/-- And goes on where its release is held up. -/
theorem State.movedRows_held (ssp n : Nat) (rows : List CopyRow) (hr : s.releaseFree k = false) :
    (s.movedRows ssp n rows).written k [] [] 0 =
      (s.movedRows ssp n rows).setCmd { k with stage := 2, acks := [], fans := [], err := 0, performed := true, asked := none } :=
  State.written_held ((State.releaseFree_congr (s.movedRows_units ssp n rows) k).trans hr)

/-- The command put into the state whose rows have moved. -/
theorem State.cmd_setCmd_movedRows {k' : Cmd} (ssp n : Nat) (rows : List CopyRow) (hc : s.cmd k.seq = some k) (hk : k'.seq = k.seq) :
    ((s.movedRows ssp n rows).setCmd k').cmd k.seq = some k' := by
  refine State.cmd_setCmd (s := s.movedRows ssp n rows) ?_ hk
  rw [State.cmd, State.movedRows_units]
  exact hc

/-! ### The statement -/

/-- Settles O51: the path of each completion, and what its access or copy leaves. -/
theorem accessEvents : Obligations.AccessEvents := by
  intro s k hc ha hk hf n cid sz still
  refine ⟨fun hst hi hg => ?_, fun ue hover hi => ?_, fun hst he hm hi ho => ?_, fun hst he hm hrel hi hcas hsc hl hfan => ?_,
    fun hst he hp hr hfe ho => ?_, ?_⟩
  · have h : s.accessComplete k = some (s.finish k k.err) := by
      simp [State.accessComplete_awaits ha hk hf, hst, State.takeRemote, hg]
    exact ⟨_, exec_memoryAccessComplete_focus hc hi h (s.finish_core_cnum _ _), s.finish_still k k.err⟩
  · exact ⟨_, exec_copyComplete_over hc hi ha hk hf hover, s.finish_still k k.err⟩
  · have hx {t : State} (h : s.performAccess k = t) (hn : t.core.cnum = s.core.cnum) :=
      exec_memoryAccessComplete_focus hc hi ((State.accessComplete_relaxed ha hk hf hst he hm ho).trans (congrArg some h)) hn
    refine ⟨fun hfe => ?_, fun hfe hal => ?_, fun h o pa c hi hal hmap hheld => ?_, fun h o pa c hi hal hmap hheld hout hsc hfen => ?_,
      fun h o va m pa c hi hal hex hmap hheld => ?_, fun h o va m pa c hi hal hex hmap hheld hout hsc => ?_,
      fun h o pa hi hw hal hmap hrest hb hl => ?_⟩
    · exact ⟨_, hx (State.performAccess_fence hfe) (s.finish_core_cnum _ _), s.finish_still k 0⟩
    · exact ⟨_, hx (State.performAccess_misaligned hi hfe hal) (s.finish_core_cnum _ _), s.finish_still k 1⟩
    · refine ⟨_, hx (State.performAccess_ldg hi hal hmap hheld) (by simp), State.finish_ended (by simp) (by simp) k 0, by simp, fun hd => ?_⟩
      rw [State.finish_core_x, hi]
      exact State.loadInto_ldg_x _ _ hd
    · obtain ⟨hend, hregs, hmem, hline⟩ := State.finish_store_spec (k := k) hheld hout (leBytes (sz o) (k.ops.getD 1 0).toNat)
        (s.core.cnum, k.addr / 128) 0
      exact ⟨_, _, hx (State.performAccess_stg hi hal hmap hheld hout (Cmd.relScope_stg hi ho hsc hfen)) (State.finish_core_cnum _ _ _),
        hend, hregs, hmem, hline⟩
    · exact ⟨_, hx (State.performAccess_vldg hi hal hex hmap hheld) (State.finish_core_cnum _ _ _), State.finish_ended rfl rfl k 0,
        State.finish_memory _ _ _, State.finish_core_regs _ _ _⟩
    · obtain ⟨hend, hregs, hmem, hline⟩ := State.finish_store_spec (k := k) hheld hout ((k.data.map (fun e => e.2)).take m)
        (s.core.cnum, va / 128) 0
      exact ⟨_, _, hx (State.performAccess_vstg hi hal hex hmap hheld hout (Cmd.relScope_vstg hi ho hsc)) (State.finish_core_cnum _ _ _),
        hend, hregs, hmem, hline⟩
    · obtain ⟨hkind, hsize⟩ := homeKind_atHome hi
      have hcopy : isCopy k.ins = false := by rcases hi with hi | hi <;> rw [hi] <;> rfl
      have harg (i : Nat) : k.opArg i = (k.ops.getD i 0).toNat % 2 ^ (8 * sz o) := by rw [Cmd.opArg, hsize]
      simp only [sz, ← hsize] at hal hmap hrest hl ⊢
      replace hmap : s.mapped s.asid (if (homeKind k.ins).1 = 0 then .read else .write) k.addr (homeKind k.ins).2.2 pa := by
        rwa [if_neg hkind]
      obtain ⟨hend, hnum, -, hhome, hother⟩ := State.atHome_rest_spec hw hal hmap hrest hb hcopy hl
      refine ⟨_, hx (State.performAccess_atHome hi) hnum, hend, fun hd => State.atHome_rest_x hal hmap hrest hb hi hd,
        fun hamo => ?_, fun hcas => ?_, hother⟩
      · rw [hhome, Cmd.stores_amo hamo, hsize, harg 1]; rfl
      · rw [hhome, Cmd.stores_cas hcas, hsize, harg 1, harg 2]
        split <;> rfl
  · exact ⟨_, exec_memoryAccessComplete_focus hc hi (State.accessComplete_release ha hk hf hst he hm hrel hcas hsc hl hfan) rfl,
      State.cmd_setCmd hc rfl, rfl, rfl⟩
  · have hi : isMemAccess k.ins = true := by
      unfold isFence at hfe
      split at hfe
      next h => rw [h]; rfl
      next => cases hfe
    have h : s.accessComplete k = some (s.performAccess k) := by
      simp [State.accessComplete_awaits ha hk hf, hst, he, hp, hr, ho]
    rw [State.performAccess_fence hfe] at h
    exact ⟨_, exec_memoryAccessComplete_focus hc hi h (s.finish_core_cnum _ _), s.finish_still k 0⟩
  · intro hst he hm hi hq sh len rows
    have hx {t : State} {ue : Bool} (h : s.performCopy k.moving ue = t) (hn : t.core.cnum = s.core.cnum) :=
      exec_copyComplete_moves hc hi ha hk hf hst he hm hq h hn
    refine ⟨fun hs hd hb => ⟨?_, fun hne => ?_⟩, fun hs hd hb hwin hfree => ?_, fun r pa c hs hd hr hmap hheld hb hfree => ?_,
      fun r pa c hs hd hr hb hmap hheld hout hsc hfree => ?_⟩
    · have hmove := State.performCopy_moved (k := k.moving) (n := len) hs hd rfl Nat.zero_ne_one
        (fun r hr => ⟨State.rowSide_bank (hb r hr).1 false, (hb r hr).2⟩) (fun h => nomatch h)
      cases hfree : s.releaseFree k with
      | true =>
        obtain ⟨hend, hmem, htiles, hnum, hregs⟩ := State.movedRows_ended (k := k.moving) 0 len rows hfree
        exact ⟨_, hx hmove hnum, hmem, htiles, hregs, fun _ => hend, fun h => nomatch h⟩
      | false =>
        replace hmove := hmove.trans (State.movedRows_held (k := k.moving) 0 len rows hfree)
        refine ⟨_, hx hmove (s.movedRows_cnum 0 len rows), s.movedRows_memory 0 len rows, ?_, rfl, fun h => (nomatch h), fun _ => ?_⟩
        · exact congrArg (fun u => u.tiles) (s.movedRows_units 0 len rows)
        · refine (State.cmd_setCmd_movedRows 0 len rows hc ?_).trans ?_
          · rfl
          · rw [hk, he]
            rfl
    · exact ⟨_, hx (State.performCopy_uncorrectable (k := k.moving) (n := len) hs hd rfl hne hb) (s.finish_core_cnum _ _),
        s.finish_still k.moving 3⟩
    · have hmove := State.performCopy_moved (k := k.moving) (n := len) hs hd rfl (Nat.succ_ne_self 1)
        (fun r hr => ⟨State.rowSide_store (hb r hr).1, (hb r hr).2⟩) (fun _ => hwin)
      obtain ⟨hend, hmem, -, hnum, hregs⟩ := State.movedRows_ended (k := k.moving) 2 len rows hfree
      exact ⟨_, hx hmove hnum, hend, hmem, by rw [← State.movedRows_store]; exact hregs⟩
    · have hmove := State.performCopy_fromLine (k := k.moving) (n := len) hs hd rfl hr hmap hheld hb
      replace hmove := hmove.trans (State.written_done (k := k.moving) (.inr hfree))
      exact ⟨_, hx hmove (State.finish_core_cnum _ _ _), State.finish_ended rfl rfl k.moving 0, State.finish_memory _ _ _,
        State.finish_core_regs _ _ _⟩
    · have hmove := State.performCopy_toLine (k := k.moving) (n := len) hs hd rfl hr hb hmap hheld hout hsc
      replace hmove := hmove.trans (State.written_done (k := k.moving) (.inr hfree))
      obtain ⟨hend, hregs, hmem, hline⟩ := State.finish_store_spec (k := k.moving) hheld hout (s.bankRead r.g r.sa len)
        (s.core.cnum, r.da / 128) 0
      exact ⟨_, _, hx hmove (State.finish_core_cnum _ _ _), hend, hregs, hmem, hline⟩

end Sys2Proof.Machine
end

section
/-! ## What a write at its home leaves alone
Writes and reads at homes touch memory, floor stamps and what is sent to the host, nothing else (05 R131 to R134): the Crucible's
index and the module's registers stand while blocks and headers are written (06 R139). -/
namespace Sys2Proof.Machine
open Sys2Proof

/-- Two states are the same but for stacks, memory and what has left the module. -/
abbrev State.butHome (s t : State) : Prop := ∃ v m o, t = { s with stackv := v, memory := m, outward := o }

theorem State.butHome_refl (s : State) : s.butHome s := ⟨_, _, _, rfl⟩
theorem State.butHome_trans {s t u : State} (h : s.butHome t) (k : t.butHome u) : s.butHome u := by
  obtain ⟨v, m, o, rfl⟩ := h
  obtain ⟨w, n, p, rfl⟩ := k
  exact ⟨w, n, p, rfl⟩
theorem State.butL2.butHome {s t : State} (h : s.butL2 t) : s.butHome t := by
  obtain ⟨l, rfl⟩ := h
  exact ⟨_, _, _, rfl⟩

/-- Folding updates at homes is an update at homes. -/
theorem foldl_butHome {α : Type} {f : State → α → State} (h : ∀ s a, State.butHome s (f s a)) (l : List α) (s : State) :
    State.butHome s (l.foldl f s) :=
  List.foldlRecOn (motive := s.butHome) _ _ s.butHome_refl fun u hu a _ => State.butHome_trans hu (h u a)

theorem State.fanDone_butHome (s : State) (d f) : s.butHome (s.fanDone d f) := by
  unfold State.fanDone; dsimp only; split <;> exact ⟨_, _, _, rfl⟩
theorem State.settleFan_butHome (s : State) (line) : s.butHome (s.settleFan line) := by
  unfold State.settleFan
  split
  · exact s.butHome_refl
  · split
    · exact s.butHome_refl
    · split
      · exact s.fanDone_butHome _ _
      · exact s.butHome_refl
theorem State.startFan_butHome (s : State) (line from_ keep byHost wrote) : s.butHome (s.startFan line from_ keep byHost wrote) := by
  unfold State.startFan; dsimp only
  split
  · exact State.butHome_trans ⟨_, _, _, rfl⟩ (State.settleFan_butHome _ _)
  · exact State.butHome_trans ⟨_, _, _, rfl⟩ (State.settleFan_butHome _ _)
theorem State.homeWrite_butHome (s : State) (pa bs byHost wrote) : s.butHome (s.homeWrite pa bs byHost wrote) := by
  unfold State.homeWrite; dsimp only
  split
  · exact ⟨_, _, _, rfl⟩
  · exact State.butHome_trans ⟨_, _, _, rfl⟩ (State.startFan_butHome _ _ _ _ _ _)
theorem State.homePut_butHome (s : State) (pa bs byHost wrote) : s.butHome (s.homePut pa bs byHost wrote) :=
  foldl_butHome (fun u _ => u.homeWrite_butHome _ _ _ _) _ s
theorem State.blockPut_butHome (s : State) (b : Block) (off bs) : s.butHome (s.blockPut b off bs) :=
  foldl_butHome (fun u _ => u.homePut_butHome _ _ _ _) _ s
theorem State.putHeaders_butHome (s : State) (p : NSpace) (n : KNode) (parent toks) : s.butHome (s.putHeaders p n parent toks) :=
  foldl_butHome (fun u _ => u.homePut_butHome _ _ _ _) _ s
theorem State.sealHeader_butHome (s : State) (n : KNode) (layer form ranks payload) : s.butHome (s.sealHeader n layer form ranks payload) :=
  State.butHome_trans (State.butHome_trans (s.homePut_butHome _ _ _ _) (State.homePut_butHome _ _ _ _ _)) (State.homePut_butHome _ _ _ _ _)

theorem State.butHome.core {s t : State} (h : s.butHome t) : t.core = s.core := by obtain ⟨v, m, o, rfl⟩ := h; rfl
theorem State.butHome.regs {s t : State} (h : s.butHome t) : t.regs = s.regs := by obtain ⟨v, m, o, rfl⟩ := h; rfl
theorem State.butHome.crucible {s t : State} (h : s.butHome t) : t.crucible = s.crucible := by obtain ⟨v, m, o, rfl⟩ := h; rfl

end Sys2Proof.Machine
end

section
/-! ## Nodes by slot
What a lookup by slot finds after each update of the index, and that eviction, reclaim and the release of pins put no node into a free
slot (06 R143, R158, R159). -/
namespace Sys2Proof.Machine
open Sys2Proof

/-! ### Lookups -/

theorem State.node_of_crucible {s t : State} (h : t.crucible = s.crucible) (slot : Nat) : t.node slot = s.node slot := by
  simp only [State.node, h]
theorem State.node_slot {s : State} {slot : Nat} {n : KNode} (h : s.node slot = some n) : n.slot = slot := by
  simpa using List.find?_some h

/-- The node put in place of the one in its slot. -/
theorem State.node_setNode {s : State} {n m : KNode} (h : s.node n.slot = some m) : (s.setNode n).node n.slot = some n := by
  have hm := find?_map_of_key (p := fun j : KNode => j.slot == n.slot) (f := fun j => if j.slot = n.slot then n else j)
    (fun j => by split <;> simp_all) s.crucible.nodes
  exact hm.trans (by rw [show s.crucible.nodes.find? _ = some m from h]; simp [State.node_slot h])

/-- A node in another state put in its place. -/
theorem State.node_setNode_of_slot {s : State} {n m : KNode} (h : s.node m.slot = some m) (hs : n.slot = m.slot := by rfl) :
    (s.setNode n).node m.slot = some n := by
  rw [← hs] at h ⊢
  exact State.node_setNode h

/-- The node of a current handle is the one of its slot (R145). -/
theorem State.node_of_current {s : State} {h : Word} {n : KNode} (hc : s.current h = some n) : s.node n.slot = some n := by
  unfold State.current at hc
  split at hc
  · cases hc
  · split at hc
    next m hm =>
      split at hc
      · cases hc
        rwa [← State.node_slot hm] at hm
      · cases hc
    next => cases hc

theorem State.node_eq_none {s : State} {slot : Nat} : s.node slot = none ↔ ∀ n ∈ s.crucible.nodes, n.slot ≠ slot := by
  simp [State.node]

@[simp] theorem State.node_dropNode_same (s : State) (slot : Nat) : (s.dropNode slot).node slot = none :=
  State.node_eq_none.2 fun n hn => by simpa using (List.mem_filter.1 hn).2

/-! ### Free slots stay free -/

section
variable {s : State} {slot : Nat} (hs : s.node slot = none)
include hs

/-- Updates of nodes that leave each in its slot. -/
theorem State.node_none_of_map {t : State} {f : KNode → KNode} (ht : t.crucible.nodes = s.crucible.nodes.map f)
    (hf : ∀ n ∈ s.crucible.nodes, (f n).slot = n.slot) : t.node slot = none := by
  rw [State.node_eq_none] at hs ⊢
  rw [ht, List.forall_mem_map]
  exact fun n hn => hf n hn ▸ hs n hn

theorem State.setNode_free (n : KNode) : (s.setNode n).node slot = none :=
  State.node_none_of_map hs (f := fun m => if m.slot = n.slot then n else m) rfl fun m _ => by split <;> simp_all
theorem State.dropNode_free (k : Nat) : (s.dropNode k).node slot = none :=
  State.node_eq_none.2 fun n hn => State.node_eq_none.1 hs n (List.mem_filter.1 hn).1
theorem State.sendK_free (dst tag r) : (s.sendK dst tag r).node slot = none := by
  obtain ⟨l, o, h⟩ := s.sendMsg_butWire (s.message dst 4 0 tag r.bytes)
  rw [State.sendK, h]; exact hs
theorem State.dirCounts_free (name holder m refs pins) : (s.dirCounts name holder m refs pins).node slot = none := by
  unfold State.dirCounts
  split
  · exact hs
  · split <;> exact hs
theorem State.noteRemote_free (k m) : (s.noteRemote k m).node slot = none := by
  unfold State.noteRemote; dsimp only
  split
  · exact hs
  · split
    · exact hs
    · split
      · exact State.dirCounts_free hs _ _ _ _ _
      · exact State.sendK_free hs _ _ _

/-- Folding updates that leave a slot free leaves it free. -/
theorem foldl_free {α : Type} {f : State → α → State} (hf : ∀ u a, State.node u slot = none → (f u a).node slot = none) (l : List α) :
    (l.foldl f s).node slot = none :=
  List.foldlRecOn (motive := fun u : State => u.node slot = none) _ _ hs fun u hu a _ => hf u a hu

theorem State.noteAll_free (n) : (s.noteAll n).node slot = none :=
  foldl_free hs (fun _ _ hu => State.noteRemote_free hu _ _) _
theorem State.homeMoved_free (name m) : (s.homeMoved name m).node slot = none := by
  unfold State.homeMoved; extract_lets mine _ s1
  have h1 : s1.node slot = none := State.node_none_of_map hs rfl fun n _ => by split <;> rfl
  split
  · exact foldl_free h1 (fun _ _ hu => State.noteAll_free hu _) _
  · exact h1
theorem State.dirMoveHome_free (d) : (s.dirMoveHome d).node slot = none := by
  unfold State.dirMoveHome
  split
  · exact hs
  · extract_lets low left s1
    refine foldl_free (s := s1) hs (fun u e hu => ?_) _
    split
    · exact State.homeMoved_free hu _ _
    · exact State.sendK_free hu _ _ _
theorem State.unregister_free (n) : (s.unregister n).node slot = none := by
  unfold State.unregister State.dirDrop
  split
  · split
    · exact hs
    · split
      · exact State.dirMoveHome_free hs _
      · exact hs
  · exact State.sendK_free hs _ _ _
theorem State.settleEvict_free (k) : (s.settleEvict k).node slot = none := by
  unfold State.settleEvict
  split
  · split
    · exact State.dropNode_free hs _
    · exact hs
  · exact hs
theorem State.evict_free (n) : (s.evict n).node slot = none :=
  State.settleEvict_free (State.unregister_free (State.setNode_free hs _) n) _
theorem State.dispose_free (n) : (s.dispose n).2.node slot = none := by
  unfold State.dispose; dsimp only
  split
  · exact State.setNode_free hs _
  · exact State.evict_free hs n

end

/-- Choosing a victim counts it, and no more. -/
theorem State.nextVictim_crucible (s : State) (cxl) : (s.nextVictim cxl).2.crucible = s.crucible := by
  unfold State.nextVictim; split
  next r h =>
    rcases Option.or_eq_some_iff.1 h with h | ⟨_, h⟩
    · simp only [State.victimE0, Option.map_eq_some_iff] at h
      obtain ⟨_, _, rfl⟩ := h; rfl
    · split at h
      · cases h
      · simp only [State.victimE1, Option.ite_none_right_eq_some, Option.map_eq_some_iff] at h
        obtain ⟨_, _, _, rfl⟩ := h; rfl
  next => rfl

theorem State.walkOn_free (f : Nat) {s : State} {slot : Nat} (hs : s.node slot = none) : (State.walkOn f s).node slot = none := by
  induction f generalizing s with
  | zero => exact hs
  | succ f ih =>
    have hv : (s.nextVictim false).2.node slot = none := (State.node_of_crucible (s.nextVictim_crucible _) _).trans hs
    unfold State.walkOn; dsimp only
    split
    · exact hs
    · split
      · exact hs
      · split
        · exact hs
        · split
          · exact hv
          · exact ih (State.dispose_free hv _)
theorem State.walkCxlOn_free (f : Nat) {s : State} {slot : Nat} (hs : s.node slot = none) : (State.walkCxlOn f s).node slot = none := by
  induction f generalizing s with
  | zero => exact hs
  | succ f ih =>
    have hv : (s.nextVictim true).2.node slot = none := (State.node_of_crucible (s.nextVictim_crucible _) _).trans hs
    unfold State.walkCxlOn; dsimp only
    split
    · exact hs
    · split
      · exact hv
      · exact ih (State.evict_free hv _)

theorem State.reclaimTest_free {s : State} {slot : Nat} (hs : s.node slot = none) : s.reclaimTest.node slot = none := by
  unfold State.reclaimTest; extract_lets fuel _ s1 s2 _
  have h1 : s1.node slot = none := by unfold s1; split <;> exact hs
  have h2 : s2.node slot = none := State.walkOn_free _ h1
  split
  · exact State.walkCxlOn_free _ h2
  · exact h2
theorem State.releasePins_free {s : State} {slot : Nat} (hs : s.node slot = none) (slots pin) :
    (s.releasePins slots pin).node slot = none := by
  unfold State.releasePins; extract_lets _ s1
  have h1 : s1.node slot = none := State.node_none_of_map hs rfl fun _ _ => rfl
  exact State.reclaimTest_free (foldl_free h1 (fun _ _ hu => State.settleEvict_free hu _) _)
theorem State.replEnd_free {s : State} {slot : Nat} (hs : s.node slot = none) (k : Cmd) : (s.replEnd k).node slot = none := by
  unfold State.replEnd; extract_lets s1
  refine State.releasePins_free ?_ _ _
  unfold s1
  split
  · exact State.sendK_free hs _ _ _
  · exact hs

/-! ### The core in focus -/

theorem State.reclaimTest_core (s : State) : s.reclaimTest.core = s.core := State.core_of_apart s.reclaimTest_apart
theorem State.releasePins_core (s : State) (slots pin) : (s.releasePins slots pin).core = s.core := by
  refine (State.reclaimTest_core _).trans ?_
  exact foldl_keeps State.core _ (fun u k => State.core_of_apart (u.settleEvict_apart k)) _ _
theorem State.sendK_core (s : State) (dst tag r) : (s.sendK dst tag r).core = s.core := State.sendMsg_core _ _
theorem State.replEnd_core (s : State) (k : Cmd) : (s.replEnd k).core = s.core := by
  unfold State.replEnd; extract_lets s1
  refine (State.releasePins_core _ _ _).trans ?_
  unfold s1
  split
  · exact State.sendK_core _ _ _ _
  · rfl

end Sys2Proof.Machine
end

section
/-! ## Seals, demotions, leases and ticks
What SEAL_COMPLETE, DEMOTE_COMPLETE, LEASE_EXPIRE and STORE_TICK leave (06 R141, R143, R144, R148, R159, R160). -/
namespace Sys2Proof.Machine
open Sys2Proof

/-! ### A node is sealed -/

/-- Sealing a block changes the blocks of its node, and no register. -/
theorem State.sealBlock_node {s : State} {slot : Nat} {n : KNode} (h : s.node slot = some n) (p : NSpace) (i : Nat) :
    (∃ bs, (s.sealBlock p slot i).node slot = some { n with blocks := bs }) ∧ (s.sealBlock p slot i).regs = s.regs := by
  have hset {u : State} (hu : s.butHome u) (bs : List Block) :
      (∃ cs, (u.setNode { n with blocks := bs }).node slot = some { n with blocks := cs }) ∧
      (u.setNode { n with blocks := bs }).regs = s.regs := by
    obtain rfl := State.node_slot h
    exact ⟨⟨bs, State.node_setNode (n := { n with blocks := bs }) ((State.node_of_crucible hu.crucible _).trans h)⟩, hu.regs⟩
  unfold State.sealBlock
  rw [h]; dsimp only
  split
  · exact ⟨⟨n.blocks, h⟩, rfl⟩
  next b _ =>
    have ht := (s.blockTouch_spec b 0 p.payload).butHome
    split
    · refine hset (State.butHome_trans (State.butHome_trans ht ?_) (State.sealHeader_butHome _ _ _ _ _ _)) _
      exact State.blockPut_butHome _ _ _ _
    · refine hset (State.butHome_trans ht ?_) _
      exact State.sealHeader_butHome _ _ _ _ _ _

/-- So does sealing all of them. -/
theorem State.sealBlocks_node {s : State} {slot : Nat} {n : KNode} (h : s.node slot = some n) (p : NSpace) (is : List Nat) :
    (∃ bs, (is.foldl (fun s i => s.sealBlock p slot i) s).node slot = some { n with blocks := bs }) ∧
    (is.foldl (fun s i => s.sealBlock p slot i) s).regs = s.regs := by
  refine List.foldlRecOn (motive := fun u : State => (∃ bs, u.node slot = some { n with blocks := bs }) ∧ u.regs = s.regs) is _
    ⟨⟨n.blocks, h⟩, rfl⟩ fun u ⟨⟨_, hu⟩, hr⟩ i _ => ?_
  obtain ⟨⟨bs, hb⟩, hb'⟩ := State.sealBlock_node hu p i
  exact ⟨⟨bs, hb⟩, hb'.trans hr⟩

/-- The directory learns of a copy; the nodes stand. -/
theorem State.node_register (s : State) (n : KNode) (slot : Nat) : (s.register n).node slot = s.node slot := by
  unfold State.register State.dirRegister
  split
  · split
    · rfl
    · split <;> rfl
  · obtain ⟨l, o, h⟩ := s.sendMsg_butWire (s.message (s.dirMod n.name) 4 0 0 (KReq.bytes ⟨1, n.repl.toNat, 0, n.handle s.mid, 0, n.ns, 0, 0, n.name⟩))
    rw [State.sendK, h]; rfl

theorem State.kdir_setKdir (s : State) (d : KDir) : (s.setKdir d).kdir d.name = some d :=
  find?_replace (p := fun e : KDir => e.name == d.name) d s.crucible.dir (by simp)

/-- In the directory of its own module a sealed node is the home (R160). -/
theorem State.kdir_register {s : State} {n : KNode} (hm : s.dirMod n.name = s.mid) (hr : n.repl = false) :
    ∃ d, (s.register n).kdir n.name = some d ∧ d.home = s.mid ∧ d.handle = n.handle s.mid := by
  rw [State.register, if_pos hm, State.dirRegister, hr]
  split
  · exact ⟨_, State.kdir_setKdir _ ⟨n.name, s.mid, n.handle s.mid, [], [], []⟩, rfl, rfl⟩
  next d hd =>
    have hn : d.name = n.name := by simpa using List.find?_some hd
    rw [if_neg Bool.false_ne_true, ← hn]
    exact ⟨_, State.kdir_setKdir _ { d with home := s.mid, handle := n.handle s.mid, refs := [], pins := [] }, rfl, rfl⟩

theorem exec_sealComplete {s : State} {slot : Nat} {nd : KNode} {p : NSpace} (hn : s.node slot = some nd) (hst : nd.st = .sealing)
    (hr : nd.repl = false) (hp : ∀ q, s.parent nd = some q → q.st.readable = true) (hs : s.space nd.ns = some p) :
    ∃ (u : State) (nd' : KNode), exec (.sealComplete slot) s = .next u.reclaimTest ∧ u.node slot = some nd' ∧
      nd'.st = .sealed ∧ nd'.name = nd.name ∧ nd'.gen = nd.gen ∧ nd'.owner = 0 ∧
      (s.dirMod nd.name = s.mid → ∃ d, u.kdir nd.name = some d ∧ d.home = s.mid ∧ d.handle = nd.handle s.mid) := by
  obtain rfl := State.node_slot hn
  obtain ⟨⟨bs, hm⟩, hregs⟩ := State.sealBlocks_node hn p (List.range nd.blocks.length)
  generalize hs1 : (List.range nd.blocks.length).foldl (fun s i => s.sealBlock p nd.slot i) s = s1 at hm hregs
  let nd' : KNode := { nd with blocks := bs, st := .sealed, owner := 0, home := s.mid }
  have hpar : (match s.parent nd with | some q => q.st.readable | none => true) = true := by
    split
    next q hq => exact hp q hq
    next => rfl
  refine ⟨(s1.setNode nd').register nd', nd', ?_, ?_, rfl, rfl, rfl, rfl, fun hd => ?_⟩
  · refine congrArg (enabledOr _) (a₂ := some _) ?_
    rw [hn]; dsimp only
    rw [if_neg (by simp [hst, hr]; exact hpar), hs]; dsimp only
    rw [hs1, hm]
  · rw [State.node_register]
    exact State.node_setNode (n := nd') hm
  · have hmid : (s1.setNode nd').mid = s.mid := congrArg (fun r : ModRegs => fld r.m.domain 0 8) hregs
    have hmod : (s1.setNode nd').dirMod nd'.name = (s1.setNode nd').mid := by
      rw [hmid, ← hd]
      exact congrArg (fun r : ModRegs => nd.name.toNat % (fld r.m.domain 16 8 + 1)) hregs
    rw [← hmid]
    exact State.kdir_register hmod hr

/-! ### A demotion ends -/

/-- The node whose copy is good: in the CXL tier, its former granules kept for the pins taken before (R159). -/
def State.moved (s : State) (n : KNode) : KNode :=
  { n with st := .sealed, cxl := true, blocks := n.blocks.map (fun b => { b with granules := b.next, next := [] }),
           old := if (s.chainPins n).isEmpty then [] else n.blocks.flatMap (fun (b : Block) => b.granules), evictPins := s.chainPins n }

/-- The node whose copy is bad: marked, where it was. -/
def KNode.spoiled (n : KNode) : KNode := { n with st := .sealed, bad := true, blocks := n.blocks.map (fun b => { b with next := [] }) }

/-- The payloads written to the granules of the CXL tier. -/
def State.copyBlocks (s : State) (n : KNode) : State :=
  n.blocks.foldl (fun u b => (u.blockTouch b 0 (u.pbytes n b)).blockPut { b with granules := b.next } 0 (u.payload n b)) s

theorem State.copyBlocks_butHome (s : State) (n : KNode) : s.butHome (s.copyBlocks n) :=
  foldl_butHome (fun u _ => State.butHome_trans (u.blockTouch_spec _ _ _).butHome (State.blockPut_butHome _ _ _ _)) _ _

/-- DEMOTE of the counters is counted. -/
def State.countDemote (s : State) (t : Telem) : State := { s with regs := { s.regs with telem := { t with demote := t.demote + 1 } } }

theorem exec_demoteComplete_eq {s : State} {slot : Nat} {n : KNode} (hn : s.node slot = some n) (hst : n.st = .demoting) :
    exec (.demoteComplete slot) s = .next (State.reclaimTest (if n.blocks.all (fun b => s.blockGood n b)
      then ((s.copyBlocks n).setNode (s.moved n)).countDemote s.regs.telem else s.setNode n.spoiled)) := by
  refine congrArg (enabledOr _) (a₂ := some _) ?_
  rw [hn]; dsimp only
  rw [if_neg (not_not.2 hst)]
  split <;> rfl

theorem exec_demoteComplete {s : State} {slot : Nat} {nd : KNode} (hn : s.node slot = some nd) (hst : nd.st = .demoting) :
    ∃ (u : State) (nd' : KNode), exec (.demoteComplete slot) s = .next u.reclaimTest ∧ u.node slot = some nd' ∧ nd'.st = .sealed ∧
      (nd.blocks.all (fun b => s.blockGood nd b) = true → nd'.cxl = true ∧ u.regs.telem.demote = s.regs.telem.demote + 1 ∧
        nd'.blocks.map (fun b => b.granules) = nd.blocks.map (fun b => b.next)) ∧
      (nd.blocks.all (fun b => s.blockGood nd b) = false → nd'.bad = true ∧ nd'.cxl = nd.cxl ∧ u.regs.telem.demote = s.regs.telem.demote ∧
        u.memory = s.memory) := by
  have hx := exec_demoteComplete_eq hn hst
  obtain rfl := State.node_slot hn
  cases hg : nd.blocks.all (fun b => s.blockGood nd b) with
  | true =>
    rw [hg, if_pos rfl] at hx
    have hcopy : (s.copyBlocks nd).node nd.slot = some nd := (State.node_of_crucible (s.copyBlocks_butHome nd).crucible _).trans hn
    refine ⟨_, s.moved nd, hx, State.node_setNode (n := s.moved nd) hcopy, rfl, fun _ => ⟨rfl, rfl, ?_⟩, fun h => nomatch h⟩
    exact List.map_map ..
  | false =>
    rw [hg, if_neg Bool.false_ne_true] at hx
    exact ⟨_, nd.spoiled, hx, State.node_setNode (n := nd.spoiled) hn, rfl, fun h => (nomatch h), fun _ => ⟨rfl, rfl, rfl, rfl⟩⟩

/-! ### Leases -/

/-- Where no tier is pressed and no walk runs, a reclaim test changes nothing. -/
theorem State.reclaimTest_calm {s : State} (hw : s.crucible.walkHbm = false) (hh : s.pressureAt false (markHigh s.regs.m.crmark) = false)
    (hc : s.pressureOver true (markCxl s.regs.m.crmark) = false) : s.reclaimTest = s := by
  have hwalk : State.walkOn (s.crucible.nodes.length + 1) s = s := by simp [State.walkOn, hw]
  simp [State.reclaimTest, hh, hwalk, hc]

theorem exec_leaseExpire {s : State} {slot : Nat} {nd : KNode} (hn : s.node slot = some nd) (he : nd.expiry ≠ 0)
    (ht : nd.expiry.toNat ≤ s.regs.m.tbase.toNat) : exec (.leaseExpire slot) s = .next s.reclaimTest := by
  refine congrArg (enabledOr _) (a₂ := some _) ?_
  rw [hn]
  exact if_pos ⟨he, ht⟩

/-! ### The store tick -/

/-- A link keeps the tick at which it failed. -/
theorem State.failedAt_of_links {s t : State} {n : Nat} {l : Link} (ht : t.links = vset s.links n l)
    (hl : l.failedAt = (s.link n).failedAt) (i : Nat) : (t.link i).failedAt = (s.link i).failedAt := by
  unfold State.link at hl ⊢
  rw [ht]
  by_cases hi : n = i
  · subst hi
    by_cases hn : n < 16
    · rw [vget_vset_same _ _ _ _ hn, hl]
    · simp [vget, hn]
  · rw [vget_vset_other _ _ _ _ _ hi]

theorem State.failedAt_emit (s : State) (n : Nat) (m : Msg) (i : Nat) : ((s.emit n m).link i).failedAt = (s.link i).failedAt :=
  foldl_keeps (fun u : State => (u.link i).failedAt) _ (fun _ _ => State.failedAt_of_links rfl (by rfl) i) _ s
theorem State.failedAt_sendMsg (s : State) (m : Msg) (i : Nat) : ((s.sendMsg m).link i).failedAt = (s.link i).failedAt := by
  unfold State.sendMsg
  split
  · rfl
  · dsimp only
    split
    · exact s.failedAt_emit _ _ i
    · exact State.failedAt_of_links rfl (by rfl) i

theorem State.idleFlit_butWire (s : State) (n : Nat) : s.butWire (s.idleFlit n) := by
  unfold State.idleFlit; dsimp only
  split
  · exact State.butWire_trans (s.setLink_butWire _ _) (State.sendControl_butWire _ _ _ _)
  · exact s.butWire_refl
theorem State.sendControl_links (s : State) (n code arg : Nat) : (s.sendControl n code arg).links = s.links := by
  unfold State.sendControl; dsimp only
  split <;> rfl
theorem State.failedAt_idleFlit (s : State) (n i : Nat) : ((s.idleFlit n).link i).failedAt = (s.link i).failedAt := by
  unfold State.idleFlit; dsimp only
  split
  · exact State.failedAt_of_links (State.sendControl_links _ _ _ _) (by rfl) i
  · rfl

/-- A link that has not failed loses no module. -/
theorem State.lostOver_up {s : State} {n : Nat} (h : (s.link n).failedAt = none) : s.lostOver n = s := by
  simp [State.lostOver, h]

/-- The time base one tick on; a module in RESET passes into FWAUTH. -/
def State.ticked (s : State) : State :=
  { s with ticks := s.ticks + 1, regs := { s.regs with m := { s.regs.m with
      tbase := s.regs.m.tbase + 1, mstate := if fld s.regs.m.mstate 0 4 = 0 then putFld s.regs.m.mstate 0 4 1 else s.regs.m.mstate } } }

/-- The master tells every other module the time. -/
def State.tellTime (s : State) : State :=
  if s.isMaster then (List.range (s.nmod + 1)).foldl (fun u m =>
    if m = u.mid then u else u.sendMsg (u.message m 5 0 0 (leBytes 8 s.regs.m.tbase.toNat))) s else s

theorem execStoreTick_eq (s : State) :
    execStoreTick s = .next ((List.range 16).foldl State.lostOver ((List.range 16).foldl State.idleFlit s.ticked.tellTime)) := rfl

theorem State.tellTime_butWire (s : State) : s.butWire s.tellTime := by
  unfold State.tellTime
  split
  · refine List.foldlRecOn (motive := s.butWire) _ _ s.butWire_refl fun u hu m _ => ?_
    split
    · exact hu
    · exact State.butWire_trans hu (u.sendMsg_butWire _)
  · exact s.butWire_refl
theorem State.failedAt_tellTime (s : State) (i : Nat) : (s.tellTime.link i).failedAt = (s.link i).failedAt := by
  unfold State.tellTime
  split
  · refine foldl_keeps (fun u : State => (u.link i).failedAt) _ (fun u m => ?_) _ s
    split
    · rfl
    · exact u.failedAt_sendMsg _ i
  · rfl

theorem exec_storeTick {s : State} (hf : ∀ i, i < 16 → (s.link i).failedAt = none) :
    ∃ t, exec .storeTick s = .next t ∧ t.regs.m.tbase = s.regs.m.tbase + 1 ∧ t.ticks = s.ticks + 1 ∧ t.memory = s.memory ∧ t.core = s.core ∧
      t.others = s.others ∧ t.crucible = s.crucible := by
  have hidle : s.ticked.butWire ((List.range 16).foldl State.idleFlit s.ticked.tellTime) :=
    List.foldlRecOn (motive := s.ticked.butWire) _ _ s.ticked.tellTime_butWire
      fun u hu n _ => State.butWire_trans hu (u.idleFlit_butWire n)
  have hup (i : Nat) : (((List.range 16).foldl State.idleFlit s.ticked.tellTime).link i).failedAt = none := by
    rw [foldl_keeps (fun u : State => (u.link i).failedAt) State.idleFlit (fun u n => u.failedAt_idleFlit n i), State.failedAt_tellTime]
    by_cases hi : i < 16
    · exact hf i hi
    · simp [State.link, vget, hi, Link.zero]
  have hx : exec .storeTick s = .next ((List.range 16).foldl State.idleFlit s.ticked.tellTime) :=
    (execStoreTick_eq s).trans (congrArg _ (List.foldl_fixed' (fun n => State.lostOver_up (hup n)) _))
  obtain ⟨l, o, hu⟩ := hidle
  rw [hu] at hx
  exact ⟨_, hx, rfl, rfl, rfl, rfl, rfl, rfl⟩

end Sys2Proof.Machine
end

section
/-! ## A Crucible command completes
The event brings the command whose turn it is to its outcome (06 R164); how a command fails, and what its record leaves (06 R156). -/
namespace Sys2Proof.Machine
open Sys2Proof

variable {s : State} {k : Cmd}

/-! ### The event -/

/-- What becomes of a Crucible command whose turn it is and that has not failed; `none` while it waits. -/
def State.kOutcome (s : State) (k : Cmd) : Option State :=
  match k.ins with
  | .khash _ _ => some (s.doKhash k)
  | .klook _ o => some (s.doKlook k (o.flags.getLsbD 0) (o.flags.getLsbD 1) (o.flags.getLsbD 2))
  | .kopen _ _ => s.doKopen k
  | .kwr _ _ => some (s.doKwr k)
  | .kseal _ _ | .klease _ _ | .kref _ _ | .kunref _ _ | .kdrop _ _ => s.doNode k
  | .kld _ o => some (s.doKld k (o.flags.getLsbD 0))
  | .krepl _ _ => s.doKrepl k
  | .kstat _ _ => some (s.doKstat k)
  | _ => none

/-- An outcome leaves the core in focus in its place. -/
theorem State.kOutcome_cnum {t : State} (h : s.kOutcome k = some t) : t.core.cnum = s.core.cnum := by
  have hk : s.stores.KeepsSome (s.kOutcome k) := by unfold State.kOutcome; split <;> simp
  exact (hk t h).num

/-- The command whose turn it is comes to its outcome. -/
theorem exec_crucibleCommandComplete_turn {t : State} (hc : s.cmd k.seq = some k) (ha : k.asks = []) (he : k.err = 0)
    (ht : s.kTurn k = true) (ho : s.kOutcome k = some t) : exec (.crucibleCommandComplete s.core.cnum k.seq) s = .next t := by
  refine congrArg (enabledOr _) (State.atCore?_self s t _ ?_ (State.kOutcome_cnum ho))
  simp only [hc]
  rw [if_neg (by simp [ha, ht]), if_neg (not_not.2 he)]
  exact ho

/-! ### Ends -/

/-- A command that ends leaves the index. -/
@[simp] theorem State.finish_crucible (s : State) (k code) : (s.finish k code).crucible = s.crucible := by
  unfold State.finish; split <;> rfl
@[simp] theorem State.finish_regs (s : State) (k code) : (s.finish k code).regs = s.regs := by
  unfold State.finish; split <;> rfl

/-- What a state shows of a command that ended depends on its core alone. -/
theorem Ended.of_core {s t u : State} {code : BitVec 3} (h : Ended s t k code) (hu : u.core = t.core) : Ended s u k code := by
  unfold Ended at h ⊢
  rwa [hu]

/-- A command that fails leaves registers, memory and the index of the core and the module it runs on. -/
theorem State.kFail_spec {s t : State} (ht : t.core = s.core) (k : Cmd) (code : BitVec 3) :
    Ended s (t.kFail k code) k code ∧ (t.kFail k code).core.regs = s.core.regs ∧ (t.kFail k code).memory = t.memory ∧
    (t.kFail k code).crucible = t.crucible := by
  have hf (u : State) (hu : u.core = s.core) : Ended s (u.finish k code) k code ∧ (u.finish k code).core.regs = s.core.regs :=
    ⟨State.finish_ended (by rw [hu]) (by rw [hu]) k code, by rw [State.finish_core_regs, hu]⟩
  unfold State.kFail; dsimp only
  split
  · obtain ⟨he, hr⟩ := hf { t with regs := _ } ht
    exact ⟨he, hr, State.finish_memory _ _ _, State.finish_crucible _ _ _⟩
  · obtain ⟨he, hr⟩ := hf t ht
    exact ⟨he, hr, State.finish_memory _ _ _, State.finish_crucible _ _ _⟩

/-- The registers of the core with bytes delivered to every member (11 R263). -/
abbrev State.delivered (s : State) (a : Nat) (bs : List Byte) : Regs := (s.putBank (s.bankCellsAll true a bs)).core.regs

/-- A delivery to the scratchpad, and then the end of the command. Counters and the index may have changed before. -/
theorem State.kPut_finish_spec (s : State) (r : ModRegs) (c : Crucible) (k : Cmd) (a : Nat) (bs : List Byte) :
    let t := (State.kPut { s with regs := r, crucible := c } a bs).finish k 0
    Ended s t k 0 ∧ t.core.regs = s.delivered a bs ∧ t.memory = s.memory ∧ t.crucible = c ∧ t.regs = r :=
  ⟨State.finish_ended rfl rfl k 0, State.finish_core_regs _ _ _, State.finish_memory _ _ _, State.finish_crucible _ _ _, State.finish_regs _ _ _⟩

/-- The record of a command (R156). -/
theorem State.kRecord_spec (s : State) (r : ModRegs) (c : Crucible) (k : Cmd) (h : Word) {status depth probes hi w : Nat}
    (hw : status % 256 + depth % 65536 * 2 ^ 8 + probes % 256 * 2 ^ 24 + hi % 2 ^ 32 * 2 ^ 32 = w) :
    let t := State.kRecord { s with regs := r, crucible := c } k h status depth probes hi
    Ended s t k 0 ∧ t.core.regs = s.delivered (k.ops.getD 0 0).toNat (leBytes 8 h.toNat ++ leBytes 8 w) ∧ t.memory = s.memory ∧
    t.crucible = c ∧ t.regs = r := by
  obtain rfl := hw
  exact State.kPut_finish_spec s r c k _ _

end Sys2Proof.Machine
end

section
/-! ## Names, states of nodes and lookups
KHASH, KSTAT and KLOOK (06 R151, R152, R157). -/
namespace Sys2Proof.Machine
open Sys2Proof

variable {s : State} {k : Cmd}

theorem State.kBlock_of_okBanks {a n : Nat} (h : s.okBanks a n = true) : s.kBlock a n = some (s.bankRead 0 a n) := if_pos h
theorem State.recBad_of_okBanks {n : Nat} (ha : (k.ops.getD 0 0).toNat % n = 0) (h : s.okBanks (k.ops.getD 0 0).toNat n = true) :
    s.recBad k n = false := by
  simp only [State.recBad, ha, h, ne_eq, not_true_eq_false, decide_false, Bool.not_true, Bool.or_self]
theorem State.isRemote_zero (s : State) : s.isRemote 0 = false := rfl

/-! ### KHASH -/

theorem State.doKhash_names {b toks : List Byte} {p : NSpace} (hsp : k.spec = false) (hb : s.kBlock k.arg.toNat 32 = some b)
    (hs : s.space (BitVec.ofNat 64 (numAt b 0 8)) = some p) (h1 : 1 ≤ numAt b 24 1) (h64 : numAt b 24 1 ≤ 64) (hz : zeroAt b 25 7 = true)
    (hd : s.okBanks (k.ops.getD 0 0).toNat (16 * numAt b 24 1) = true)
    (ht : s.kBlock k.handle.toNat (4 * numAt b 24 1 * p.bt) = some toks) :
    s.doKhash k = (s.kPut (k.ops.getD 0 0).toNat ((hashNames p.ns p.bt toks (numAt b 24 1) (BitVec.ofNat 128 (numAt b 8 16))).flatMap
      (fun m => leBytes 16 m.toNat))).finish k 0 := by
  have hok : ¬(numAt b 24 1 = 0 ∨ 64 < numAt b 24 1 ∨ !zeroAt b 25 7 ∨ !s.okBanks (k.ops.getD 0 0).toNat (16 * numAt b 24 1) ∨
      (k.spec ∧ !s.inPairs (k.ops.getD 0 0).toNat (16 * numAt b 24 1))) := by
    rw [hz, hd, hsp]
    rintro (h | h | h | h | ⟨h, -⟩)
    · omega
    · omega
    · cases h
    · cases h
    · cases h
  unfold State.doKhash
  rw [hb]; dsimp only
  rw [hs]; dsimp only
  rw [if_neg hok, ht]; dsimp only
  rw [hsp, if_neg Bool.false_ne_true]

/-! ### KSTAT -/

theorem State.doKstat_local (ha : (k.ops.getD 0 0).toNat % 32 = 0) (hb : s.okBanks (k.ops.getD 0 0).toNat 32 = true)
    (hl : s.isRemote k.handle = false) :
    s.doKstat k = (s.kPut (k.ops.getD 0 0).toNat (match s.current k.handle with
      | some n => s.statBytes n
      | none => statNone)).finish k 0 := by
  unfold State.doKstat; dsimp only
  rw [State.recBad_of_okBanks ha hb, hl, if_neg Bool.false_ne_true, if_neg Bool.false_ne_true]
  cases s.current k.handle <;> rfl

/-! ### KLOOK -/

/-- Binary search over depths that are readable up to one of them finds it, with a probe for each halving. -/
theorem search_finds {readable : Nat → Option Bool} {depth n : Nat} (hr : ∀ d, 1 ≤ d → d ≤ n → readable d = some (decide (d ≤ depth))) :
    ∀ f lo hi probes, lo ≤ depth → depth ≤ hi → hi ≤ n → hi - lo < 2 ^ f →
      ∃ q, q ≤ f ∧ search readable f lo hi probes = .ok (depth, probes + q) := by
  intro f
  induction f with
  | zero =>
    intro lo hi probes hlo hhi _ hf
    obtain rfl : lo = depth := by omega
    exact ⟨0, le_rfl, rfl⟩
  | succ f ih =>
    intro lo hi probes hlo hhi hn hf
    rw [pow_succ] at hf
    unfold search
    by_cases hlt : lo < hi
    · rw [if_pos hlt]; dsimp only
      rw [hr _ (by omega) (by omega)]
      by_cases hd : lo + (hi - lo + 1) / 2 ≤ depth
      · obtain ⟨q, hq, h⟩ := ih (lo + (hi - lo + 1) / 2) hi (probes + 1) hd hhi hn (by omega)
        exact ⟨q + 1, by omega, by rw [decide_eq_true hd, ← Nat.add_assoc, Nat.add_right_comm]; exact h⟩
      · obtain ⟨q, hq, h⟩ := ih lo (lo + (hi - lo + 1) / 2 - 1) (probes + 1) hlo (by omega) (by omega) (by omega)
        exact ⟨q + 1, by omega, by rw [decide_eq_false hd, ← Nat.add_assoc, Nat.add_right_comm]; exact h⟩
    · rw [if_neg hlt]
      obtain rfl : lo = depth := by omega
      exact ⟨0, Nat.zero_le _, rfl⟩

/-- A lookup names at most 64 nodes. -/
theorem State.lookBlock_length {l : Look0} (h : s.lookBlock k = some l) : l.names.length ≤ 64 := by
  unfold State.lookBlock at h
  split at h
  · cases h
  · split at h
    · cases h
    · dsimp only at h
      split at h
      · cases h
      · split at h
        · cases h
        · split at h
          · cases h
            rw [List.length_map, List.length_range]
            omega
          · cases h

/-- Within this module a name gives the handle of its readable node, or none. -/
theorem State.lookHandle_local (s : State) (k : Cmd) (ns : Word) (i : Nat) (name : BitVec 128) :
    s.lookHandle k false ns i name = some (match s.readableName ns name with
      | some n => n.handle s.mid
      | none => 0) := by
  unfold State.lookHandle
  cases s.readableName ns name <;> rfl

theorem State.doKlook_noRight {l : Look0} (hst : k.stage = 0) (hl : s.lookBlock k = some l) (hr : l.p.right s.asid 0 = false) (verify ref dom) :
    s.doKlook k verify ref dom = s.lookDone k 0 10 0 0 0 l.names.length := by
  unfold State.doKlook
  rw [hl]; dsimp only
  rw [if_neg (by rw [hst]; decide), hr]; rfl

section
variable {l : Look0} {depth : Nat}

/-- The handle that a lookup of a prefix of a depth answers with. -/
def State.prefixHandle (s : State) (l : Look0) (depth : Nat) : Word :=
  match s.readableName l.p.ns (l.names.getD (depth - 1) 0) with
  | some nd => if depth = 0 then 0 else nd.handle s.mid
  | none => 0

/-- A probe finds whether its depth is one of those that are readable. -/
theorem State.probe_local (hrd : ∀ d, d < l.names.length → ((s.readableName l.p.ns (l.names.getD d 0)).isSome = true ↔ d < depth))
    (hnz : ∀ d nd, d < l.names.length → s.readableName l.p.ns (l.names.getD d 0) = some nd → nd.handle s.mid ≠ 0)
    {d : Nat} (h1 : 1 ≤ d) (h2 : d ≤ l.names.length) :
    (s.lookHandle k false l.p.ns (d - 1) (l.names.getD (d - 1) 0)).map (fun w => w != 0) = some (decide (d ≤ depth)) := by
  have hi := hrd (d - 1) (by omega)
  rw [State.lookHandle_local]
  cases hm : s.readableName l.p.ns (l.names.getD (d - 1) 0) with
  | none =>
    rw [hm] at hi
    have hgt : ¬d ≤ depth := fun h => Bool.false_ne_true (hi.2 (by omega))
    rw [decide_eq_false hgt]; rfl
  | some nd =>
    rw [hm] at hi
    have hle : d ≤ depth := by have := hi.1 rfl; omega
    rw [decide_eq_true hle]
    exact congrArg some (bne_iff_ne.2 (hnz _ nd (by omega) hm))

/-- What a plain lookup below the root finds is the longest readable prefix. -/
theorem State.lookResult_root (hh : k.handle = 0) (hn : l.names.length ≤ 64) (hd : depth ≤ l.names.length)
    (hrd : ∀ d, d < l.names.length → ((s.readableName l.p.ns (l.names.getD d 0)).isSome = true ↔ d < depth))
    (hnz : ∀ d nd, d < l.names.length → s.readableName l.p.ns (l.names.getD d 0) = some nd → nd.handle s.mid ≠ 0) (parent) :
    ∃ probes, probes ≤ 8 ∧ s.lookResult k false false l parent = .ok ⟨depth, s.prefixHandle l depth, probes, 0⟩ := by
  obtain ⟨q, hq, hsearch⟩ := search_finds (fun d h1 h2 => State.probe_local (k := k) hrd hnz h1 h2) 8 0 l.names.length 0
    (Nat.zero_le _) hd le_rfl (by omega)
  refine ⟨q, hq, ?_⟩
  unfold State.lookResult; dsimp only
  rw [hsearch]; dsimp only
  rw [if_neg Bool.false_ne_true]; dsimp only
  rw [State.lookHandle_local, hh, Nat.zero_add]
  unfold State.prefixHandle
  by_cases h0 : depth = 0
  · rw [if_pos h0]
    cases s.readableName l.p.ns (l.names.getD (depth - 1) 0) <;> simp [h0]
  · rw [if_neg h0]
    cases s.readableName l.p.ns (l.names.getD (depth - 1) 0) <;> simp [h0]

theorem State.doKlook_root (hst : k.stage = 0) (hh : k.handle = 0) (hl : s.lookBlock k = some l)
    (hr : l.p.right s.asid 0 = true) (hd : depth ≤ l.names.length)
    (hrd : ∀ d, d < l.names.length → ((s.readableName l.p.ns (l.names.getD d 0)).isSome = true ↔ d < depth))
    (hnz : ∀ d nd, d < l.names.length → s.readableName l.p.ns (l.names.getD d 0) = some nd → nd.handle s.mid ≠ 0) :
    ∃ probes, probes ≤ 8 ∧
      s.doKlook k false false false = s.lookDone k (s.prefixHandle l depth) 0 depth probes 0 l.names.length := by
  obtain ⟨q, hq, hres⟩ := State.lookResult_root hh (State.lookBlock_length hl) hd hrd hnz 0
  have hpar : s.lookParent k = some 0 := if_pos hh
  refine ⟨q, hq, ?_⟩
  unfold State.doKlook
  rw [hl]; dsimp only
  rw [if_neg (by rw [hst]; decide), hr, if_neg (by decide), hh, State.isRemote_zero, if_neg (fun h => Bool.false_ne_true h.1), hpar]; dsimp only
  rw [hres]; dsimp only
  unfold State.lookFound; dsimp only
  rw [if_pos (.inr rfl)]

end

/-- The record and the counters of a lookup. -/
theorem State.lookDone_spec (s : State) (k : Cmd) (h : Word) {status d probes n w : Nat}
    (hw : status % 256 + d % 65536 * 2 ^ 8 + probes % 256 * 2 ^ 24 = w) :
    let t := s.lookDone k h status d probes 0 n
    (Ended s t k 0 ∧ t.core.regs = s.delivered (k.ops.getD 0 0).toNat (leBytes 8 h.toNat ++ leBytes 8 w) ∧ t.memory = s.memory ∧
      t.crucible = s.crucible) ∧
    t.regs.telem.klookn = s.regs.telem.klookn + 1 ∧ t.regs.telem.klhit = s.regs.telem.klhit + BitVec.ofNat 64 d ∧
    t.regs.telem.klmiss = s.regs.telem.klmiss + BitVec.ofNat 64 (n - d) := by
  obtain ⟨he, hr, hm, hc, ht⟩ := State.kRecord_spec s _ s.crucible k h (hi := 0) ((Nat.add_zero _).trans hw)
  exact ⟨⟨he, hr, hm, hc⟩, congrArg (fun r : ModRegs => r.telem.klookn) ht, congrArg (fun r : ModRegs => r.telem.klhit) ht,
    congrArg (fun r : ModRegs => r.telem.klmiss) ht⟩

end Sys2Proof.Machine
end

section
/-! ## Nodes opened, written and read
KOPEN below the root, KWR and KLD of a node of this module (06 R143, R146, R153 to R156; 11 R285, Tables 11.7 and 11.8). -/
namespace Sys2Proof.Machine
open Sys2Proof

variable {s : State} {k : Cmd}

/-! ### KOPEN -/

/-- The tokens of a node's block. -/
def tokensOf (bt : Nat) (ts : List Byte) : List (BitVec 32) := (List.range bt).map (fun i => BitVec.ofNat 32 (numAt ts (4 * i) 4))

theorem State.doKopen_root {b ts : List Byte} {p : NSpace} (hh : k.handle = 0) (hb : s.kBlock k.arg.toNat 32 = some b)
    (hs : s.space (BitVec.ofNat 64 (numAt b 0 8)) = some p) (hlt : numAt b 24 4 < 2 ^ 20) (hz : zeroAt b 28 4 = true)
    (ht : s.kBlock (numAt b 24 4) (4 * p.bt) = some ts) (hr : s.recBad k 16 = false) :
    s.doKopen k = if nodeName p.ns 0 (tokensOf p.bt ts) = BitVec.ofNat 128 (numAt b 8 16)
      then s.openAt k p none (BitVec.ofNat 128 (numAt b 8 16)) ts else some (s.kFail k 2) := by
  have hok : ¬(s.recBad k 16 ∨ 2 ^ 20 ≤ numAt b 24 4 ∨ !zeroAt b 28 4) := by
    rw [hr, hz]
    rintro (h | h | h)
    · cases h
    · omega
    · cases h
  unfold State.doKopen
  rw [hb]; dsimp only
  rw [hs]; dsimp only
  rw [Nat.mod_eq_of_lt hlt, ht]; dsimp only
  rw [if_neg hok, if_pos hh]; rfl

section
variable {p : NSpace} {name : BitVec 128} {ts : List Byte}

/-- Without the right W a name opens nothing. -/
theorem State.openAt_noRight (hr : p.right s.caller.asid 1 = false) : s.openAt k p none name ts = some (s.kRecord k 0 10 0 0 0) := by
  unfold State.openAt; dsimp only
  rw [hr]; rfl

variable (hr : p.right s.caller.asid 1 = true) {n : KNode} {u : State}
include hr

theorem State.openAt_own (hn : s.named p.ns name = some n) (ho : n.ownedBy s.mid s.caller = true) (hu : s.takeRef s.caller n = some u) :
    s.openAt k p none name ts = some (u.kRecord k (n.handle s.mid) 0 n.depth 0 0) := by
  unfold State.openAt; dsimp only
  rw [hr, if_neg (by decide), if_neg (by decide), hn]; dsimp only
  rw [if_pos ho, hu]

theorem State.openAt_present (hn : s.named p.ns name = some n) (ho : n.ownedBy s.mid s.caller = false) (hp : n.st.readable = true)
    (hu : s.takeRef s.caller n = some u) : s.openAt k p none name ts = some (u.kRecord k (n.handle s.mid) 1 n.depth 0 0) := by
  unfold State.openAt; dsimp only
  rw [hr, if_neg (by decide), if_neg (by decide), hn]; dsimp only
  rw [ho, if_neg Bool.false_ne_true, if_pos hp, hu]

theorem State.openAt_busy (hn : s.named p.ns name = some n) (ho : n.ownedBy s.mid s.caller = false) (hp : n.st.readable = false) :
    s.openAt k p none name ts = some (s.kRecord k 0 2 0 0 0) := by
  unfold State.openAt; dsimp only
  rw [hr, if_neg (by decide), if_neg (by decide), hn]; dsimp only
  rw [ho, if_neg Bool.false_ne_true, hp, if_neg Bool.false_ne_true]

theorem State.openAt_new {a : Nat} (hn : s.named p.ns name = none) (hm : s.mayRef s.caller.serial = true)
    (hroom : s.roomFor p (4 * p.nlayer) = (.done, u)) (ha : u.headerPlace p = some a) :
    s.openAt k p none name ts = some ((((u.addNode (u.openNode p name 0 1 a s.caller)).putHeaders p (u.openNode p name 0 1 a s.caller) 0 ts).reclaimTest).kRecord
      k ((u.openNode p name 0 1 a s.caller).handle s.mid) 0 1 0 0) := by
  unfold State.openAt; dsimp only
  rw [hr, if_neg (by decide), if_neg (by decide), hn]; dsimp only
  rw [if_neg (by decide), hm, if_neg (by decide), hroom]; dsimp only
  rw [if_neg (by decide), ha]
end

/-- A generation is never 0 (R145). -/
theorem State.nextGen_ne_zero (s : State) (slot : Nat) : s.nextGen slot ≠ 0 := by
  unfold State.nextGen; dsimp only
  split
  · decide
  · assumption

/-! ### Nodes seen -/

theorem NState.readable_iff {t : NState} : t.readable = true ↔ t = .sealed ∨ t = .demoting := by
  cases t <;> decide
theorem NState.code_readable {t : NState} (h : t.readable = true) : t.code = 3 ∨ t.code = 4 := by
  rcases NState.readable_iff.1 h with rfl | rfl
  · exact .inl rfl
  · exact .inr rfl

theorem KNode.opened_of_ownedBy {n : KNode} {mid : Nat} {w : Caller} (h : n.ownedBy mid w = true) : n.st = .opened := by
  simp only [KNode.ownedBy, Bool.and_eq_true, beq_iff_eq] at h
  exact h.1.1.1

/-! ### KWR -/

/-- The rows that a KWR writes. -/
def planeRows (plane t m : Nat) : List (Nat × Nat) := (List.range m).map (fun i => (plane, t + i))

theorem mem_planeRows {plane t m a c : Nat} : (a, c) ∈ planeRows plane t m ↔ a = plane ∧ t ≤ c ∧ c < t + m := by
  simp only [planeRows, List.mem_map, List.mem_range, Prod.mk.injEq]
  constructor
  · rintro ⟨i, hi, rfl, rfl⟩
    omega
  · rintro ⟨rfl, h1, h2⟩
    exact ⟨c - t, by omega, rfl, by omega⟩

/-- Rows are marked once. -/
theorem mem_append_filter_new {w rows : List (Nat × Nat)} {e : Nat × Nat} :
    e ∈ w ++ rows.filter (fun r => !w.contains r) ↔ e ∈ w ∨ e ∈ rows := by
  rw [List.mem_append, List.mem_filter]
  by_cases h : e ∈ w <;> simp [h]

section
variable {n : KNode} {p : NSpace} (hs : s.space n.ns = some p)
include hs

theorem State.kwrError_none (hst : n.st = .opened) (hf : n.frozen = false) (ho : n.ownedBy s.mid s.caller = true)
    (hr : p.right s.asid 1 = true) (hb : s.okBanks (k.ops.getD 0 0).toNat ((fld k.arg 10 6 + 1) * p.rb) = true)
    (hl : fld k.arg 0 9 < p.nlayer) (ht : fld k.arg 16 6 + (fld k.arg 10 6 + 1) ≤ p.bt) :
    s.kwrError k (some (s.info s.caller n)) = 0 := by
  have hs' : s.space (s.info s.caller n).ns = some p := hs
  have hmay : ¬(!p.right s.asid 1 ∨ ((s.info s.caller n).st = 1 ∧ !(s.info s.caller n).mine)) := by
    rw [hr, show (s.info s.caller n).mine = true from ho]
    rintro (h | ⟨-, h⟩) <;> cases h
  have hlen : s.rowsLen (some (s.info s.caller n)) (fld k.arg 10 6 + 1) = (fld k.arg 10 6 + 1) * p.rb := by
    simp only [State.rowsLen, Option.bind_some, hs']
  unfold State.kwrError; dsimp only
  rw [hlen, hb, if_neg (by decide), hs']; dsimp only
  rw [if_neg hmay, if_neg (by omega), if_pos]
  simp [State.info, hst, hf, NState.code]

theorem State.doKwr_rows {b : Block} (hn : s.current k.handle = some n) (hl : s.isRemote k.handle = false) (hz : fld k.arg 22 42 = 0)
    (he : s.kwrError k (some (s.info s.caller n)) = 0) (hb : n.blocks.find? (fun (b : Block) => b.layer == fld k.arg 0 9) = some b) :
    s.doKwr k = ((s.setNode { n with written := n.written ++
        (planeRows (2 * fld k.arg 0 9 + (k.arg.getLsbD 9).toNat) (fld k.arg 16 6) (fld k.arg 10 6 + 1)).filter (fun r => !n.written.contains r) }).blockPut b
      ((k.arg.getLsbD 9).toNat * (p.bt * p.rb) + fld k.arg 16 6 * p.rb)
      (s.bankRead 0 (k.ops.getD 0 0).toNat ((fld k.arg 10 6 + 1) * p.rb))).finish k 0 := by
  have hv : (if k.arg.getLsbD 9 then p.bt * p.rb else 0) = (k.arg.getLsbD 9).toNat * (p.bt * p.rb) := by
    cases k.arg.getLsbD 9 <;> simp
  unfold State.doKwr
  rw [if_neg (not_not.2 hz), hl, if_neg Bool.false_ne_true]; dsimp only
  rw [hn, Option.map_some, if_neg (not_not.2 he)]; dsimp only
  rw [hs]; dsimp only
  rw [hb, hv]; rfl
end

/-! ### KLD -/

theorem State.doKld_fails {n : KNode} (hn : s.current k.handle = some n) (hl : s.isRemote k.handle = false) (hst : k.stage = 0) (verify)
    (he : s.kldError k (some (s.info s.caller n)) ≠ 0) (hsp : k.spec = false) :
    s.doKld k verify = s.kFail k (s.kldError k (some (s.info s.caller n))) := by
  unfold State.doKld; dsimp only
  rw [hl, if_neg Bool.false_ne_true, if_pos hst, hn, Option.map_some, if_pos he, State.specMarks, hsp]; rfl

theorem State.doKld_pins {n : KNode} (hn : s.current k.handle = some n) (hl : s.isRemote k.handle = false) (hst : k.stage = 0) (verify)
    (he : s.kldError k (some (s.info s.caller n)) = 0) :
    s.doKld k verify = (s.setNode { n with pins := n.pins ++ [s.pinId k] }).setCmd { k with stage := 1, pins := [n.slot] } := by
  unfold State.doKld; dsimp only
  rw [hl, if_neg Bool.false_ne_true, if_pos hst, hn, Option.map_some, if_neg (not_not.2 he)]; rfl

theorem State.doKld_delivers {n : KNode} {p : NSpace} (hl : s.isRemote k.handle = false) (hst : k.stage = 1) (hp : k.pins = [n.slot])
    (hn : s.node n.slot = some n) (hs : s.space n.ns = some p) (verify) :
    s.doKld k verify = ((s.kldTouch (some (s.pinId k)) n p k.arg).kldDeliver k (s.kldLens n p k.arg)
      (s.kldPieces (some (s.pinId k)) n p k.arg verify).1 (s.kldPieces (some (s.pinId k)) n p k.arg verify).2).releasePins k.pins (s.pinId k) := by
  unfold State.doKld; dsimp only
  rw [hl, if_neg Bool.false_ne_true, if_neg (by omega), hp, List.head?_cons, Option.bind_some, hn]; dsimp only
  rw [hs]; rfl

/-- A delivery to bank addresses that are all valid. -/
theorem State.kldDeliver_banks {ext : List (Nat × Nat)} (hsp : k.spec = false) (hring : k.ring = none)
    (hb : ∀ q ∈ ext, s.okBanks ((k.ops.getD 0 0).toNat + q.1) q.2 = true) (ps : List (Nat × List Byte)) (ue : Bool) :
    s.kldDeliver k ext ps ue =
      (ps.foldl (fun (u : State) q => u.kPut ((k.ops.getD 0 0).toNat + q.1) q.2) s).finish k (if ue then 3 else 0) := by
  have hd : s.kldDest k ext = some (k.ops.getD 0 0).toNat := by
    unfold State.kldDest; dsimp only
    rw [hring]
    exact if_pos (List.all_eq_true.2 fun q hq => by rw [hb q hq, hsp]; rfl)
  unfold State.kldDeliver; dsimp only
  rw [hsp, if_neg Bool.false_ne_true, hd]

/-- Pieces delivered leave commands, tokens and memory. -/
theorem foldl_kPut_spec {f : State → Nat × List Byte → State} (hf : ∀ u q, ∃ a bs, f u q = u.kPut a bs) (ps : List (Nat × List Byte))
    (s : State) : (ps.foldl f s).core.units = s.core.units ∧ (ps.foldl f s).memory = s.memory := by
  refine List.foldlRecOn (motive := fun u : State => u.core.units = s.core.units ∧ u.memory = s.memory) ps f ⟨rfl, rfl⟩ fun u hu q _ => ?_
  obtain ⟨a, bs, h⟩ := hf u q
  rw [h]
  exact hu

end Sys2Proof.Machine
end

section
/-! ## Commands on a node of this module
KSEAL, KLEASE, KREF, KUNREF, KDROP and KREPL where the handle is of this module (06 R144, R147, R148, R156, R157, R161). -/
namespace Sys2Proof.Machine
open Sys2Proof

variable {s : State} {k : Cmd}

/-! ### The record of a status -/

theorem State.kStatus_handle {st : Nat} (h : carriesHandle st = true) (depth hi : Nat) :
    s.kStatus k st depth hi = s.kRecord k k.handle st depth 0 hi := if_pos h
theorem State.kStatus_bare {st : Nat} (h : carriesHandle st = false) (depth hi : Nat) :
    s.kStatus k st depth hi = s.kRecord k 0 st 0 0 hi := by
  rw [State.kStatus, h]; rfl

/-! ### The checks -/

section
variable (hst : k.stage = 0) (hb : s.recBad k 16 = false) (hz : kOp k.ins = 0x2D → fld k.arg 32 32 = 0) (hl : s.isRemote k.handle = false)
include hst hb hz hl

/-- A command on a handle of this module whose record is well placed goes on to the checks of R374. -/
theorem State.doNode_local : s.doNode k =
    match s.kCheck (kOp k.ins) ((s.current k.handle).map (s.info s.caller)) with
    | .error e => some (s.kStop k e (depthOf ((s.current k.handle).map (s.info s.caller))))
    | .ok _ => match s.current k.handle with
      | none => none
      | some n =>
        let r := s.kAct s.caller (kOp k.ins) n k.arg
        if r.status = 254 then (if n.frozen then none else some r.s)
        else if r.status = 255 then some (r.s.setCmd { k with stage := 4, last := BitVec.ofNat 64 n.depth, limit := some n.slot })
        else some (r.s.kStatus k r.status n.depth r.hi) := by
  have hok : (s.recBad k 16 || (kOp k.ins == 0x2D && fld k.arg 32 32 != 0)) = false := by
    rw [hb, Bool.false_or, Bool.and_eq_false_imp]
    intro h
    rw [hz (beq_iff_eq.1 h)]; rfl
  unfold State.doNode; dsimp only
  exact (if_neg (by omega)).trans ((if_neg (Bool.eq_false_iff.1 hok)).trans (if_neg (Bool.eq_false_iff.1 hl)))

theorem State.doNode_gone (hn : s.current k.handle = none) : s.doNode k = some (s.kRecord k 0 7 0 0 0) := by
  rw [State.doNode_local hst hb hz hl, hn]
  exact congrArg some (State.kStatus_bare (st := 7) rfl 0 0)

section
variable {n : KNode} {p : NSpace} (hn : s.current k.handle = some n) (hs : s.space n.ns = some p)
  (hr : s.kRight (kOp k.ins) p (s.info s.caller n) = true)
include hn hs hr

theorem State.doNode_checked : s.doNode k =
    let r := s.kAct s.caller (kOp k.ins) n k.arg
    if r.status = 254 then (if n.frozen then none else some r.s)
    else if r.status = 255 then some (r.s.setCmd { k with stage := 4, last := BitVec.ofNat 64 n.depth, limit := some n.slot })
    else some (r.s.kStatus k r.status n.depth r.hi) := by
  have hcheck : s.kCheck (kOp k.ins) (some (s.info s.caller n)) = .ok () := by
    unfold State.kCheck; dsimp only
    rw [show (s.info s.caller n).ns = n.ns from rfl, hs]; dsimp only
    rw [hr, if_pos rfl]
  rw [State.doNode_local hst hb hz hl, hn, Option.map_some, hcheck]

/-- The command is done at once, with a record that carries its handle. -/
theorem State.doNode_done {st hi : Nat} {t : State} (ha : s.kAct s.caller (kOp k.ins) n k.arg = ⟨st, hi, t⟩) (hc : carriesHandle st = true) :
    s.doNode k = some (t.kRecord k k.handle st n.depth 0 hi) := by
  have h4 : st ≠ 254 := fun h => by rw [h] at hc; cases hc
  have h5 : st ≠ 255 := fun h => by rw [h] at hc; cases hc
  rw [State.doNode_checked hst hb hz hl hn hs hr, ha]; dsimp only
  rw [if_neg h4, if_neg h5, State.kStatus_handle hc]

theorem State.doNode_refused (ha : s.kAct s.caller (kOp k.ins) n k.arg = ⟨10, 0, s⟩) : s.doNode k = some (s.kRecord k 0 10 0 0 0) := by
  rw [State.doNode_checked hst hb hz hl hn hs hr, ha]
  exact congrArg some (State.kStatus_bare rfl n.depth 0)

theorem State.doNode_waits {t : State} (ha : s.kAct s.caller (kOp k.ins) n k.arg = ⟨254, 0, t⟩) (hf : n.frozen = false) :
    s.doNode k = some t := by
  rw [State.doNode_checked hst hb hz hl hn hs hr, ha]; dsimp only
  rw [if_pos rfl, hf, if_neg Bool.false_ne_true]

theorem State.doNode_seals {t : State} (ha : s.kAct s.caller (kOp k.ins) n k.arg = ⟨255, 0, t⟩) :
    s.doNode k = some (t.setCmd { k with stage := 4, last := BitVec.ofNat 64 n.depth, limit := some n.slot }) := by
  rw [State.doNode_checked hst hb hz hl hn hs hr, ha]; dsimp only
  rw [if_neg (by decide), if_pos rfl]
end
end

section
variable {n : KNode}

/-! ### Commands by opcode -/

theorem State.kAct_klease (w : Caller) (arg : Word) : s.kAct w 0x2D n arg =
    ⟨0, (if fld arg 0 32 = 0 then n.expiry else BitVec.ofNat 64 (max n.expiry.toNat (s.regs.m.tbase.toNat + fld arg 0 32))).toNat,
      s.setNode { n with expiry := if fld arg 0 32 = 0 then n.expiry
        else BitVec.ofNat 64 (max n.expiry.toNat (s.regs.m.tbase.toNat + fld arg 0 32)) }⟩ := rfl
theorem State.kAct_kref {w : Caller} {u : State} (h : s.takeRef w n = some u) (arg : Word) : s.kAct w 0x2E n arg = ⟨0, 0, u⟩ := by
  simp only [State.kAct, h]
theorem State.kAct_kunref (w : Caller) (arg : Word) : s.kAct w 0x2F n arg =
    if n.refsOf s.mid w = 0 then ⟨8, 0, s⟩ else ⟨0, 0, (s.setNode (n.unref s.mid w)).reclaimTest⟩ := rfl
theorem State.kAct_kdrop (w : Caller) (arg : Word) : s.kAct w 0x33 n arg =
    if n.ownedBy s.mid w then ⟨0, 0, (s.freeOpen n).reclaimTest⟩
    else if n.st.readable then ⟨0, 0, (s.setNode { n with expiry := 0 }).reclaimTest⟩ else ⟨10, 0, s⟩ := rfl

/-! ### References -/

/-- A node with one reference of the calling launch more. -/
def State.referred (s : State) (n : KNode) : KNode := { n with refs := insertN s.serialOf (n.refsOf s.mid s.caller + 1) n.refs }

theorem State.takeRef_caller (hc : n.refCount < 65535) (hm : s.mayRef s.serialOf = true) :
    s.takeRef s.caller n = some (s.setNode (s.referred n)) := by
  have hmay : ¬(65535 ≤ n.refCount ∨ (s.caller.mod = s.mid ∧ !s.mayRef s.caller.serial)) := by
    rintro (h | ⟨-, h⟩)
    · omega
    · rw [show s.mayRef s.caller.serial = true from hm] at h; cases h
  rw [State.takeRef, if_neg hmay, if_pos (show s.caller.mod = s.mid from rfl)]; rfl

/-- The references of a launch of this module. -/
theorem KNode.refsOf_caller (n : KNode) : n.refsOf s.mid s.caller = (lookupN s.serialOf n.refs).getD 0 := if_pos rfl

theorem State.refsOf_referred (s : State) (n : KNode) : (s.referred n).refsOf s.mid s.caller = n.refsOf s.mid s.caller + 1 := by
  rw [KNode.refsOf_caller, State.referred, lookupN_insertN]; rfl

theorem KNode.refsOf_unref (n : KNode) : (n.unref s.mid s.caller).refsOf s.mid s.caller = n.refsOf s.mid s.caller - 1 := by
  have hu : n.unref s.mid s.caller = { n with
      refs := if n.refsOf s.mid s.caller - 1 = 0 then eraseN s.serialOf n.refs
        else insertN s.serialOf (n.refsOf s.mid s.caller - 1) n.refs } := if_pos rfl
  rw [hu, KNode.refsOf_caller]
  split
  next h => rw [lookupN_eraseN, h]; rfl
  next h => rw [lookupN_insertN]; rfl

theorem KNode.unref_slot (n : KNode) (mid : Nat) (w : Caller) : (n.unref mid w).slot = n.slot := by
  unfold KNode.unref; dsimp only
  split <;> rfl

/-! ### Seals -/

section
variable {p : NSpace} {w : Caller} (hst : n.st = .opened) (ho : n.ownedBy s.mid w = true) (hs : s.space n.ns = some p)
include hst ho hs

theorem State.sealAct_owned : s.sealAct w n =
    if (s.parent n).map KNode.st = some .opened then ⟨5, 0, s⟩
    else if !n.complete p then ⟨4, 0, s⟩
    else if (s.parent n).map KNode.st = some .sealing then ⟨254, 0, s.setNode { n with frozen := true }⟩
    else ⟨255, 0, s.setNode { n with st := .sealing }⟩ := by
  unfold State.sealAct
  rw [hst, ho]; dsimp only
  rw [if_neg (by decide), hs]; dsimp only
  split
  next h => exact (if_pos h).symm
  next h => exact (if_neg h).symm

theorem State.sealAct_notReady (hp : (s.parent n).map KNode.st = some .opened) : s.sealAct w n = ⟨5, 0, s⟩ := by
  rw [State.sealAct_owned hst ho hs, if_pos hp]

/-- Below a parent that is not OPEN the rows decide. -/
theorem State.sealAct_below (hp : (s.parent n).map KNode.st ≠ some .opened) : s.sealAct w n =
    if !n.complete p then ⟨4, 0, s⟩
    else if (s.parent n).map KNode.st = some .sealing then ⟨254, 0, s.setNode { n with frozen := true }⟩
    else ⟨255, 0, s.setNode { n with st := .sealing }⟩ := by
  rw [State.sealAct_owned hst ho hs, if_neg hp]
end

theorem State.sealAct_notOwned {w : Caller} (hst : n.st = .opened) (ho : n.ownedBy s.mid w = false) : s.sealAct w n = ⟨10, 0, s⟩ := by
  unfold State.sealAct
  rw [hst, ho]; rfl
theorem State.sealAct_readable {w : Caller} (hr : n.st.readable = true) : s.sealAct w n = ⟨0, 0, s⟩ := by
  unfold State.sealAct
  rcases NState.readable_iff.1 hr with h | h <;> rw [h]

/-! ### Drops -/

/-- A node lies on its own chain. -/
theorem State.below_self (s : State) {n : KNode} (hd : 1 ≤ n.depth) : s.below n n = true := by
  obtain ⟨d, h⟩ : ∃ d, n.depth = d + 1 := ⟨n.depth - 1, by omega⟩
  rw [State.below, h, State.chain]
  simp

theorem KNode.not_ownedBy_of_readable {mid : Nat} {w : Caller} (h : n.st.readable = true) : n.ownedBy mid w = false := by
  refine Bool.eq_false_iff.2 fun ho => ?_
  rw [KNode.opened_of_ownedBy ho] at h
  cases h

/-! ### Replicas -/

theorem State.doKrepl_local (hb : s.recBad k 16 = false) (hl : s.isRemote k.handle = false) :
    s.doKrepl k = some (s.startRepl k ((s.current k.handle).map (s.info s.caller))) := by
  unfold State.doKrepl
  rw [hb, if_neg Bool.false_ne_true, hl]; rfl

theorem State.startRepl_here {p : NSpace} {m : KNode} (hs : s.space n.ns = some p) (hr : p.right s.asid 0 = true)
    (hh : s.holds s.caller n = true) (hst : n.st.readable = true) (hm : s.readableName n.ns n.name = some m) :
    s.startRepl k (some (s.info s.caller n)) = s.kRecord k (m.handle s.mid) 0 m.depth 0 0 := by
  have hright : ¬(!p.right s.asid 0 ∨ !(s.info s.caller n).held) := by
    rw [hr, show (s.info s.caller n).held = true from hh]
    rintro (h | h) <;> cases h
  unfold State.startRepl; dsimp only
  rw [show (s.info s.caller n).ns = n.ns from rfl, hs]; dsimp only
  rw [if_neg hright, if_neg (not_not.2 (show (s.info s.caller n).st = 3 ∨ (s.info s.caller n).st = 4 from NState.code_readable hst)),
    show (s.info s.caller n).name = n.name from rfl, hm]
end

end Sys2Proof.Machine
end

section
/-! ## What each Crucible command leaves
The outcome of each command with its record, registers, memory and index (06 R147 to R157, R161; 11 R285). -/
namespace Sys2Proof.Machine
open Sys2Proof

variable {s : State} {k : Cmd} {h : Head} {o : CK}

/-! ### Names, states, lookups -/

theorem State.kOutcome_khash_spec {b toks : List Byte} {p : NSpace} (hi : k.ins = .khash h o) (hsp : k.spec = false)
    (hb : s.kBlock k.arg.toNat 32 = some b) (hs : s.space (BitVec.ofNat 64 (numAt b 0 8)) = some p) (h1 : 1 ≤ numAt b 24 1)
    (h64 : numAt b 24 1 ≤ 64) (hz : zeroAt b 25 7 = true) (hd : s.okBanks (k.ops.getD 0 0).toNat (16 * numAt b 24 1) = true)
    (ht : s.kBlock k.handle.toNat (4 * numAt b 24 1 * p.bt) = some toks) :
    ∃ t, s.kOutcome k = some t ∧ Ended s t k 0 ∧ t.memory = s.memory ∧ t.crucible = s.crucible ∧
      t.core.regs = s.delivered (k.ops.getD 0 0).toNat
        ((hashNames p.ns p.bt toks (numAt b 24 1) (BitVec.ofNat 128 (numAt b 8 16))).flatMap (fun a => leBytes 16 a.toNat)) := by
  have hx : s.kOutcome k = some (s.doKhash k) := by rw [State.kOutcome, hi]
  rw [State.doKhash_names hsp hb hs h1 h64 hz hd ht] at hx
  obtain ⟨he, hr, hm, hc, -⟩ := State.kPut_finish_spec s s.regs s.crucible k _ _
  exact ⟨_, hx, he, hm, hc, hr⟩

theorem State.kOutcome_kstat_spec (hi : k.ins = .kstat h o) (ha : (k.ops.getD 0 0).toNat % 32 = 0)
    (hb : s.okBanks (k.ops.getD 0 0).toNat 32 = true) (hl : s.isRemote k.handle = false) :
    ∃ t, s.kOutcome k = some t ∧ Ended s t k 0 ∧ t.memory = s.memory ∧ t.crucible = s.crucible ∧
      t.core.regs = s.delivered (k.ops.getD 0 0).toNat (match s.current k.handle with
        | some nd => s.statBytes nd
        | none => statNone) := by
  have hx : s.kOutcome k = some (s.doKstat k) := by rw [State.kOutcome, hi]
  rw [State.doKstat_local ha hb hl] at hx
  obtain ⟨he, hr, hm, hc, -⟩ := State.kPut_finish_spec s s.regs s.crucible k _ _
  exact ⟨_, hx, he, hm, hc, hr⟩

theorem State.kOutcome_klook (hi : k.ins = .klook h o) (hf : o.flags = 0) : s.kOutcome k = some (s.doKlook k false false false) := by
  rw [State.kOutcome, hi]
  simp only [hf]
  rfl

section
variable {l : Look0} (hi : k.ins = .klook h o) (hst : k.stage = 0) (hl : s.lookBlock k = some l) (hf : o.flags = 0)
include hi hst hl hf

theorem State.kOutcome_klook_noRight (hr : l.p.right s.asid 0 = false) :
    ∃ t, s.kOutcome k = some t ∧ Ended s t k 0 ∧ t.core.regs = s.delivered (k.ops.getD 0 0).toNat (leBytes 8 0 ++ leBytes 8 10) ∧
      t.memory = s.memory ∧ t.crucible = s.crucible := by
  have hx := State.kOutcome_klook (s := s) hi hf
  rw [State.doKlook_noRight hst hl hr] at hx
  obtain ⟨hrec, -⟩ := State.lookDone_spec s k 0 (status := 10) (d := 0) (probes := 0) (n := l.names.length) rfl
  exact ⟨_, hx, hrec⟩

theorem State.kOutcome_klook_finds {depth : Nat} (hh : k.handle = 0) (hr : l.p.right s.asid 0 = true) (hd : depth ≤ l.names.length)
    (hrd : ∀ d, d < l.names.length → ((s.readableName l.p.ns (l.names.getD d 0)).isSome = true ↔ d < depth))
    (hnz : ∀ d nd, d < l.names.length → s.readableName l.p.ns (l.names.getD d 0) = some nd → nd.handle s.mid ≠ 0) :
    ∃ t probes, s.kOutcome k = some t ∧ Ended s t k 0 ∧ probes ≤ 8 ∧
      t.core.regs = s.delivered (k.ops.getD 0 0).toNat (leBytes 8 (s.prefixHandle l depth).toNat ++ leBytes 8 (depth * 2 ^ 8 + probes * 2 ^ 24)) ∧
      t.regs.telem.klookn = s.regs.telem.klookn + 1 ∧ t.regs.telem.klhit = s.regs.telem.klhit + BitVec.ofNat 64 depth ∧
      t.regs.telem.klmiss = s.regs.telem.klmiss + BitVec.ofNat 64 (l.names.length - depth) ∧
      t.memory = s.memory ∧ t.crucible = s.crucible := by
  have hx := State.kOutcome_klook (s := s) hi hf
  have hn := State.lookBlock_length hl
  obtain ⟨q, hq, hlook⟩ := State.doKlook_root hst hh hl hr hd hrd hnz
  rw [hlook] at hx
  obtain ⟨⟨he, hregs, hm, hc⟩, hlooks, hhits, hmisses⟩ := State.lookDone_spec s k (s.prefixHandle l depth) (status := 0) (d := depth) (probes := q)
    (n := l.names.length) (w := depth * 2 ^ 8 + q * 2 ^ 24)
    (by rw [Nat.mod_eq_of_lt (by omega : depth < 65536), Nat.mod_eq_of_lt (by omega : q < 256), Nat.zero_mod, Nat.zero_add])
  exact ⟨_, q, hx, he, hq, hregs, hlooks, hhits, hmisses, hm, hc⟩
end

/-- The handle of a prefix as a number. -/
theorem State.prefixHandle_toNat (s : State) (l : Look0) (depth : Nat) : (s.prefixHandle l depth).toNat =
    match s.readableName l.p.ns (l.names.getD (depth - 1) 0) with
    | some nd => if depth = 0 then 0 else (nd.handle s.mid).toNat
    | none => 0 := by
  unfold State.prefixHandle
  cases s.readableName l.p.ns (l.names.getD (depth - 1) 0) with
  | none => rfl
  | some nd => exact apply_ite BitVec.toNat _ _ _

/-! ### A root node opened -/

/-- A node opened below the root belongs to its caller, who has the first reference; nothing of it is written. -/
theorem State.openAt_new_spec {u : State} {p : NSpace} {name : BitVec 128} {ts : List Byte} {a : Nat}
    (hr : p.right s.caller.asid 1 = true) (hn : s.named p.ns name = none) (hm : s.mayRef s.caller.serial = true)
    (hroom : s.roomFor p (4 * p.nlayer) = (.done, u)) (ha : u.headerPlace p = some a) :
    ∃ (v : State) (nd : KNode), s.openAt k p none name ts = some (v.reclaimTest.kRecord k (nd.handle s.mid) 0 1 0 0) ∧
      v.crucible.nodes = u.crucible.nodes ++ [nd] ∧ nd.st = .opened ∧ nd.ns = p.ns ∧ nd.name = name ∧ nd.parent = 0 ∧
      nd.owner = s.caller.serial ∧ nd.asid = s.caller.asid ∧ nd.refs = [(s.caller.serial, 1)] ∧ nd.gen ≠ 0 ∧ nd.expiry = 0 ∧ nd.written = [] ∧
      nd.hdr = a := by
  have hput := (u.addNode (u.openNode p name 0 1 a s.caller)).putHeaders_butHome p (u.openNode p name 0 1 a s.caller) 0 ts
  exact ⟨_, u.openNode p name 0 1 a s.caller, State.openAt_new hr hn hm hroom ha, congrArg Crucible.nodes hput.crucible, rfl, rfl, rfl, rfl,
    rfl, rfl, rfl, u.nextGen_ne_zero _, rfl, rfl, rfl⟩

/-! ### KLD -/

section
variable {n : KNode} {p : NSpace} (hi : k.ins = .kld h o) (hl : s.isRemote k.handle = false)
  (hn : s.current k.handle = some n)
include hi hl hn

theorem State.kOutcome_kld_pins (hc : s.cmd k.seq = some k) (hst : k.stage = 0) (he : s.kldError k (some (s.info s.caller n)) = 0) :
    ∃ t, s.kOutcome k = some t ∧ t.cmd k.seq = some { k with stage := 1, pins := [n.slot] } ∧
      t.node n.slot = some { n with pins := n.pins ++ [s.pinId k] } ∧ t.core.regs = s.core.regs ∧ t.memory = s.memory := by
  have hx : s.kOutcome k = some (s.doKld k (o.flags.getLsbD 0)) := by rw [State.kOutcome, hi]
  rw [State.doKld_pins hn hl hst _ he] at hx
  exact ⟨_, hx, State.cmd_setCmd (s := s.setNode _) hc rfl,
    State.node_setNode_of_slot (State.node_of_current hn), rfl, rfl⟩

theorem State.kOutcome_kld_fails (hsp : k.spec = false) (hst : k.stage = 0) (he : s.kldError k (some (s.info s.caller n)) ≠ 0) :
    ∃ t, s.kOutcome k = some t ∧ Ended s t k (s.kldError k (some (s.info s.caller n))) ∧ t.core.regs = s.core.regs ∧
      t.memory = s.memory ∧ t.crucible = s.crucible := by
  have hx : s.kOutcome k = some (s.doKld k (o.flags.getLsbD 0)) := by rw [State.kOutcome, hi]
  rw [State.doKld_fails hn hl hst _ he hsp] at hx
  exact ⟨_, hx, State.kFail_spec rfl k _⟩

theorem State.kOutcome_kld_delivers (hsp : k.spec = false) (hs : s.space n.ns = some p) (hst : k.stage = 1) (hp : k.pins = [n.slot]) (hring : k.ring = none)
    (hb : ∀ q ∈ s.kldLens n p k.arg, (s.kldTouch (some (s.pinId k)) n p k.arg).okBanks ((k.ops.getD 0 0).toNat + q.1) q.2 = true) :
    ∃ t, s.kOutcome k = some t ∧
      Ended s t k (if (s.kldPieces (some (s.pinId k)) n p k.arg (o.flags.getLsbD 0)).2 then 3 else 0) ∧ t.memory.mem = s.memory.mem ∧
      t.core.regs = ((s.kldPieces (some (s.pinId k)) n p k.arg (o.flags.getLsbD 0)).1.foldl
        (fun (u : State) q => u.kPut ((k.ops.getD 0 0).toNat + q.1) q.2) (s.kldTouch (some (s.pinId k)) n p k.arg)).core.regs := by
  have hx : s.kOutcome k = some (s.doKld k (o.flags.getLsbD 0)) := by rw [State.kOutcome, hi]
  rw [State.doKld_delivers hl hst hp (State.node_of_current hn) hs, State.kldDeliver_banks hsp hring hb] at hx
  obtain ⟨l2, htouch⟩ := s.kldTouch_spec (some (s.pinId k)) n p k.arg
  obtain ⟨hunits, hmem⟩ := foldl_kPut_spec (f := fun u q => u.kPut ((k.ops.getD 0 0).toNat + q.1) q.2) (fun _ _ => ⟨_, _, rfl⟩)
    (s.kldPieces (some (s.pinId k)) n p k.arg (o.flags.getLsbD 0)).1 (s.kldTouch (some (s.pinId k)) n p k.arg)
  refine ⟨_, hx, Ended.of_core (State.finish_ended ?_ ?_ k _) (State.releasePins_core _ _ _), ?_, ?_⟩
  · rw [hunits, htouch]
  · rw [hunits, htouch]
  · rw [State.releasePins_mem, State.finish_memory, hmem, htouch]
  · rw [State.releasePins_core, State.finish_core_regs]
end

/-! ### Records of commands on a node -/

/-- The registers of the core with the record of a command on a node of a depth, with its handle. -/
abbrev State.nodeRecord (s : State) (k : Cmd) (depth status hi : Nat) : Regs := s.delivered (k.ops.getD 0 0).toNat
  (leBytes 8 k.handle.toNat ++ leBytes 8 (status + depth % 65536 * 2 ^ 8 + hi % 2 ^ 32 * 2 ^ 32))

theorem State.kRecord_node (s : State) (c : Crucible) (k : Cmd) (depth : Nat) {status : Nat} (hi : Nat) (hs : status < 256) :
    let t := State.kRecord { s with crucible := c } k k.handle status depth 0 hi
    Ended s t k 0 ∧ t.core.regs = s.nodeRecord k depth status hi ∧ t.memory = s.memory ∧ t.crucible = c := by
  obtain ⟨he, hr, hm, hc, -⟩ := State.kRecord_spec s s.regs c k k.handle (status := status) (depth := depth) (probes := 0) (hi := hi)
    (w := status + depth % 65536 * 2 ^ 8 + hi % 2 ^ 32 * 2 ^ 32)
    (by rw [Nat.mod_eq_of_lt hs, Nat.zero_mod, Nat.zero_mul, Nat.add_zero])
  exact ⟨he, hr, hm, hc⟩

/-- A record without a handle. -/
theorem State.kRecord_bare (s : State) (k : Cmd) {status : Nat} (hs : status < 256) :
    let t := s.kRecord k 0 status 0 0 0
    Ended s t k 0 ∧ t.core.regs = s.delivered (k.ops.getD 0 0).toNat (leBytes 8 0 ++ leBytes 8 status) ∧ t.memory = s.memory ∧
    t.crucible = s.crucible := by
  obtain ⟨he, hr, hm, hc, -⟩ := State.kRecord_spec s s.regs s.crucible k 0 (status := status) (depth := 0) (probes := 0) (hi := 0) (w := status)
    (by rw [Nat.mod_eq_of_lt hs]; rfl)
  exact ⟨he, hr, hm, hc⟩

section
variable (hst : k.stage = 0) (hb : s.recBad k 16 = false) (hl : s.isRemote k.handle = false)
include hst hb hl

/-- A handle that is not current is GONE. -/
theorem State.kOutcome_gone (hn : s.current k.handle = none)
    (hi : (k.ins = .klease h o ∧ fld k.arg 32 32 = 0) ∨ k.ins = .kref h o ∨ k.ins = .kunref h o ∨ k.ins = .kseal h o ∨ k.ins = .kdrop h o ∨
      k.ins = .krepl h o) :
    ∃ t, s.kOutcome k = some t ∧ Ended s t k 0 ∧ t.core.regs = s.delivered (k.ops.getD 0 0).toNat (leBytes 8 0 ++ leBytes 8 7) ∧
      t.memory = s.memory ∧ t.crucible = s.crucible := by
  have hx : s.kOutcome k = some (s.kRecord k 0 7 0 0 0) := by
    have hnode (hk : s.kOutcome k = s.doNode k) (hz : kOp k.ins = 0x2D → fld k.arg 32 32 = 0) :=
      hk.trans (State.doNode_gone hst hb hz hl hn)
    rcases hi with ⟨hi, hz⟩ | hi | hi | hi | hi | hi
    · exact hnode (by rw [State.kOutcome, hi]) fun _ => hz
    · exact hnode (by rw [State.kOutcome, hi]) fun hz => by rw [hi] at hz; cases hz
    · exact hnode (by rw [State.kOutcome, hi]) fun hz => by rw [hi] at hz; cases hz
    · exact hnode (by rw [State.kOutcome, hi]) fun hz => by rw [hi] at hz; cases hz
    · exact hnode (by rw [State.kOutcome, hi]) fun hz => by rw [hi] at hz; cases hz
    · rw [State.kOutcome, hi]; dsimp only
      rw [State.doKrepl_local hb hl, hn]; rfl
  exact ⟨_, hx, s.kRecord_bare k (by decide)⟩

variable {n : KNode} {p : NSpace} (hn : s.current k.handle = some n) (hs : s.space n.ns = some p)
include hn hs

/-- A command that is done at once, and changes no more than the index, leaves its record. -/
theorem State.kOutcome_node_done {c : Crucible} {st hi : Nat} (hk : s.kOutcome k = s.doNode k) (hz : kOp k.ins = 0x2D → fld k.arg 32 32 = 0)
    (hr : s.kRight (kOp k.ins) p (s.info s.caller n) = true)
    (ha : s.kAct s.caller (kOp k.ins) n k.arg = ⟨st, hi, { s with crucible := c }⟩) (hc : carriesHandle st = true) (hlt : st < 256) :
    ∃ t, s.kOutcome k = some t ∧ Ended s t k 0 ∧ t.core.regs = s.nodeRecord k n.depth st hi ∧ t.memory = s.memory ∧ t.crucible = c :=
  ⟨_, hk.trans (State.doNode_done hst hb hz hl hn hs hr ha hc),
    s.kRecord_node c k n.depth hi hlt⟩

theorem State.kOutcome_kref (hi : k.ins = .kref h o) (hr : p.right s.asid 0 = true) (hc : n.refCount < 65535) (hm : s.mayRef s.serialOf = true) :
    ∃ t, s.kOutcome k = some t ∧ Ended s t k 0 ∧ t.core.regs = s.nodeRecord k n.depth 0 0 ∧ t.memory = s.memory ∧
      (t.node n.slot).map (fun m => m.refsOf s.mid s.caller) = some (n.refsOf s.mid s.caller + 1) := by
  have hop : kOp k.ins = 0x2E := by rw [hi]; rfl
  obtain ⟨t, ho, he, hregs, hmem, hcr⟩ := State.kOutcome_node_done hst hb hl hn hs (by rw [State.kOutcome, hi]) (fun hz => by rw [hop] at hz; cases hz)
    (by rw [hop]; exact hr) (by rw [hop]; exact State.kAct_kref (State.takeRef_caller hc hm) _) rfl (by decide)
  refine ⟨t, ho, he, hregs, hmem, ?_⟩
  rw [State.node_of_crucible (s := s.setNode (s.referred n)) hcr, State.node_setNode_of_slot (n := s.referred n) (State.node_of_current hn),
    Option.map_some, State.refsOf_referred]

theorem State.kOutcome_kunref_none (hi : k.ins = .kunref h o) (h0 : n.refsOf s.mid s.caller = 0) :
    ∃ t, s.kOutcome k = some t ∧ Ended s t k 0 ∧ t.core.regs = s.nodeRecord k n.depth 8 0 ∧ t.crucible = s.crucible := by
  have hop : kOp k.ins = 0x2F := by rw [hi]; rfl
  obtain ⟨t, ho, he, hregs, -, hcr⟩ := State.kOutcome_node_done hst hb hl hn hs (by rw [State.kOutcome, hi]) (fun hz => by rw [hop] at hz; cases hz)
    (by rw [hop]; rfl) (by rw [hop, State.kAct_kunref, if_pos h0]) rfl (by decide)
  exact ⟨t, ho, he, hregs, hcr⟩

theorem State.kOutcome_kunref (hi : k.ins = .kunref h o) (h0 : n.refsOf s.mid s.caller ≠ 0) :
    ∃ u : State, s.kOutcome k = some (u.reclaimTest.kRecord k k.handle 0 n.depth 0 0) ∧ u.memory = s.memory ∧
      (u.node n.slot).map (fun m => m.refsOf s.mid s.caller) = some (n.refsOf s.mid s.caller - 1) := by
  have hop : kOp k.ins = 0x2F := by rw [hi]; rfl
  have hact : s.kAct s.caller (kOp k.ins) n k.arg = ⟨0, 0, (s.setNode (n.unref s.mid s.caller)).reclaimTest⟩ := by
    rw [hop, State.kAct_kunref, if_neg h0]
  refine ⟨s.setNode (n.unref s.mid s.caller), (show s.kOutcome k = s.doNode k by rw [State.kOutcome, hi]).trans
    (State.doNode_done hst hb (fun hz => by rw [hop] at hz; cases hz) hl hn hs (by rw [hop]; rfl) hact rfl), rfl, ?_⟩
  rw [State.node_setNode_of_slot (State.node_of_current hn) (n.unref_slot _ _), Option.map_some, KNode.refsOf_unref]

theorem State.kOutcome_klease (hi : k.ins = .klease h o) (hr : p.right s.asid 2 = true) (hz : fld k.arg 32 32 = 0) {e : Word}
    (he : (if fld k.arg 0 32 = 0 then n.expiry else BitVec.ofNat 64 (max n.expiry.toNat (s.regs.m.tbase.toNat + fld k.arg 0 32))) = e) :
    ∃ t, s.kOutcome k = some t ∧ Ended s t k 0 ∧ t.core.regs = s.nodeRecord k n.depth 0 e.toNat ∧ t.memory = s.memory ∧
      (t.node n.slot).map (fun m => m.expiry) = some e := by
  have hop : kOp k.ins = 0x2D := by rw [hi]; rfl
  obtain ⟨t, ho, hend, hregs, hmem, hcr⟩ := State.kOutcome_node_done hst hb hl hn hs (by rw [State.kOutcome, hi]) (fun _ => hz)
    (by rw [hop]; exact hr) (by rw [hop, State.kAct_klease, he]; rfl) rfl (by decide)
  refine ⟨t, ho, hend, hregs, hmem, ?_⟩
  rw [State.node_of_crucible (s := s.setNode { n with expiry := e }) hcr,
    State.node_setNode_of_slot (n := { n with expiry := e }) (State.node_of_current hn)]
  rfl

/-! ### KSEAL -/

section
variable (hi : k.ins = .kseal h o) (hr : p.right s.asid 1 = true)
include hi hr

/-- A KSEAL that is answered at once changes nothing. -/
theorem State.kOutcome_kseal_done {st : Nat} (ha : s.sealAct s.caller n = ⟨st, 0, s⟩) (hc : carriesHandle st = true) (hlt : st < 256) :
    ∃ t, s.kOutcome k = some t ∧ Ended s t k 0 ∧ t.core.regs = s.nodeRecord k n.depth st 0 ∧ t.crucible = s.crucible := by
  have hop : kOp k.ins = 0x2C := by rw [hi]; rfl
  obtain ⟨t, ho, he, hregs, -, hcr⟩ := State.kOutcome_node_done hst hb hl hn hs (by rw [State.kOutcome, hi]) (fun hz => by rw [hop] at hz; cases hz)
    (by rw [hop]; exact hr) (by rw [hop]; exact ha) hc hlt
  exact ⟨t, ho, he, hregs, hcr⟩

theorem State.kOutcome_kseal_notOwned (ho : n.st = .opened) (hw : n.ownedBy s.mid s.caller = false) :
    ∃ t, s.kOutcome k = some t ∧ Ended s t k 0 ∧ t.core.regs = s.delivered (k.ops.getD 0 0).toNat (leBytes 8 0 ++ leBytes 8 10) := by
  have hop : kOp k.ins = 0x2C := by rw [hi]; rfl
  obtain ⟨he, hregs, -⟩ := s.kRecord_bare k (status := 10) (by decide)
  exact ⟨_, (show s.kOutcome k = s.doNode k by rw [State.kOutcome, hi]).trans (State.doNode_refused hst hb (fun hz => by rw [hop] at hz; cases hz) hl hn hs
    (by rw [hop]; exact hr) (by rw [hop]; exact State.sealAct_notOwned ho hw)), he, hregs⟩

variable (ho : n.st = .opened) (hw : n.ownedBy s.mid s.caller = true) (hcomp : n.complete p = true)
include ho hw hcomp

theorem State.kOutcome_kseal_waits (hp : (s.parent n).map KNode.st = some .sealing) (hf : n.frozen = false) :
    ∃ t, s.kOutcome k = some t ∧ t.node n.slot = some { n with frozen := true } ∧ t.core = s.core := by
  have hop : kOp k.ins = 0x2C := by rw [hi]; rfl
  have hact : s.sealAct s.caller n = ⟨254, 0, s.setNode { n with frozen := true }⟩ := by
    rw [State.sealAct_below ho hw hs (by rw [hp]; decide), hcomp, if_neg (by decide), if_pos hp]
  exact ⟨_, (show s.kOutcome k = s.doNode k by rw [State.kOutcome, hi]).trans (State.doNode_waits hst hb (fun hz => by rw [hop] at hz; cases hz) hl hn hs
    (by rw [hop]; exact hr) (by rw [hop]; exact hact) hf), State.node_setNode_of_slot (State.node_of_current hn), rfl⟩

theorem State.kOutcome_kseal_starts (hc : s.cmd k.seq = some k) (h1 : (s.parent n).map KNode.st ≠ some .opened)
    (h2 : (s.parent n).map KNode.st ≠ some .sealing) :
    ∃ t, s.kOutcome k = some t ∧ t.node n.slot = some { n with st := .sealing } ∧
      t.cmd k.seq = some { k with stage := 4, last := BitVec.ofNat 64 n.depth, limit := some n.slot } ∧
      t.core.regs = s.core.regs ∧ t.memory = s.memory := by
  have hop : kOp k.ins = 0x2C := by rw [hi]; rfl
  have hact : s.sealAct s.caller n = ⟨255, 0, s.setNode { n with st := .sealing }⟩ := by
    rw [State.sealAct_below ho hw hs h1, hcomp, if_neg (by decide), if_neg h2]
  refine ⟨_, (show s.kOutcome k = s.doNode k by rw [State.kOutcome, hi]).trans (State.doNode_seals hst hb (fun hz => by rw [hop] at hz; cases hz) hl hn hs
    (by rw [hop]; exact hr) (by rw [hop]; exact hact)), ?_, State.cmd_setCmd (s := s.setNode _) hc rfl, rfl, rfl⟩
  exact State.node_setNode_of_slot (n := { n with st := .sealing }) (State.node_of_current hn)
end

/-! ### KDROP -/

theorem State.kOutcome_kdrop_open (hi : k.ins = .kdrop h o) (hw : n.ownedBy s.mid s.caller = true) (hd : 1 ≤ n.depth) :
    ∃ u : State, s.kOutcome k = some (u.reclaimTest.kRecord k k.handle 0 n.depth 0 0) ∧ u.memory = s.memory ∧
      n ∉ u.crucible.nodes ∧ ∀ m ∈ s.crucible.nodes, m.st ≠ .opened → m ∈ u.crucible.nodes := by
  have hop : kOp k.ins = 0x33 := by rw [hi]; rfl
  have ho := KNode.opened_of_ownedBy hw
  have hright : s.kRight 0x33 p (s.info s.caller n) = true := by simp [State.kRight, State.info, ho, NState.code]
  have hact : s.kAct s.caller (kOp k.ins) n k.arg = ⟨0, 0, (s.freeOpen n).reclaimTest⟩ := by rw [hop, State.kAct_kdrop, if_pos hw]
  refine ⟨s.freeOpen n, (show s.kOutcome k = s.doNode k by rw [State.kOutcome, hi]).trans
    (State.doNode_done hst hb (fun hz => by rw [hop] at hz; cases hz) hl hn hs (by rw [hop]; exact hright) hact rfl), rfl, fun hm => ?_, fun m hm hmo => ?_⟩
  · have := (List.mem_filter.1 hm).2
    rw [ho, s.below_self hd] at this
    cases this
  · exact List.mem_filter.2 ⟨hm, by simp [hmo]⟩

theorem State.kOutcome_kdrop_lease (hi : k.ins = .kdrop h o) (hrd : n.st.readable = true) (hr : p.right s.asid 3 = true) :
    ∃ u : State, s.kOutcome k = some (u.reclaimTest.kRecord k k.handle 0 n.depth 0 0) ∧ u.memory = s.memory ∧
      u.node n.slot = some { n with expiry := 0 } := by
  have hop : kOp k.ins = 0x33 := by rw [hi]; rfl
  have hright : s.kRight 0x33 p (s.info s.caller n) = true := by simp [State.kRight, hr]
  have hact : s.kAct s.caller (kOp k.ins) n k.arg = ⟨0, 0, (s.setNode { n with expiry := 0 }).reclaimTest⟩ := by
    rw [hop, State.kAct_kdrop, KNode.not_ownedBy_of_readable hrd, if_neg Bool.false_ne_true, if_pos hrd]
  exact ⟨s.setNode { n with expiry := 0 }, (show s.kOutcome k = s.doNode k by rw [State.kOutcome, hi]).trans
    (State.doNode_done hst hb (fun hz => by rw [hop] at hz; cases hz) hl hn hs (by rw [hop]; exact hright) hact rfl), rfl,
    State.node_setNode_of_slot (State.node_of_current hn)⟩

end

/-! ### KREPL -/

theorem State.kOutcome_krepl_here {n m : KNode} {p : NSpace} (hb : s.recBad k 16 = false) (hl : s.isRemote k.handle = false)
    (hn : s.current k.handle = some n) (hs : s.space n.ns = some p) (hi : k.ins = .krepl h o) (hr : p.right s.asid 0 = true) (hh : s.holds s.caller n = true)
    (hrd : n.st.readable = true) (hm : s.readableName n.ns n.name = some m) :
    ∃ t, s.kOutcome k = some t ∧ Ended s t k 0 ∧ t.memory = s.memory ∧ t.crucible = s.crucible ∧
      t.core.regs = s.delivered (k.ops.getD 0 0).toNat (leBytes 8 (m.handle s.mid).toNat ++ leBytes 8 (m.depth % 65536 * 2 ^ 8)) := by
  have hx : s.kOutcome k = some (s.kRecord k (m.handle s.mid) 0 m.depth 0 0) := by
    rw [State.kOutcome, hi]; dsimp only
    rw [State.doKrepl_local hb hl, hn, Option.map_some, State.startRepl_here hs hr hh hrd hm]
  obtain ⟨he, hregs, hmem, hcr, -⟩ := State.kRecord_spec s s.regs s.crucible k (m.handle s.mid) (status := 0) (depth := m.depth) (probes := 0)
    (hi := 0) (w := m.depth % 65536 * 2 ^ 8) (by omega)
  exact ⟨_, hx, he, hmem, hcr, hregs⟩

end Sys2Proof.Machine
end

section
/-! ## Replica blocks, and the statement
REPLICA_BLOCK_MOVED (06 R141, R161), and the events and commands of the store put together. -/
namespace Sys2Proof.Machine
open Sys2Proof

variable {s : State} {k : Cmd}

/-! ### A block of a replica -/

theorem exec_replicaBlockMoved_moves {h : Head} {o : CK} {t : State} (hc : s.cmd k.seq = some k) (hi : k.ins = .krepl h o)
    (hst : k.stage = 2) (ha : k.asks = []) (he : k.err = 0) (hm : s.moveBlock k = some t) :
    exec (.replicaBlockMoved s.core.cnum k.seq) s = .next t := by
  have hk : s.stores.KeepsSome (s.moveBlock k) := State.moveBlock_keeps (.refl _) k
  refine congrArg (enabledOr _) (State.atCore?_self s t _ ?_ (hk t hm).num)
  simp only [hc, hi]
  rw [if_neg (by simp [hst, ha, he]), hm]

/-- A replica that ends with error 3 frees its slot and leaves the core where it was (R141, R161). -/
theorem State.replicaDropped_kFail {u : State} (hu : u.core = s.core) (k : Cmd) (i : Nat) :
    Ended s ((((u.dropNode i).replEnd k).reclaimTest).kFail k 3) k 3 ∧
      ((((u.dropNode i).replEnd k).reclaimTest).kFail k 3).node i = none := by
  have hcore : ((u.dropNode i).replEnd k).reclaimTest.core = s.core :=
    (State.reclaimTest_core _).trans ((State.replEnd_core _ k).trans hu)
  obtain ⟨hend, -, -, hcr⟩ := State.kFail_spec hcore k 3
  refine ⟨hend, (State.node_of_crucible hcr _).trans ?_⟩
  exact State.reclaimTest_free (State.replEnd_free (State.node_dropNode_same _ _) k)

section
variable {p : NSpace} {nd : KNode} {b : BlockImage} {c : Block} (hp : s.space k.last = some p)
  (hn : s.readableName p.ns k.image.name = none) (hg : k.gotN 0 1 = 1) (hr : s.replicaOf p.ns k.image.name = some nd)
  (hnd : s.node nd.slot = some nd) (ho : nd.owner = s.pinId k) (hb : k.image.blocks[nd.written.length]? = some b)
  (hc : nd.blocks[nd.written.length]? = some c)
include hp hn hg hr ho hb hc

/-- The check of the block that moves decides (R141). -/
theorem State.moveBlock_checked : s.moveBlock k =
    if b.good k.image.name then
      some (((s.blockPut c 0 b.bytes).sealHeader nd b.layer b.form b.ranks b.bytes).setNode { nd with written := nd.written ++ [(nd.written.length, 0)] })
    else some (((((s.sendK (hMid k.handle) 0 ⟨11, 0, 0, k.handle, BitVec.ofNat 64 k.addr, 0, 0, 0, 0⟩).dropNode nd.slot).replEnd k).reclaimTest).kFail k 3) := by
  unfold State.moveBlock
  rw [hp]; dsimp only
  rw [hn]; dsimp only
  rw [if_neg (by rw [hg]; decide), if_neg (not_not.2 hg), hr]; dsimp only
  rw [if_neg (not_not.2 ho), hb, hc]

include hnd in
theorem State.moveBlock_good (hgood : b.check = (blockCheck k.image.name b.layer b.bytes).toNat) :
    ∃ t, s.moveBlock k = some t ∧ t.core = s.core ∧
      t.node nd.slot = some { nd with written := nd.written ++ [(nd.written.length, 0)] } := by
  have hx := State.moveBlock_checked hp hn hg hr ho hb hc
  rw [if_pos (show b.good k.image.name = true from beq_iff_eq.2 hgood)] at hx
  have hw := State.butHome_trans (s.blockPut_butHome c 0 b.bytes) (State.sealHeader_butHome _ nd b.layer b.form b.ranks b.bytes)
  refine ⟨_, hx, hw.core, ?_⟩
  exact State.node_setNode_of_slot ((State.node_of_crucible hw.crucible _).trans hnd)

theorem State.moveBlock_bad (hbad : b.check ≠ (blockCheck k.image.name b.layer b.bytes).toNat) :
    ∃ t, s.moveBlock k = some t ∧ Ended s t k 3 ∧ t.node nd.slot = none := by
  have hx := State.moveBlock_checked hp hn hg hr ho hb hc
  rw [if_neg (show ¬b.good k.image.name = true from fun h => hbad (beq_iff_eq.1 h))] at hx
  obtain ⟨hend, hnode⟩ := State.replicaDropped_kFail
    (s.sendK_core (hMid k.handle) 0 ⟨11, 0, 0, k.handle, BitVec.ofNat 64 k.addr, 0, 0, 0, 0⟩) k nd.slot
  exact ⟨_, hx, hend, hnode⟩
end

/-- What holds of the outcome of a command whose turn it is holds of the state that the event leaves. -/
theorem exec_crucibleCommandComplete_outcome {P : State → Prop} (hc : s.cmd k.seq = some k) (ha : k.asks = []) (he : k.err = 0)
    (ht : s.kTurn k = true) (h : ∃ t, s.kOutcome k = some t ∧ P t) :
    ∃ t, exec (.crucibleCommandComplete s.core.cnum k.seq) s = .next t ∧ P t :=
  h.imp fun _ ⟨ho, hp⟩ => ⟨exec_crucibleCommandComplete_turn hc ha he ht ho, hp⟩

/-- Settles O58: each event by the section about it, each command by its outcome. -/
theorem storeEvents : Obligations.StoreEvents := by
  unfold Obligations.StoreEvents
  intro s n calm
  refine ⟨fun slot nd p hn _ hst hr hp hs => exec_sealComplete hn hst hr hp hs, fun slot nd hn _ hst => exec_demoteComplete hn hst,
    fun slot nd hn he ht => ⟨⟨_, exec_leaseExpire hn he ht⟩, fun ⟨hw, hh, hc⟩ => ?_⟩, exec_storeTick, fun k hc ha he => ⟨?_, fun ht => ?_⟩⟩
  · rw [exec_leaseExpire hn he ht, State.reclaimTest_calm hw hh hc]
  · intro h o p nd b c hi hst hp hn hg hr hnd ho hb hcb
    have hx {t : State} (hm : s.moveBlock k = some t) := exec_replicaBlockMoved_moves hc hi hst ha he hm
    exact ⟨fun hgood => (State.moveBlock_good hp hn hg hr hnd ho hb hcb hgood).imp fun t ⟨hm, hp⟩ => ⟨hx hm, hp⟩,
      fun hbad => (State.moveBlock_bad hp hn hg hr ho hb hcb hbad).imp fun t ⟨hm, hp⟩ => ⟨hx hm, hp⟩⟩
  have hx {t : State} (ho : s.kOutcome k = some t) := exec_crucibleCommandComplete_turn hc ha he ht ho
  have hex {P : State → Prop} (h : ∃ t, s.kOutcome k = some t ∧ P t) := exec_crucibleCommandComplete_outcome hc ha he ht h
  intro dst hnd arg blk put
  refine ⟨?_, fun h o hi ha hb hl => hex (State.kOutcome_kstat_spec hi ha hb hl),
    fun h o l hi hst hh hl hf => ⟨fun hr => hex (State.kOutcome_klook_noRight hi hst hl hf hr), fun depth hr hd hrd hnz => ?_⟩, ?kopen,
    ?named, fun hn hl hst ha hb h o hi => hex (State.kOutcome_gone hst (State.recBad_of_okBanks ha hb) hl hn hi), ?record⟩
  · intro h o p hi hsp hb hs m h1 h64 hz hd hto
    exact hex (State.kOutcome_khash_spec hi hsp (State.kBlock_of_okBanks hb) hs h1 h64 hz hd (State.kBlock_of_okBanks hto))
  · obtain ⟨t, q, ho, hend, hq, hregs, hrest⟩ := State.kOutcome_klook_finds hi hst hl hf hh hr hd hrd hnz
    rw [State.prefixHandle_toNat] at hregs
    exact ⟨t, q, hx ho, hend, hq, hregs, hrest⟩
  case kopen =>
    intro h o p hi hh hb hs hlt hz hts ha hd ts name w ends named
    have ho : s.kOutcome k = if named then s.openAt k p none name ts else some (s.kFail k 2) := by
      rw [State.kOutcome, hi]
      exact State.doKopen_root hh (State.kBlock_of_okBanks hb) hs hlt hz (State.kBlock_of_okBanks hts) (State.recBad_of_okBanks ha hd)
    have hopen {t : State} (hn : named) (h : s.openAt k p none name ts = some t) : ends t := hx (ho.trans ((if_pos hn).trans h))
    refine ⟨fun hn => ?_, fun hn hr => hopen hn (State.openAt_noRight hr), fun hn hr => ⟨fun nd u hnd ho hu => hopen hn (State.openAt_own hr hnd ho hu),
      fun nd u hnd ho hrd hu => hopen hn (State.openAt_present hr hnd ho hrd hu), fun nd hnd ho hrd => hopen hn (State.openAt_busy hr hnd ho hrd),
      fun u a hnd hm hroom ha => ?_⟩⟩
    · obtain ⟨hend, hregs, -, hcr⟩ := State.kFail_spec (s := s) rfl k 2
      exact ⟨_, hx (ho.trans (if_neg hn)), hend, hregs, hcr⟩
    · obtain ⟨v, nd, hv, hrest⟩ := State.openAt_new_spec hr hnd hm hroom ha
      exact ⟨v, nd, hopen hn hv, hrest⟩
  case named =>
    intro nd p hn hs hl A
    refine ⟨?_, ?_⟩
    · intro h o b hi hz hst hf ho hr l v m r hb hlt hrow hblk
      have hout : s.kOutcome k = some (s.doKwr k) := by rw [State.kOutcome, hi]
      rw [State.doKwr_rows hs hn hl hz (State.kwrError_none hs hst hf ho hr hb hlt hrow) hblk] at hout
      exact ⟨_, hx hout, fun a c => mem_append_filter_new.trans (or_congr_right mem_planeRows)⟩
    · intro h o hi hsp e
      refine ⟨fun hst h0 => hex (State.kOutcome_kld_pins hi hl hn hc hst h0),
        fun hst h0 => hex (State.kOutcome_kld_fails hi hl hn hsp hst h0), ?_⟩
      intro u hu hnd hst hp hring hb r
      subst hu
      exact hex (State.kOutcome_kld_delivers hi hl hn hsp hs hst hp hring hb)
  case record =>
    intro nd p hn hs ha hd hl hst record
    have hb := State.recBad_of_okBanks (k := k) ha hd
    refine ⟨fun h o hi hr hc hm => hex (State.kOutcome_kref hst hb hl hn hs hi hr hc hm),
      fun h o hi h0 => hex (State.kOutcome_kunref_none hst hb hl hn hs hi h0), fun h o hi h0 => ?_, fun h o hi hr => ⟨fun ho hw => ⟨fun hp => ?_, fun hp hcomp => ?_,
        fun hp hcomp hf => hex (State.kOutcome_kseal_waits hst hb hl hn hs hi hr ho hw hcomp hp hf),
        fun h1 h2 hcomp => hex (State.kOutcome_kseal_starts hst hb hl hn hs hi hr ho hw hcomp hc h1 h2)⟩,
      fun ho hw => hex (State.kOutcome_kseal_notOwned hst hb hl hn hs hi hr ho hw),
      fun hrd => hex (State.kOutcome_kseal_done hst hb hl hn hs hi hr (State.sealAct_readable hrd) rfl (by decide))⟩,
      fun h o hi => ⟨fun hw hdep => ?_, fun hrd hr => ?_⟩,
      fun h o m hi hr hh hrd hm => hex (State.kOutcome_krepl_here hb hl hn hs hi hr hh hrd hm),
      ?lease⟩
    · exact (State.kOutcome_kunref hst hb hl hn hs hi h0).imp fun u ⟨ho, hrest⟩ => ⟨hx ho, hrest⟩
    · exact hex (State.kOutcome_kseal_done hst hb hl hn hs hi hr (State.sealAct_notReady ho hw hs hp) rfl (by decide))
    · refine hex (State.kOutcome_kseal_done hst hb hl hn hs hi hr ?_ rfl (by decide))
      rw [State.sealAct_below ho hw hs hp, hcomp]; rfl
    · exact (State.kOutcome_kdrop_open hst hb hl hn hs hi hw hdep).imp fun u ⟨ho, hrest⟩ => ⟨hx ho, hrest⟩
    · exact (State.kOutcome_kdrop_lease hst hb hl hn hs hi hrd hr).imp fun u ⟨ho, hrest⟩ => ⟨hx ho, hrest⟩
    case lease =>
      intro h o hi hr hz d e
      exact hex (State.kOutcome_klease hst hb hl hn hs hi hr hz rfl)

end Sys2Proof.Machine
end

section
/-! ## Integer elements as numbers (04 R90; 09 R220, R221) -/
namespace Sys2Proof.Machine
open Sys2Proof

/-! ### Wrapping and clamping -/

theorem wrapInt_cast (w : Nat) (v : Int) : (wrapInt w v : Int) = v % 2 ^ w :=
  Int.toNat_of_nonneg (Int.emod_nonneg _ (by positivity))

theorem wrapInt_natCast (w n : Nat) : wrapInt w (n : Int) = n % 2 ^ w :=
  Int.natCast_inj.mp (by rw [wrapInt_cast]; push_cast; rfl)

/-- Numbers that agree modulo 2^w wrap alike. -/
theorem wrapInt_congr {w : Nat} {u v : Int} (h : u ≡ v [ZMOD 2 ^ w]) : wrapInt w u = wrapInt w v :=
  congrArg Int.toNat h

/-- What agrees with a natural number modulo 2^w wraps to its remainder. -/
theorem wrapInt_of_modEq {w n : Nat} {v : Int} (h : v ≡ n [ZMOD 2 ^ w]) : wrapInt w v = n % 2 ^ w :=
  (wrapInt_congr h).trans (wrapInt_natCast w n)

theorem typeMin_le_typeMax (t : ElemType) : typeMin t ≤ typeMax t := by cases t <;> decide

theorem clampTo_eq (t : ElemType) (v : Int) :
    clampTo t v = if v < typeMin t then typeMin t else if typeMax t < v then typeMax t else v := by
  have := typeMin_le_typeMax t
  unfold clampTo
  split_ifs <;> omega

/-! ### The value of an element -/

theorem toS_modEq (w x : Nat) : toS w x ≡ x [ZMOD 2 ^ w] := by
  have hx : ((x % 2 ^ w : Nat) : Int) ≡ x [ZMOD 2 ^ w] := by push_cast; exact Int.mod_modEq _ _
  unfold toS
  dsimp only
  split
  · exact Int.sub_modulus_modEq_iff.mpr hx
  · exact hx

/-- An element's value agrees with its bits modulo 2^w. -/
theorem intOf_modEq (t : ElemType) (x : Nat) : intOf t x ≡ x [ZMOD 2 ^ (8 * esize t)] := by
  unfold intOf
  split
  · exact toS_modEq _ x
  · push_cast; exact Int.mod_modEq _ _

theorem intOf_of_lt {t : ElemType} {x : Nat} (h : x < 2 ^ (8 * esize t)) :
    intOf t x = if isSigned t then toS (8 * esize t) x else (x : Int) := by
  rw [intOf, Nat.mod_eq_of_lt h]

/-! ### The operations -/

section
variable {t : ElemType} (ht : isInt t = true) (rm : RM) (md : Bool) (x y z : Nat)
include ht

theorem arith_add_int : arith .add t rm md x (.bits y) z =
    intBits t (if md then clampTo t (intOf t x + intOf t y) else intOf t x + intOf t y) := by
  cases md <;> simp [arith, ht, VSrc.int]

theorem arith_sub_int : arith .sub t rm md x (.bits y) z =
    intBits t (if md then clampTo t (intOf t x - intOf t y) else intOf t x - intOf t y) := by
  cases md <;> simp [arith, ht, VSrc.int]

theorem arith_mul_int : arith .mul t rm md x (.bits y) z =
    intBits t (if md then intOf t x * intOf t y / 2 ^ (8 * esize t) else intOf t x * intOf t y) := by
  cases md <;> simp [arith, ht, VSrc.int, intBits]

theorem arith_mad_int : arith .mad t rm md x (.bits y) z =
    intBits t (if md then intOf t z - intOf t x * intOf t y else intOf t x * intOf t y + intOf t z) := by
  simp [arith, ht, VSrc.int]

theorem elemNeg_int : elemNeg t md x = intBits t (if md then clampTo t (-intOf t x) else -intOf t x) := by
  cases md <;> simp [elemNeg, ht]

theorem elemAbs_int (hs : isSigned t = true) : elemAbs t md x = intBits t (if md then clampTo t |intOf t x| else |intOf t x|) := by
  cases md <;> simp [elemAbs, ht, hs]

/-- An unsigned element is its own magnitude. -/
theorem elemAbs_unsigned (hs : isSigned t = false) : elemAbs t md x = x := by
  simp [elemAbs, ht, hs]

end

/-- The negative of an unsigned element saturates to 0. -/
theorem elemNeg_unsigned_sat {t : ElemType} (ht : isInt t = true) (hs : isSigned t = false) (x : Nat) : elemNeg t true x = 0 := by
  have hmin : typeMin t = 0 := by simp [typeMin, hs]
  have hx : 0 ≤ intOf t x := by simp only [intOf, hs, Bool.false_eq_true, if_false]; positivity
  have h0 : clampTo t (-intOf t x) = 0 := by
    have := typeMin_le_typeMax t
    rw [clampTo]; omega
  rw [elemNeg_int ht, if_pos rfl, h0, intBits, wrapInt, Int.zero_emod]; rfl

/-- Settles O39: an element agrees with its value modulo 2^w, which the wrapping forms keep; the others round or clamp the value first. -/
theorem vectorIntegerValues : Obligations.VectorIntegerValues := by
  intro t rm x y z ht hx hy hz w X Y Z lo hi clamp
  have hX : intOf t x = X := intOf_of_lt hx
  have hY : intOf t y = Y := intOf_of_lt hy
  have hZ : intOf t z = Z := intOf_of_lt hz
  have mX : X ≡ x [ZMOD 2 ^ w] := hX ▸ intOf_modEq t x
  have mY : Y ≡ y [ZMOD 2 ^ w] := hY ▸ intOf_modEq t y
  have mZ : Z ≡ z [ZMOD 2 ^ w] := hZ ▸ intOf_modEq t z
  have hclamp (v : Int) : clampTo t v = clamp v := clampTo_eq t v
  have habs : |X| = if X < 0 then -X else X := by
    split_ifs with h
    · exact abs_of_neg h
    · exact abs_of_nonneg (not_lt.mp h)
  refine ⟨?add, ?sub, ?mul, ?mad, ?msub, ?addSat, ?subSat, ?mulHigh, ?neg, fun hs => ⟨?abs, ?absSat⟩, ?negSat,
    fun hs => ⟨elemNeg_unsigned_sat ht hs x, fun sat => elemAbs_unsigned ht sat x hs⟩⟩
  case add =>
    rw [arith_add_int ht, hX, hY]
    exact wrapInt_of_modEq (by push_cast; exact mX.add mY)
  case sub =>
    rw [arith_sub_int ht, hX, hY]
    refine wrapInt_of_modEq ?_
    rw [Nat.cast_sub (hy.le.trans (Nat.le_add_left ..))]
    push_cast
    rw [add_sub_right_comm]
    exact Int.modEq_add_modulus_iff.mpr (mX.sub mY)
  case mul =>
    rw [arith_mul_int ht, hX, hY]
    exact wrapInt_of_modEq (by push_cast; exact mX.mul mY)
  case mad =>
    rw [arith_mad_int ht, hX, hY, hZ]
    exact wrapInt_of_modEq (by push_cast; exact (mX.mul mY).add mZ)
  case msub => rw [arith_mad_int ht, hX, hY, hZ]; exact wrapInt_cast ..
  case addSat => rw [arith_add_int ht, hX, hY, hclamp]; exact wrapInt_cast ..
  case subSat => rw [arith_sub_int ht, hX, hY, hclamp]; exact wrapInt_cast ..
  case mulHigh => rw [arith_mul_int ht, hX, hY]; exact wrapInt_cast ..
  case neg =>
    rw [elemNeg_int ht, hX]
    refine wrapInt_of_modEq ?_
    rw [Nat.cast_sub hx.le]
    push_cast
    rw [sub_eq_neg_add]
    exact Int.modEq_add_modulus_iff.mpr mX.neg
  case abs => rw [elemAbs_int ht _ _ hs, hX, habs]; exact wrapInt_cast ..
  case absSat => rw [elemAbs_int ht _ _ hs, hX, habs, hclamp]; exact wrapInt_cast ..
  case negSat => rw [elemNeg_int ht, hX, hclamp]; exact wrapInt_cast ..

end Sys2Proof.Machine
end

section
/-! ## Vector slots that write registers and predicates (09 R217, R220 to R229, R233) -/
namespace Sys2Proof.Machine
open Sys2Proof

/-- The state with elements of `b` bytes on their way to the register at `da`: those of `es`, `val` of each. -/
def State.putElems (s : State) (h : Head) (da b : Nat) (es : List Nat) (lat : Nat) (val : Nat → Nat) : State :=
  s.queued (vslot h) lat (.v da (elemBytes b (es.map (fun e => (e, val e)))))

/-- With an enabled element a vector slot with an effect answers it. -/
theorem vissue_ok {h : Head} {es : List Nat} {s t : State} (he : es ≠ []) : vissue h es s (.ok t) = .next t := vissue_enabled s _ he

/-! ### The operand b: an immediate, or a register in the view -/

theorem Core.operandB {c : Core} {i : Bool} {b : VReg} {ba : Nat} (hb : i = false → c.vaddr b = some ba) :
    ∃ r, (if i then some 0 else c.vaddr b) = some r ∧ (i = false → r = ba) := by
  cases i with
  | false => exact ⟨ba, hb rfl, fun _ => rfl⟩
  | true => exact ⟨0, rfl, fun h => by cases h⟩

/-- Where it is an immediate, no address counts. -/
theorem Core.vsrc_congr {c : Core} {o : VR} {r ba : Nat} (h : o.i = false → r = ba) : c.vsrc o r = c.vsrc o ba := by
  cases hi : o.i with
  | false => rw [h hi]
  | true => funext b e; simp [Core.vsrc, hi]

theorem slowB_congr {i : Bool} {r ba : Nat} (h : i = false → r = ba) : (!i && slowAt r) = (!i && slowAt ba) := by
  cases i with
  | false => rw [h rfl]
  | true => rfl

/-! ### Elementwise instructions -/

section
variable {h : Head} {o : VR} {s : State} {da aa : Nat} (he : s.core.enabledElems h (esize o.ty) ≠ [])
  (hd : s.core.vaddr o.d = some da) (ha : s.core.vaddr o.a = some aa)
include he hd ha

/-- Two operands, and the destination where it is a source: every enabled element on its way. -/
theorem elementwise_operands {ba : Nat} (hb : o.i = false → s.core.vaddr o.b = some ba) {legal : Bool} (hl : legal = true) (i : Instr)
    (lat : Nat) (readsD : Bool) (f : Nat → VSrc → Nat → Nat) :
    elementwise i h o lat legal readsD false s f =
      .next (s.putElems h da (esize o.ty) (s.core.enabledElems h (esize o.ty))
        (lat + slowLat (slowAt aa || (!o.i && slowAt ba) || (readsD && slowAt da)))
        (fun e => f (s.core.velem aa (esize o.ty) e) (s.core.vsrc o ba (esize o.ty) e) (s.core.velem da (esize o.ty) e))) := by
  subst hl
  obtain ⟨r, hr, heq⟩ := Core.operandB hb
  simp only [elementwise, hd, ha, hr, Core.vsrc_congr heq, slowB_congr heq, Bool.not_true, Bool.not_false, Bool.or_false, Bool.and_true,
    Bool.false_eq_true, if_false]
  exact vissue_ok he

/-- Two operands alone. -/
theorem elementwise_binary {ba : Nat} (hb : o.i = false → s.core.vaddr o.b = some ba) {legal : Bool} (hl : legal = true) (i : Instr)
    (lat : Nat) (f : Nat → VSrc → Nat → Nat) :
    elementwise i h o lat legal false false s f =
      .next (s.putElems h da (esize o.ty) (s.core.enabledElems h (esize o.ty)) (lat + slowLat (slowAt aa || (!o.i && slowAt ba)))
        (fun e => f (s.core.velem aa (esize o.ty) e) (s.core.vsrc o ba (esize o.ty) e) (s.core.velem da (esize o.ty) e))) := by
  simpa using elementwise_operands he hd ha hb hl i lat false f

/-- One operand. -/
theorem elementwise_unary {legal : Bool} (hl : legal = true) (i : Instr) (lat : Nat) (f : Nat → Nat) :
    elementwise i h o lat legal false true s (fun x _ _ => f x) =
      .next (s.putElems h da (esize o.ty) (s.core.enabledElems h (esize o.ty)) (lat + slowLat (slowAt aa))
        (fun e => f (s.core.velem aa (esize o.ty) e))) := by
  subst hl
  simp only [elementwise, hd, ha, Bool.not_true, Bool.or_true, Bool.and_false, Bool.false_and, Bool.or_false, Bool.false_eq_true, if_false, if_true]
  exact vissue_ok he

end

theorem immArith_of {o : VR} (hi : o.i = true → isTap o.ty = false) : immArith o = true := by
  cases h : o.i with
  | false => simp [immArith, h]
  | true => simp [immArith, hi h]

/-- mod with integers alone. -/
theorem md_legal {o : VR} (hm : o.md = true → isInt o.ty = true) : (!o.md || isInt o.ty) = true := by
  cases h : o.md with
  | false => rfl
  | true => exact hm h

/-- Settles O33: each of the instructions is elementwise of two operands with its own latency and operation. -/
theorem vectorElementwise : Obligations.VectorElementwise := by
  intro h o s da aa he hd ha b w es rm x put ba hb slow slowD y z raw
  refine ⟨fun hi hm => ?arithmetic, fun hi => ?order, fun hi => ?bits⟩
  case arithmetic =>
    have hl : (immArith o && (!o.md || isInt o.ty)) = true := Bool.and_eq_true_iff.mpr ⟨immArith_of hi, md_legal hm⟩
    exact ⟨(elementwise_binary he hd ha hb hl _ _ _ : execVadd h o s = _), (elementwise_binary he hd ha hb hl _ _ _ : execVsub h o s = _),
      (elementwise_binary he hd ha hb hl _ _ _ : execVmul h o s = _)⟩
  case order =>
    have hl := immArith_of hi
    exact ⟨(elementwise_operands he hd ha hb hl _ _ true _ : execVmad h o s = _), (elementwise_binary he hd ha hb hl _ _ _ : execVmin h o s = _),
      (elementwise_binary he hd ha hb hl _ _ _ : execVmax h o s = _)⟩
  case bits =>
    exact ⟨(elementwise_binary he hd ha hb hi _ _ _ : execVand h o s = _), (elementwise_binary he hd ha hb hi _ _ _ : execVor h o s = _),
      (elementwise_binary he hd ha hb hi _ _ _ : execVxor h o s = _), (elementwise_binary he hd ha hb hi _ _ _ : execVshl h o s = _),
      (elementwise_binary he hd ha hb hi _ _ _ : execVshr h o s = _), (elementwise_binary he hd ha hb hi _ _ _ : execVshra h o s = _)⟩

/-! ### One operand -/

/-- VMOVI reads no register. -/
theorem execVmovi_imm {h : Head} {o : VR} {s : State} {da : Nat} (he : s.core.enabledElems h (esize o.ty) ≠ [])
    (hd : s.core.vaddr o.d = some da) (ht : isTap o.ty = false) :
    execVmovi h o s = .next (s.putElems h da (esize o.ty) (s.core.enabledElems h (esize o.ty)) 2
      (fun _ => (VSrc.imm o.b.toInt).store o.ty (fmtRm s.core.ctl.fmt))) := by
  simp only [execVmovi, ht, hd, Bool.false_eq_true, if_false]
  exact vissue_ok he

/-- Settles O34: each but VMOVI is elementwise of one operand with its own latency and operation. -/
theorem vectorUnary : Obligations.VectorUnary := by
  intro h o s da aa he hd ha b w es rm x put slow
  refine ⟨fun hm => ?sign, fun hi => ?count, fun hf => ?transcendental, (elementwise_unary he hd ha rfl _ _ _ : execVmov h o s = _), execVmovi_imm he hd⟩
  case sign =>
    exact ⟨(elementwise_unary he hd ha (md_legal hm) _ _ _ : execVabs h o s = _), (elementwise_unary he hd ha (md_legal hm) _ _ _ : execVneg h o s = _)⟩
  case count => exact ⟨(elementwise_unary he hd ha hi _ _ _ : execVclz h o s = _), (elementwise_unary he hd ha hi _ _ _ : execVpopc h o s = _)⟩
  case transcendental =>
    exact ⟨(elementwise_unary he hd ha hf _ _ _ : execVrcp h o s = _), (elementwise_unary he hd ha hf _ _ _ : execVrsq h o s = _),
      (elementwise_unary he hd ha hf _ _ _ : execVexp2 h o s = _), (elementwise_unary he hd ha hf _ _ _ : execVlog2 h o s = _)⟩

end Sys2Proof.Machine
end

section
/-! ## Conversions and predicates (09 R223 to R225, R227 to R229) -/
namespace Sys2Proof.Machine
open Sys2Proof

/-! ### Widening and narrowing -/

theorem esize_pos (t : ElemType) : 0 < esize t := by cases t <;> decide

/-- A type with a half has elements of two bytes at least. -/
theorem esize_half_ne_zero {t half : ElemType} (ht : halfOf t = some half) : esize t / 2 ≠ 0 := by
  cases t <;> simp [halfOf, esize] at ht ⊢

/-- The narrow elements of VSAT that lie in the half of each member that mod names and are enabled. -/
def Core.halfElems (c : Core) (h : Head) (o : VR) : List Nat :=
  ((List.range (c.nElems (esize o.ty))).map (fun e =>
    e / (256 / esize o.ty) * (2 * (256 / esize o.ty)) + (if o.md then 256 / esize o.ty else 0) + e % (256 / esize o.ty))).filter
    (fun e => c.enabledAt h (e * (esize o.ty / 2)))

section
variable {h : Head} {o : VR} {s : State} {da aa ba : Nat} (hd : s.core.vaddr o.d = some da) (ha : s.core.vaddr o.a = some aa)
  (hb : o.i = false → s.core.vaddr o.b = some ba)
include hd ha hb

/-- Each wide element from the source element of the half of its member that mod names. -/
theorem widening_elems {wide : ElemType} (hw : wideOf o.ty = some wide) (he : s.core.enabledElems h (2 * esize o.ty) ≠ []) (i : Instr) (mad : Bool) :
    widening i h o mad s = .next (s.putElems h da (2 * esize o.ty) (s.core.enabledElems h (2 * esize o.ty))
      ((if isInt o.ty then (if mad then 3 else 2) else 4) + slowLat (slowAt aa || (!o.i && slowAt ba) || (mad && slowAt da)))
      (fun e =>
        let j := e / (128 / esize o.ty) * (2 * (128 / esize o.ty)) + (if o.md then 128 / esize o.ty else 0) + e % (128 / esize o.ty)
        widen mad o.ty wide (fmtRm s.core.ctl.fmt) (s.core.velem aa (esize o.ty) j) (s.core.vsrc o ba (esize o.ty) j)
          (s.core.velem da (2 * esize o.ty) e))) := by
  obtain ⟨r, hr, heq⟩ := Core.operandB hb
  simp only [widening, hw, hd, ha, hr, Core.vsrc_congr heq, slowB_congr heq]
  exact vissue_ok he

/-- Each narrow element of VSAT from the source element that it is paired with. -/
theorem execVsat_elems {half : ElemType} (ht : halfOf o.ty = some half) (he : s.core.halfElems h o ≠ []) :
    execVsat h o s = .next (s.putElems h da (esize o.ty / 2) (s.core.halfElems h o)
      (2 + slowLat (slowAt aa || (!o.i && slowAt ba) || slowAt da)) (fun e =>
        let j := e / (2 * (256 / esize o.ty)) * (256 / esize o.ty) + e % (256 / esize o.ty)
        intBits half (clampTo half (halfEven (intOf o.ty (s.core.velem aa (esize o.ty) j))
          ((s.core.vsrc o ba (esize o.ty) j).raw o.ty % (8 * esize o.ty)))))) := by
  obtain ⟨r, hr, heq⟩ := Core.operandB hb
  simp only [execVsat, ht, hd, ha, hr, Core.vsrc_congr heq, slowB_congr heq, esize_half_ne_zero ht, if_false]
  exact vissue_ok he

end

/-- A part of VCVT below the ratio of the sizes passes its check. -/
theorem cvtPart_legal {b n part : Nat} (hb : 0 < b) (hp : part < max (n / b) (b / n)) : ¬(if b ≤ n then n / b else b / n) ≤ part := by
  split
  next h =>
    have h1 : 1 ≤ n / b := Nat.div_pos h hb
    have h2 : b / n ≤ 1 := Nat.div_le_of_le_mul (by omega)
    omega
  next h =>
    have : n / b = 0 := Nat.div_eq_of_lt (not_le.mp h)
    omega

/-- Settles O35: with registers in the view each writes the paired destination elements. -/
theorem vectorConversions : Obligations.VectorConversions := by
  intro h o s da aa hd ha b put
  refine ⟨fun ba wide hb hw => ?widen, fun ba half hb hh => execVsat_elems hd ha hb hh, ?convert⟩
  case widen =>
    intro es src val he
    have add : execVwadd h o s = _ := widening_elems hd ha hb hw he _ false
    have mad : execVwmad h o s = _ := widening_elems hd ha hb hw he _ true
    simp only [Bool.false_and, Bool.or_false, Bool.true_and, Bool.false_eq_true, if_true, if_false] at add mad
    exact ⟨add, mad⟩
  case convert =>
    intro dst part n prs hp he
    have hex : execVcvt h o s = vissue h (prs.map Prod.fst) s (vResult h s (3 + slowLat (slowAt aa || slowAt da)) da
        (elemBytes n (prs.map fun e => (e.1, convert s.core.ctl.fmt o.ty dst (s.core.velem aa b e.2))))) := by
      simp only [execVcvt, hd, ha]
      exact if_neg (cvtPart_legal (esize_pos o.ty) hp)
    exact hex.trans (vissue_ok (by simpa using he))

/-! ### Predicates -/

/-- The bits of a mask that another does not have, by member slice. -/
def maskDiff (m v : Vector (BitVec 256) 4) : Vector (BitVec 256) 4 := Vector.ofFn fun g => vget m g.val 0 &&& ~~~(vget v g.val 0)

theorem vget_maskDiff (m v : Vector (BitVec 256) 4) {g : Nat} (hg : g < 4) :
    vget (maskDiff m v) g 0 = vget m g 0 &&& ~~~(vget v g 0) := by
  simp [maskDiff, vget, hg]

/-- Whether the condition of VCMP holds of an element. -/
def Core.truth (c : Core) (o : VC) (aa ba e : Nat) : Bool :=
  elemCmp o.cc o.ty (c.velem aa (esize o.ty) e) (if o.i then .imm o.b.toInt else .bits (c.velem ba (esize o.ty) e))

theorem Core.truth_congr {c : Core} {o : VC} {aa r ba : Nat} (h : o.i = false → r = ba) : c.truth o aa r = c.truth o aa ba := by
  cases hi : o.i with
  | false => rw [h hi]
  | true => funext e; simp [Core.truth, hi]

/-- VCMP: the enabled bits of both predicates. -/
theorem execVcmp_masks {h : Head} {o : VC} {s : State} {aa ba : Nat} (he : s.core.enabledElems h (esize o.ty) ≠ [])
    (ha : s.core.vaddr o.a = some aa) (hb : o.i = false → s.core.vaddr o.b = some ba) (hi : o.i = true → isTap o.ty = false)
    (hp : o.pt = o.pf → o.pt = 0) :
    let es := s.core.enabledElems h (esize o.ty)
    let lat := 1 + slowLat (slowAt aa || (!o.i && slowAt ba))
    let m := elemMask (esize o.ty) es
    let vt := elemMask (esize o.ty) (es.filter (s.core.truth o aa ba))
    execVcmp h o s = .next ((s.queued (vslot h) lat (.p o.pt m vt)).queued (vslot h) lat (.p o.pf m (maskDiff m vt))) := by
  intro es lat m vt
  have hlegal : ((o.i && isTap o.ty) || (o.pt == o.pf && o.pt != 0)) = false := by
    rw [Bool.or_eq_false_iff, Bool.and_eq_false_imp, Bool.and_eq_false_imp]
    exact ⟨hi, fun h => by simp [hp (beq_iff_eq.mp h)]⟩
  obtain ⟨r, hr, heq⟩ := Core.operandB hb
  have hvt : vt = elemMask (esize o.ty) (es.filter (s.core.truth o aa r)) := by rw [Core.truth_congr heq]
  simp only [execVcmp, hlegal, ha, hr, slowB_congr heq, Bool.false_eq_true, if_false]
  rw [hvt]
  exact vissue_ok he

/-- VPSET from a register. -/
theorem execVpset_elems {h : Head} {o : VR} {s : State} {aa : Nat} (he : s.core.enabledElems h (esize o.ty) ≠ []) (hi : o.i = false)
    (ha : s.core.vaddr o.a = some aa) :
    execVpset h o s = .next (s.queued (vslot h) (1 + slowLat (slowAt aa)) (.p (o.d.extractLsb' 0 4)
      (elemMask (esize o.ty) (s.core.enabledElems h (esize o.ty)))
      (elemMask (esize o.ty) ((s.core.enabledElems h (esize o.ty)).filter
        (fun e => (if o.ty = .t6 then s.core.velem aa (esize o.ty) e % 64 else s.core.velem aa (esize o.ty) e) != 0))))) := by
  simp only [execVpset, hi, ha, Bool.not_false, Bool.true_and, Bool.false_eq_true, if_false]
  exact vissue_ok he

/-- VPSET from a10. -/
theorem execVpset_imm {h : Head} {o : VR} {s : State} (he : s.core.enabledElems h (esize o.ty) ≠ []) (hi : o.i = true) :
    execVpset h o s = .next (s.queued (vslot h) 1 (.p (o.d.extractLsb' 0 4)
      (elemMask (esize o.ty) (s.core.enabledElems h (esize o.ty)))
      (elemMask (esize o.ty) ((s.core.enabledElems h (esize o.ty)).filter (fun _ => o.b != 0))))) := by
  simp only [execVpset, hi, Bool.not_true, Bool.false_and, if_true]
  exact vissue_ok he

/-- Settles O36: the masks of the enabled elements with the bits of each instruction. -/
theorem vectorPredicates : Obligations.VectorPredicates := by
  intro h s
  refine ⟨fun o aa ba he ha hb hi hp => ?compare, fun o he => ?set⟩
  case compare =>
    intro b es truth lat
    exact ⟨_, _, execVcmp_masks he ha hb hi hp, fun g hg => ⟨rfl, vget_maskDiff _ _ hg⟩⟩
  case set =>
    exact ⟨fun aa hi ha => execVpset_elems he hi ha, fun hi => execVpset_imm he hi, vissue_ok he, vissue_ok he⟩

end Sys2Proof.Machine
end

section
/-! ## Reductions, scans and lane moves (09 R230 to R234) -/
namespace Sys2Proof.Machine
open Sys2Proof

section
variable {h : Head} {o : VR} {s : State} {da aa : Nat} (he : s.core.enabledElems h (esize o.ty) ≠ [])
  (hd : s.core.vaddr o.d = some da) (ha : s.core.vaddr o.a = some aa)
include he hd ha

/-! ### Reductions and scans -/

/-- Every enabled element receives the result of the tree. -/
theorem reduction_elems (ht : isTap o.ty = false) (i : Instr) (op : RedOp) (lat : Nat) :
    reduction i h o op lat s = .next (s.putElems h da (esize o.ty) (s.core.enabledElems h (esize o.ty))
      (lat + 2 * s.core.lg + slowLat (slowAt aa))
      (fun _ => (treeReduce op o.ty (fmtRm s.core.ctl.fmt) 16
        (s.core.maybeElems aa (esize o.ty) (s.core.enabledElems h (esize o.ty)))).getD (redIdentity op o.ty))) := by
  simp only [reduction, ht, hd, ha, Bool.false_eq_true, if_false]
  exact vissue_ok he

/-- The operation of VSCAN. -/
def scanOp (o : VR) : RedOp := if o.md then .max else .sum

/-- Each enabled element receives the total up to it. -/
theorem execVscan_elems (ht : isTap o.ty = false) :
    execVscan h o s = .next (s.putElems h da (esize o.ty) (s.core.enabledElems h (esize o.ty))
      ((if isFlt o.ty && !o.md then 10 else 8) + 2 * s.core.lg + slowLat (slowAt aa))
      (fun e => (((scanGo (scanOp o) o.ty (fmtRm s.core.ctl.fmt) 16 1
        (s.core.maybeElems aa (esize o.ty) (s.core.enabledElems h (esize o.ty))))[e]?).join).getD (redIdentity (scanOp o) o.ty))) := by
  simp only [execVscan, ht, hd, ha, Bool.false_eq_true, if_false]
  exact vissue_ok he

/-! ### Lane moves -/

theorem execVperm_elems {ba : Nat} (hb : s.core.vaddr o.b = some ba) :
    execVperm h o s = .next (s.putElems h da (esize o.ty) (s.core.enabledElems h (esize o.ty))
      (4 + 2 * s.core.lg + slowLat (slowAt aa || slowAt ba))
      (fun e => s.core.velem aa (esize o.ty) (s.core.velem ba (esize o.ty) e % s.core.nElems (esize o.ty)))) := by
  simp only [execVperm, hd, ha, hb]
  exact vissue_ok he

/-- VBCAST of a lane: an immediate lane lies below n. -/
theorem execVbcast_lane (hm : o.md = false) (hn : ¬(o.i = true ∧ s.core.nElems (esize o.ty) ≤ o.b.toNat)) :
    execVbcast h o s = .next (s.putElems h da (esize o.ty) (s.core.enabledElems h (esize o.ty)) (3 + 2 * s.core.lg + slowLat (slowAt aa))
      (fun _ => s.core.velem aa (esize o.ty)
        (if o.i then o.b.toNat else (s.core.x (o.b.extractLsb' 0 6)).toNat % s.core.nElems (esize o.ty)))) := by
  simp only [execVbcast, hd, ha, hm, hn, Bool.false_eq_true, if_false]
  exact vissue_ok he

/-- The amount by which VSLIDE moves. -/
def Core.slideBy (c : Core) (o : VR) : Int := if o.i then o.b.toInt else (c.x (o.b.extractLsb' 0 6)).toInt

/-- VSLIDE: what enters is zero, or with mod the elements rotate. -/
theorem execVslide_elems :
    execVslide h o s = .next (s.putElems h da (esize o.ty) (s.core.enabledElems h (esize o.ty)) (3 + 2 * s.core.lg + slowLat (slowAt aa))
      (fun e =>
        let j : Int := (e : Int) + s.core.slideBy o
        if o.md then s.core.velem aa (esize o.ty) (j % (s.core.nElems (esize o.ty) : Int)).toNat
        else if 0 ≤ j ∧ j < s.core.nElems (esize o.ty) then s.core.velem aa (esize o.ty) j.toNat else 0)) := by
  simp only [execVslide, hd, ha]
  exact vissue_ok he

end

/-- Counting along a list does nothing where the count is not read. -/
theorem map_zipIdx_fst {α β : Type} (as : List α) (f : α → β) : as.zipIdx.map (fun e => f e.1) = as.map f := by
  rw [← Function.comp_def f Prod.fst, ← List.map_map, List.zipIdx_map_fst]

section
variable {h : Head} {o : VR} {s : State} {da : Nat} (he : s.core.enabledElems h (esize o.ty) ≠ []) (hd : s.core.vaddr o.d = some da)
include he hd

/-- VBCAST of a scalar reads no lane. -/
theorem execVbcast_scalar (hm : o.md = true) :
    execVbcast h o s = .next (s.putElems h da (esize o.ty) (s.core.enabledElems h (esize o.ty)) 2
      (fun _ => (s.core.x (o.a.extractLsb' 0 6)).toNat)) := by
  simp only [execVbcast, hd, hm, if_true]
  exact vissue_ok he

/-- VIOTA counts the elements. -/
theorem execViota_index (hi : isInt o.ty = true) (hm : o.md = false) :
    execViota h o s = .next (s.putElems h da (esize o.ty) (s.core.enabledElems h (esize o.ty)) 2
      (fun e => wrapInt (8 * esize o.ty) ((if o.i then o.b.toInt else 0) + e))) := by
  simp only [execViota, hd, hi, hm, Bool.not_true, Bool.false_eq_true, if_false]
  rw [map_zipIdx_fst _ (fun e : Nat => (e, wrapInt (8 * esize o.ty) ((if o.i then a10 o.b else 0) + e)))]
  exact vissue_ok he

/-- VIOTA with mod counts the enabled elements. -/
theorem execViota_rank (hi : isInt o.ty = true) (hm : o.md = true) :
    execViota h o s = .next (s.queued (vslot h) (3 + 2 * s.core.lg) (.v da (elemBytes (esize o.ty)
      ((s.core.enabledElems h (esize o.ty)).zipIdx.map
        (fun e => (e.1, wrapInt (8 * esize o.ty) ((if o.i then o.b.toInt else 0) + e.2))))))) := by
  simp only [execViota, hd, hi, hm, Bool.not_true, Bool.false_eq_true, if_false, if_true]
  exact vissue_ok he

end

/-! ### One lane -/

section
variable {h : Head} {o : VR} {s : State} {l : Nat} (hi : o.i = true → l = o.b.toNat)
  (hx : o.i = false → l = (s.core.x (o.b.extractLsb' 0 6)).toNat % s.core.nElems (esize o.ty)) (hn : l < s.core.nElems (esize o.ty))
include hi hx hn

/-- The lane that an immediate or a scalar selects. -/
theorem Core.lane_of : s.core.lane o = some l := by
  have h0 : s.core.nElems (esize o.ty) ≠ 0 := (Nat.zero_lt_of_lt hn).ne'
  cases h : o.i with
  | false => simp [Core.lane, h, h0, hx h]
  | true => simp [Core.lane, h, ← hi h, hn]

variable (hen : s.core.enabledAt h (l * esize o.ty) = true)
include hen

theorem execVgetl_lane {aa : Nat} (ha : s.core.vaddr o.a = some aa) :
    let v := s.core.velem aa (esize o.ty) l
    execVgetl h o s = .next (s.queued (vslot h) (3 + 2 * s.core.lg + slowLat (slowAt aa)) (.x (o.d.extractLsb' 0 6)
      (if isSigned o.ty then BitVec.ofInt 64 (toS (8 * esize o.ty) v) else BitVec.ofNat 64 v))) := by
  simp only [execVgetl, Core.lane_of hi hx hn, hen, ha, if_true]
  exact vissue_ok (List.cons_ne_nil l [])

theorem execVputl_lane {da : Nat} (hd : s.core.vaddr o.d = some da) :
    execVputl h o s = .next (s.queued (vslot h) (2 + slowLat (slowAt da))
      (.v da (elemBytes (esize o.ty) [(l, (s.core.x (o.a.extractLsb' 0 6)).toNat)]))) := by
  simp only [execVputl, Core.lane_of hi hx hn, hen, hd, if_true]
  exact vissue_ok (List.cons_ne_nil l [])

end

/-- Settles O37, instruction by instruction. -/
theorem vectorLanes : Obligations.VectorLanes := by
  intro h o s da aa hd ha c b n es rm slow put total prefixOf amount
  refine ⟨fun he ht => ?reduce, fun he => ?move, fun l hi hx hn hen => ⟨execVgetl_lane hi hx hn hen ha, execVputl_lane hi hx hn hen hd⟩⟩
  case reduce =>
    have scan : execVscan h o s = _ := execVscan_elems he hd ha ht
    refine ⟨(reduction_elems he hd ha ht _ _ _ : execVrsum h o s = _), (reduction_elems he hd ha ht _ _ _ : execVrmax h o s = _),
      (reduction_elems he hd ha ht _ _ _ : execVrmin h o s = _), fun hm => ?_, fun hm => ?_⟩
    · simp only [scanOp, hm, Bool.not_false, Bool.and_true, Bool.false_eq_true, if_false] at scan
      exact scan
    · simp only [scanOp, hm, Bool.not_true, Bool.and_false, Bool.false_eq_true, if_false, if_true] at scan
      exact scan
  case move =>
    have slide : execVslide h o s = _ := execVslide_elems he hd ha
    refine ⟨fun ba hb => execVperm_elems he hd ha hb, fun hm => execVbcast_scalar he hd hm, fun hm hi => ?_, fun hm hi hb => ?_,
      fun hm => ?_, fun hm => ?_, fun hi hm => execViota_index he hd hi hm, fun hi hm => execViota_rank he hd hi hm⟩
    · have lane : execVbcast h o s = _ := execVbcast_lane he hd ha hm (fun hl => by simp [hi] at hl)
      simp only [hi, Bool.false_eq_true, if_false] at lane
      exact lane
    · have lane : execVbcast h o s = _ := execVbcast_lane he hd ha hm (fun hl => hb.not_ge hl.2)
      simp only [hi, if_true] at lane
      exact lane
    · simp only [hm, Bool.false_eq_true, if_false] at slide
      exact slide
    · simp only [hm, if_true] at slide
      exact slide

end Sys2Proof.Machine
end

section
/-! ## Vector loads and stores of scratchpad (09 R235 to R237) -/
namespace Sys2Proof.Machine
open Sys2Proof

/-! ### The check of the element addresses -/

section
variable {s : State} {b : Nat} {es : List Nat} {addr : Nat → Nat}

/-- Aligned addresses in scratchpad banks meet no fault. -/
theorem State.elemFault_none (hg : ∀ e ∈ es, addr e % b = 0 ∧ s.okBank (addr e) = true) : s.elemFault b (es.map addr) = none := by
  have hal : (es.map addr).find? (fun a => a % b != 0) = none := by
    simpa [List.find?_eq_none] using fun e he => (hg e he).1
  have hok : (es.map addr).find? (fun a => !s.okBank a) = none := by
    simpa [List.find?_eq_none] using fun e he => (hg e he).2
  simp [State.elemFault, hal, hok]

variable {pre post : List Nat} {e : Nat} (hes : es = pre ++ e :: post)
include hes

/-- The first address that meets a condition. -/
theorem find?_addr {p : Nat → Bool} (hp : p (addr e) = true) (hpre : ∀ d ∈ pre, p (addr d) = false) :
    (es.map addr).find? p = some (addr e) :=
  List.find?_eq_some_iff_append.mpr ⟨hp, pre.map addr, post.map addr, by simp [hes], by simpa using hpre⟩

/-- The first misaligned element is the fault, whatever lies outside the banks. -/
theorem State.elemFault_align (he : addr e % b ≠ 0) (hpre : ∀ d ∈ pre, addr d % b = 0) :
    s.elemFault b (es.map addr) = some (cALIGN, addr e) := by
  rw [State.elemFault, find?_addr hes (by simpa using he) (by simpa using hpre)]

/-- Where all are aligned it is the first outside the banks. -/
theorem State.elemFault_xlate (hal : ∀ d ∈ es, addr d % b = 0) (he : s.okBank (addr e) = false) (hpre : ∀ d ∈ pre, s.okBank (addr d) = true) :
    s.elemFault b (es.map addr) = some (cXLATE, addr e) := by
  have hnone : (es.map addr).find? (fun a => a % b != 0) = none := by simpa [List.find?_eq_none] using hal
  rw [State.elemFault, hnone, find?_addr hes (by simpa using he) (by simpa using hpre)]

end

/-! ### Loads and stores -/

/-- The state with the bytes of element addresses on their way to the register at `va`. -/
def State.spLoaded (s : State) (h : Head) (va b : Nat) (es : List Nat) (lat : Nat) (addr : Nat → Nat) : State :=
  s.queued (vslot h) lat (.v va (es.flatMap fun e =>
    (s.bankRead (e / (256 / b)) (addr e) b).zipIdx.map fun q => (e * b + q.2, q.1)))

/-- The state with the elements of the register at `va` on their way to the bank cells of element addresses. -/
def State.spStored (s : State) (va b : Nat) (es : List Nat) (lat : Nat) (addr : Nat → Nat) : State :=
  { s with core := s.core.pushBank lat (es.flatMap fun e =>
      s.bankCells false (e / (256 / b)) (addr e) (leBytes b (s.core.velem va b e))) }

section
variable {h : Head} {o : VM} {s : State} {va : Nat} (hv : s.core.vaddr o.v = some va) {es : List Nat} (he : es ≠ []) {addr : Nat → Nat} (i : Instr)
  (lat : Nat) (slow : Bool) (post : State → State)
include hv he

theorem vload_next (hf : s.elemFault (esize o.ty) (es.map addr) = none) :
    vissue h es s (vload i h o lat s es addr slow post) = .next (post (s.spLoaded h va (esize o.ty) es (lat + slowLat slow) addr)) := by
  simp only [vload, hv, hf]
  exact vissue_ok he

theorem vstore_next (hf : s.elemFault (esize o.ty) (es.map addr) = none) :
    vissue h es s (vstore i o lat s es addr slow post) =
      .next (post (s.spStored va (esize o.ty) es (lat + slowLat (slow || slowAt va)) addr)) := by
  simp only [vstore, hv, hf]
  exact vissue_ok he

variable {code a : Nat} (hf : s.elemFault (esize o.ty) (es.map addr) = some (code, a))
include hf

theorem vload_faulted : vissue h es s (vload i h o lat s es addr slow post) = .next (s.faulted (vslot h) code (BitVec.ofNat 64 a)) := by
  simp only [vload, hv, hf]
  exact vissue_enabled s _ he

theorem vstore_faulted : vissue h es s (vstore i o lat s es addr slow post) = .next (s.faulted (vslot h) code (BitVec.ofNat 64 a)) := by
  simp only [vstore, hv, hf]
  exact vissue_enabled s _ he

end

/-- The freeze that the conflicts of element addresses ask for. -/
def State.freezeConflict (s t : State) (o : VM) (es : List Nat) (addr : Nat → Nat) : State := t.freezeFor (s.conflict (esize o.ty) es addr)

section
variable {h : Head} {o : VM} {s : State} {regs : List Nat} (hr : idxRegs s.core o = some regs)
include hr

/-- With its index registers in the view VGATHER is a load from their addresses, and VSCATTER a store. -/
theorem execVgather_index :
    let es := s.core.enabledElems h (esize o.ty)
    let addr := idxAddr s.core o regs
    execVgather h o s = vissue h es s (vload (.vgather h o) h o 16 s es addr (regs.any slowAt) (s.freezeConflict · o es addr)) := by
  simp only [execVgather, hr]
  rfl

theorem execVscatter_index :
    let es := s.core.enabledElems h (esize o.ty)
    let addr := idxAddr s.core o regs
    execVscatter h o s = vissue h es s (vstore (.vscatter h o) o 6 s es addr (regs.any slowAt) (s.freezeConflict · o es addr)) := by
  simp only [execVscatter, hr]
  rfl

end

/-- Settles O38: an access moves its bytes where the addresses pass the check, else it is the fault of the first that does not. -/
theorem vectorScratchpad : Obligations.VectorScratchpad := by
  intro h o s va he hv c b es good load store flat strided slow
  refine ⟨fun hg => ?contiguous, fun hg => ?strided, fun regs hr hg => ?indexed, fun pre post e hes hne hpre => ?align,
    fun pre post e hes hal hx hpre => ?xlate⟩
  case contiguous =>
    have hf := State.elemFault_none hg
    exact ⟨(vload_next hv he _ 8 false id hf : execVld h o s = _), (vstore_next hv he _ 2 false id hf : execVst h o s = _)⟩
  case strided =>
    have hf := State.elemFault_none hg
    exact ⟨(vload_next hv he _ 10 false id hf : execVlds h o s = _), (vstore_next hv he _ 4 false id hf : execVsts h o s = _)⟩
  case indexed =>
    have hf := State.elemFault_none hg
    exact ⟨(execVgather_index hr).trans (vload_next hv he _ _ _ _ hf), (execVscatter_index hr).trans (vstore_next hv he _ _ _ _ hf)⟩
  case align =>
    have hf := State.elemFault_align (s := s) (addr := flat) hes hne hpre
    exact ⟨(vload_faulted hv he _ _ _ _ hf : execVld h o s = _), (vstore_faulted hv he _ _ _ _ hf : execVst h o s = _)⟩
  case xlate =>
    have hf := State.elemFault_xlate (addr := flat) hes hal hx hpre
    exact ⟨(vload_faulted hv he _ _ _ _ hf : execVld h o s = _), (vstore_faulted hv he _ _ _ _ hf : execVst h o s = _)⟩

end Sys2Proof.Machine
end

section
/-! ## What a log entry leaves
An enabled C-slot command is logged as it takes effect; in a replay it is checked against the log instead, at whose end an event is
posted (16 R357). -/
namespace Sys2Proof.Machine
open Sys2Proof

/-! ### Bank pairs -/

@[simp] theorem State.setStack_floor_spair (s : State) (k j : Nat) (f : Nat × Nat) :
    ((s.setStack k { s.stack k with floor := f }).stack j).spair = (s.stack j).spair := by
  unfold State.stack State.setStack
  by_cases hkj : k = j
  · subst hkj
    by_cases hk : k < 8
    · rw [vget_vset_same _ _ _ _ hk]
    · simp [vset, hk]
  · rw [vget_vset_other _ _ _ _ _ hkj]

theorem State.fanDone_spair (s : State) (d : DirEntry) (f : FanOut) (j : Nat) :
    ((s.fanDone d f).stack j).spair = (s.stack j).spair := by
  unfold State.fanDone; dsimp only
  split
  · exact State.setStack_floor_spair _ _ _ _
  · rfl

theorem State.settleFan_spair (s : State) (line j : Nat) : ((s.settleFan line).stack j).spair = (s.stack j).spair := by
  unfold State.settleFan
  split
  · rfl
  · split
    · rfl
    · split
      · exact State.fanDone_spair _ _ _ _
      · rfl

theorem State.startFan_spair (s : State) (line from_ keep byHost wrote j) :
    ((s.startFan line from_ keep byHost wrote).stack j).spair = (s.stack j).spair := by
  unfold State.startFan; dsimp only
  split <;> exact State.settleFan_spair _ _ _

/-- Writes at homes leave the pairing of banks. -/
theorem State.homePut_spair (s : State) (pa bs byHost wrote j) :
    ((s.homePut pa bs byHost wrote).stack j).spair = (s.stack j).spair := by
  refine foldl_keeps (fun u : State => (u.stack j).spair) _ (fun u l => ?_) _ s
  unfold State.homeWrite; dsimp only
  split
  · rfl
  · exact State.startFan_spair _ _ _ _ _ _ _

theorem State.post_spair (s : State) (e : EventRec) (j : Nat) : ((s.post e).stack j).spair = (s.stack j).spair := by
  unfold State.post State.stack; dsimp only
  split
  · split <;> rfl
  · exact s.homePut_spair _ _ _ _ j

/-! ### The log -/

/-- Posting an event leaves memory outside its record, whether the ring has room or not. -/
theorem State.post_sameMemory {s : State} (hw : s.memoryWf) (e : EventRec) : s.sameMemory (s.post e) := by
  by_cases hr : s.eventRoom
  · exact (State.post_record hw hr e).2.2
  · intro a _
    unfold State.post; dsimp only
    rw [if_pos (Nat.not_lt.1 hr)]
    split <;> rfl

/-- What a log entry leaves: the core but for its phase, of which the front banks stand; the buses; the pairing of banks; and
memory outside the record of an event. -/
structure State.Logs (s t : State) : Prop where
  core : ∃ ph : Phase, ph.front = s.core.phase.front ∧ t.core = { s.core with phase := ph }
  buses : t.buses = s.buses
  spair : ∀ j, (t.stack j).spair = (s.stack j).spair
  mem : s.memoryWf → s.sameMemory t

theorem State.Logs.refl (s : State) : s.Logs s := ⟨⟨_, rfl, rfl⟩, rfl, fun _ => rfl, fun _ _ _ => rfl⟩

/-- An update of the log in the phase. -/
theorem State.Logs.phase (s : State) {ph : Phase} (hf : ph.front = s.core.phase.front) :
    s.Logs { s with core := { s.core with phase := ph } } := ⟨⟨ph, hf, rfl⟩, rfl, fun _ => rfl, fun _ _ _ => rfl⟩

theorem State.Logs.post {s t : State} (h : s.Logs t) (hm : t.memory = s.memory) (hr : t.regs = s.regs) (e : EventRec) :
    s.Logs (t.post e) := by
  have hslot : t.eventSlot = s.eventSlot := by simp only [State.eventSlot, State.frame, hm, hr]
  refine ⟨by rw [State.post_core]; exact h.core, (congrArg State.buses (t.post_apart e) :).trans h.buses,
    fun j => (t.post_spair e j).trans (h.spair j), fun hw a ha => ?_⟩
  rw [← hm]
  exact State.post_sameMemory (by rw [State.memoryWf, hm]; exact hw) e a (by rw [hslot]; exact ha)

theorem State.logCommand_logs (s : State) (i : Instr) (ops : List Word) (data : List (Nat × Byte)) : s.Logs (s.logCommand i ops data) := by
  unfold State.logCommand; dsimp only
  split
  · split
    · split
      · exact (State.Logs.phase s (ph := { s.core.phase with replay := none }) rfl).post rfl rfl _
      · exact .phase s rfl
    · exact .phase s rfl
  · split <;> exact .phase s rfl

theorem State.logged_logs (s : State) (i : Instr) (h : Head) (ops : List Word) (data : List (Nat × Byte)) : s.Logs (s.logged i h ops data) := by
  unfold State.logged
  split
  · exact .refl s
  · exact s.logCommand_logs i ops data

/-- The mark that rules re-dispatch out stands in Hearth. -/
theorem State.markIrredispatch_spec (s : State) (b : Bool) : ∃ hr, s.markIrredispatch b = { s with hearth := hr } := by
  unfold State.markIrredispatch
  split
  · split
    · split <;> exact ⟨_, rfl⟩
    · exact ⟨_, rfl⟩
  · exact ⟨_, rfl⟩

/-- Reading the channel table first changes nothing that a log entry is about. -/
theorem State.Logs.of_chTouch {s t : State} {e : ChEntry} (h : (s.chTouch e).Logs t) : s.Logs t := by
  obtain ⟨l, hl⟩ := s.chTouch_spec e
  rw [hl] at h
  exact ⟨h.core, h.buses, h.spair, h.mem⟩

section
variable {s t : State} (h : s.Logs t)
include h

/-- The mark of an irrevocable instruction is one more update of the phase. -/
theorem State.Logs.irrevocable : s.Logs t.irrevocable := by
  obtain ⟨ph, hf, hc⟩ := h.core
  exact ⟨⟨{ ph with irrevocable := true }, hf, by rw [State.irrevocable, hc]⟩, h.buses, h.spair, h.mem⟩

/-- So is the mark that rules re-dispatch out, which stands in Hearth. -/
theorem State.Logs.markIrredispatch (b : Bool) : s.Logs (t.markIrredispatch b) := by
  obtain ⟨hr, hm⟩ := t.markIrredispatch_spec b
  rw [hm]
  exact ⟨h.core, h.buses, h.spair, h.mem⟩

theorem State.Logs.cnum : t.core.cnum = s.core.cnum := by obtain ⟨ph, -, hc⟩ := h.core; rw [hc]
theorem State.Logs.regs : t.core.regs = s.core.regs := by obtain ⟨ph, -, hc⟩ := h.core; rw [hc]
theorem State.Logs.ctl : t.core.ctl = s.core.ctl := by obtain ⟨ph, -, hc⟩ := h.core; rw [hc]
theorem State.Logs.ident : t.core.ident = s.core.ident := by obtain ⟨ph, -, hc⟩ := h.core; rw [hc]
theorem State.Logs.front : t.core.front = s.core.front := by obtain ⟨ph, -, hc⟩ := h.core; rw [hc]
theorem State.Logs.pipe : t.core.pipe = s.core.pipe := by obtain ⟨ph, -, hc⟩ := h.core; rw [hc]
theorem State.Logs.units : t.core.units = s.core.units := by obtain ⟨ph, -, hc⟩ := h.core; rw [hc]

/-- Bank addresses stand. -/
theorem State.Logs.bankAddr (back : Bool) (g a : Nat) : t.bankAddr back g a = s.bankAddr back g a := by
  obtain ⟨ph, hf, hc⟩ := h.core
  unfold State.bankAddr State.paired State.spair
  rw [h.spair, hc]
  dsimp only
  rw [hf]
  rfl

theorem State.Logs.bankRead (g a n : Nat) : t.bankRead g a n = s.bankRead g a n := by simp only [State.bankRead, h.bankAddr, h.regs]
theorem State.Logs.bankCellsAll (back : Bool) (a : Nat) (bs : List Byte) : t.bankCellsAll back a bs = s.bankCellsAll back a bs := by
  obtain ⟨ph, -, hc⟩ := h.core
  simp only [State.bankCellsAll, State.bankCells, h.bankAddr, hc]

/-- The bus of the cluster stands. -/
theorem State.Logs.bus : t.bus = s.bus := by simp only [State.bus, Core.cid, h.buses, h.ident]

end

end Sys2Proof.Machine
end

section
/-! ## A command as it issues
What `State.start` leaves, and the shared operations of issue for a slot outside a SPEC bundle and in one (11 R263 to R265; 03 R82). -/
namespace Sys2Proof.Machine
open Sys2Proof

/-! ### The command -/

/-- Later updates that leave the core's units, registers and results on their way, and memory, leave the command issued. -/
theorem Issued.trans {s t u : State} {i : Instr} {tok : KTok} {ops : List Word} {addr : Nat} (h : Issued s t i tok ops addr)
    (hu : u.core.units = t.core.units) (hr : u.core.regs = t.core.regs) (hp : u.core.pipe = t.core.pipe) (hc : u.core.ctl = t.core.ctl)
    (hm : u.memory.mem = t.memory.mem) : Issued s u i tok ops addr := by
  unfold Issued State.sameMemory Core.token at *
  rw [hu, hr, hp, hc, hm]
  exact h

section
variable {s t : State} {i : Instr} {tok : KTok} {ops : List Word} {addr : Nat} (hi : Issued s t i tok ops addr)
include hi

theorem Issued.boundary (b : Bnd) : Issued s (t.boundary b) i tok ops addr := hi.trans rfl rfl rfl rfl rfl
theorem Issued.irrevocable : Issued s t.irrevocable i tok ops addr := hi.trans rfl rfl rfl rfl rfl
theorem Issued.markIrrevocable (b : Bool) : Issued s (t.markIrrevocable b) i tok ops addr := by
  unfold State.markIrrevocable
  split
  · exact hi.irrevocable
  · exact hi

/-- A limit of the command as it issues is a further field of it. -/
theorem Issued.limit (lim : Option Nat) :
    let n := s.core.units.cmds.length
    Issued s { t with core := { t.core with units := { t.core.units with
      cmds := t.core.units.cmds.take n ++ (t.core.units.cmds.drop n).map (fun k => { k with limit := lim }) } } } i tok ops addr := by
  obtain ⟨⟨k, hk, hseq, hins, htok, hops, haddr, herr, hstage⟩, hrest⟩ := hi
  refine ⟨⟨{ k with limit := lim }, ?_, hseq, hins, htok, hops, haddr, herr, hstage⟩, hrest⟩
  simp [hk]

end

theorem Issued.markIrredispatch {s t : State} {i : Instr} {tok : KTok} {ops : List Word} {addr : Nat} (hi : Issued s t i tok ops addr)
    (b : Bool) : Issued s (t.markIrredispatch b) i tok ops addr := by
  obtain ⟨hr, hm⟩ := t.markIrredispatch_spec b
  rw [hm]
  exact hi.trans rfl rfl rfl rfl rfl

section
variable (s : State) (i : Instr) (h : Head) (tok : KTok) (ops : List Word) (addr : Nat) (data : List (Nat × Byte)) (ring : Option (Nat × Nat))

/-- A command as it issues is outstanding. -/
theorem State.start_issued (hw : s.memoryWf) : Issued s (s.start i h tok ops addr data ring) i tok ops addr := by
  have hl := s.logged_logs i h (loggedOps i ops) (loggedData i data)
  unfold Issued Core.token
  rw [← hl.units, ← hl.regs, ← hl.pipe, ← hl.ctl]
  exact ⟨⟨_, rfl, rfl, rfl, rfl, rfl, rfl, rfl, rfl⟩, rfl, congrArg Token.cnt (Core.token_setToken _ tok _), rfl, rfl, rfl, hl.mem hw⟩

theorem State.start_front : (s.start i h tok ops addr data ring).core.front = s.core.front := (s.logged_logs i h _ _).front
theorem State.start_rings : (s.start i h tok ops addr data ring).core.units.rings = s.core.units.rings :=
  (congrArg Units.rings (s.logged_logs i h (loggedOps i ops) (loggedData i data)).units :)

end

/-- Reading the channel table first changes nothing that an issued command is about. -/
theorem Issued.of_chTouch {s t : State} {e : ChEntry} {i : Instr} {tok : KTok} {ops : List Word} {addr : Nat}
    (hi : Issued (s.chTouch e) t i tok ops addr) : Issued s t i tok ops addr := by
  obtain ⟨l, hl⟩ := s.chTouch_spec e
  rw [hl] at hi
  exact hi

/-! ### The slot -/

section
variable {h : Head} {s : State} {i : Instr} {body : SlotRes}

theorem cissue_on (he : s.core.enabled h = true) (hs : h.spec = false) (ok : Bool) : cissue i h ok s body = settle (cslot h) s body := by
  rw [cissue, issue_on he, hs]
  rfl

/-- In a SPEC bundle an instruction that R265 does not list is ILLOP. -/
theorem cissue_spec (he : s.core.enabled h = true) (hs : h.spec = true) :
    cissue i h false s body = .next (s.faulted (cslot h) cILLOP (slotWord i)) := by
  rw [cissue, issue_on he, hs]
  rfl

/-- What is ILLOP whatever the bundle. -/
theorem cissue_illop (he : s.core.enabled h = true) (ok : Bool) : cissue i h ok s (.illop i) = .next (s.faulted (cslot h) cILLOP (slotWord i)) := by
  rw [cissue, issue_on he]
  split <;> rfl

end

/-- Room on its token lets an instruction go on. -/
theorem settle_tokenRoom {s t : State} {tok : KTok} (hr : (s.core.token tok).cnt ≠ 15) (slot : Nat) :
    settle slot s (tokenRoom s tok (.ok t)) = .next t := by
  have hc : s.holdClear (.tokenFull tok) = true := bne_iff_ne.2 hr
  rw [tokenRoom, if_pos hc, settle]

/-- A full token holds it. -/
theorem settle_tokenFull {s : State} {tok : KTok} (hr : (s.core.token tok).cnt = 15) (slot : Nat) (r : SlotRes) :
    settle slot s (tokenRoom s tok r) = .next (s.heldBy [.tokenFull tok]) := by
  simp [tokenRoom, State.holdClear, hr, settle, State.heldBy]

/-! ### The shared operations -/

section
variable {h : Head} {s : State}

theorem memIssue_on (he : s.core.enabled h = true) (hs : h.spec = false) {i : Instr} {o : CA} {legal : Bool} (hl : legal = true) (ops : List Word)
    (irrev : Bool) : memIssue i h o legal ops irrev s = settle (cslot h) s (tokenRoom s o.token
      (.ok ((s.start i h o.token ops (s.core.x o.addr).toNat [] none).markIrrevocable irrev))) := by
  subst hl
  exact cissue_on he hs _

theorem memIssue_issues (he : s.core.enabled h = true) (hs : h.spec = false) (hw : s.memoryWf) {i : Instr} {o : CA} {legal : Bool} (hl : legal = true)
    (hr : (s.core.token o.token).cnt ≠ 15) (ops : List Word) (irrev : Bool) :
    ∃ t, memIssue i h o legal ops irrev s = .next t ∧ Issued s t i o.token ops (s.core.x o.addr).toNat :=
  ⟨_, (memIssue_on he hs hl _ _).trans (settle_tokenRoom hr _), (s.start_issued _ _ _ _ _ _ _ hw).markIrrevocable _⟩

theorem memIssue_full (he : s.core.enabled h = true) (hs : h.spec = false) {i : Instr} {o : CA} {legal : Bool} (hl : legal = true)
    (hr : (s.core.token o.token).cnt = 15) (ops : List Word) (irrev : Bool) :
    memIssue i h o legal ops irrev s = .next (s.heldBy [.tokenFull o.token]) :=
  (memIssue_on he hs hl _ _).trans (settle_tokenFull hr _ _)

theorem memIssue_illegal (he : s.core.enabled h = true) {i : Instr} {o : CA} {legal : Bool} (hl : legal = false) (ops : List Word) (irrev : Bool) :
    memIssue i h o legal ops irrev s = .next (s.faulted (cslot h) cILLOP (slotWord i)) := by
  subst hl
  exact cissue_illop he _

/-- An enabled element has enabled bytes. -/
theorem Core.enabledBytes_nonempty {c : Core} {o : CV} (hes : c.enabledElems h (esize o.ty) ≠ []) :
    (c.enabledBytes h (esize o.ty)).isEmpty = false := by
  obtain ⟨e, l, he⟩ := List.exists_cons_of_ne_nil hes
  have : 0 < esize o.ty := by cases o.ty <;> decide
  simp [Core.enabledBytes, he]
  omega

theorem vecIssue_on (hs : h.spec = false) {o : CV} (hes : s.core.enabledElems h (esize o.ty) ≠ []) {va : Nat} (hv : s.core.vaddr o.v = some va)
    (i : Instr) {legal : Bool} (hl : legal = true) :
    vecIssue i h o legal s = settle (cslot h) s (tokenRoom s o.token
      (.ok ((s.start i h o.token [s.core.x o.addr, BitVec.ofNat 64 va] (s.core.x o.addr).toNat
        ((s.core.enabledBytes h (esize o.ty)).map (fun p => (p, s.core.vbyte va p))) none).markIrrevocable (o.order != .rlx)))) := by
  simp only [vecIssue, Core.enabledBytes_nonempty hes, hs, hl, hv, Bool.not_true, Bool.or_self, Bool.false_eq_true, if_false]

theorem vecIssue_issues (hs : h.spec = false) (hw : s.memoryWf) {o : CV} (hes : s.core.enabledElems h (esize o.ty) ≠ []) {va : Nat}
    (hv : s.core.vaddr o.v = some va) (hr : (s.core.token o.token).cnt ≠ 15) (i : Instr) {legal : Bool} (hl : legal = true) :
    ∃ t, vecIssue i h o legal s = .next t ∧ Issued s t i o.token [s.core.x o.addr, BitVec.ofNat 64 va] (s.core.x o.addr).toNat :=
  ⟨_, (vecIssue_on hs hes hv i hl).trans (settle_tokenRoom hr _), (s.start_issued _ _ _ _ _ _ _ hw).markIrrevocable _⟩

theorem vecIssue_full (hs : h.spec = false) {o : CV} (hes : s.core.enabledElems h (esize o.ty) ≠ []) {va : Nat}
    (hv : s.core.vaddr o.v = some va) (hr : (s.core.token o.token).cnt = 15) (i : Instr) {legal : Bool} (hl : legal = true) :
    vecIssue i h o legal s = .next (s.heldBy [.tokenFull o.token]) :=
  (vecIssue_on hs hes hv i hl).trans (settle_tokenFull hr _ _)

/-- A vector access is ILLOP in a SPEC bundle, with an order that its row does not list, and with a register outside the view. -/
theorem vecIssue_illop {o : CV} (hes : s.core.enabledElems h (esize o.ty) ≠ []) (i : Instr) {legal : Bool}
    (hc : h.spec = true ∨ legal = false ∨ s.core.vaddr o.v = none) :
    vecIssue i h o legal s = .next (s.faulted (cslot h) cILLOP (slotWord i)) := by
  have hb := Core.enabledBytes_nonempty hes
  rcases hc with hc | hc | hc
  · simp only [vecIssue, hb, hc, Bool.true_or, if_true, Bool.false_eq_true, if_false]
    rfl
  · simp only [vecIssue, hb, hc, Bool.not_false, Bool.or_true, if_true, Bool.false_eq_true, if_false]
    rfl
  · simp only [vecIssue, hb, hc, ite_self, Bool.false_eq_true, if_false]
    rfl

/-- A Crucible instruction outside a SPEC bundle. -/
theorem kissue_on (he : s.core.enabled h = true) (hs : h.spec = false) (i : Instr) (o : CK) (ok changes : Bool) (ext : List (Nat × Nat)) :
    kissue i h o ok changes s ext = settle (cslot h) s (tokenRoom s o.token
      (.ok (((s.start i h o.token [s.core.x o.dst, s.core.x o.hnd, s.core.x o.arg] 0 [] none).markIrrevocable changes).markIrredispatch
        changes))) := by
  simp only [kissue, cissue_on he hs, hs, Bool.false_eq_true, if_false]

theorem kissue_issues (he : s.core.enabled h = true) (hs : h.spec = false) (hw : s.memoryWf) {o : CK} (hr : (s.core.token o.token).cnt ≠ 15)
    (i : Instr) (ok changes : Bool) (ext : List (Nat × Nat)) :
    ∃ t, kissue i h o ok changes s ext = .next t ∧ Issued s t i o.token [s.core.x o.dst, s.core.x o.hnd, s.core.x o.arg] 0 :=
  ⟨_, (kissue_on he hs i o ok changes ext).trans (settle_tokenRoom hr _),
    ((s.start_issued _ _ _ _ _ _ _ hw).markIrrevocable _).markIrredispatch _⟩

theorem kissue_full (he : s.core.enabled h = true) (hs : h.spec = false) {o : CK} (hr : (s.core.token o.token).cnt = 15)
    (i : Instr) (ok changes : Bool) (ext : List (Nat × Nat)) :
    kissue i h o ok changes s ext = .next (s.heldBy [.tokenFull o.token]) :=
  (kissue_on he hs i o ok changes ext).trans (settle_tokenFull hr _ _)

/-- In a SPEC bundle it is ILLOP unless R265 lists it. -/
theorem kissue_spec (he : s.core.enabled h = true) (hs : h.spec = true) {ok : Bool} (hk : ok = false) (i : Instr) (o : CK) (changes : Bool)
    (ext : List (Nat × Nat)) : kissue i h o ok changes s ext = .next (s.faulted (cslot h) cILLOP (slotWord i)) := by
  subst hk
  exact cissue_spec he hs

end

end Sys2Proof.Machine
end

section
/-! ## Copies, fences, watches and sends
The instructions with an issue of their own where R263 to R284 allow them: a plan that waits for its token alone. -/
namespace Sys2Proof.Machine
open Sys2Proof

/-- R266 and R268 refuse neither the shape nor REP. -/
def Core.copyable (c : Core) (o : CB) : Prop := badShape (c.x o.shape) = false ∧ (o.flags.getLsbD 1 = true → o.ssp ≠ 0)

/-- What CPY and CPYR test of shape and REP. -/
def Core.copyRefused (c : Core) (o : CB) : Bool := badShape ((copyOps c o).getD 2 0) || (o.flags.getLsbD 1 && decide (o.ssp = 0))

theorem Core.copyRefused_iff (c : Core) (o : CB) : c.copyRefused o = false ↔ c.copyable o := by
  simp [Core.copyRefused, Core.copyable, copyOps]

section
variable {h : Head} {s : State} (he : s.core.enabled h = true) (hs : h.spec = false)
include he hs

theorem execCpy_on {o : CB} (hc : s.core.copyable o) :
    execCpy h o s = settle (cslot h) s (tokenRoom s o.token
      (.ok ((s.start (.cpy h o) h o.token (copyOps s.core o) 0 [] none).markIrrevocable (orderOf (.cpy h o) != .rlx)))) := by
  have hr := (s.core.copyRefused_iff o).2 hc
  unfold Core.copyRefused at hr
  simp only [execCpy, cissue_on he hs, hr, hs, Bool.false_and, Bool.or_false, Bool.false_eq_true, if_false]

theorem execFence_on {o : CA} (ho : o.so ≠ .rlx) :
    let u := (s.start (.fence h o) h o.token [] (s.core.x o.addr).toNat [] none).markIrrevocable true
    execFence h o s = settle (cslot h) s (tokenRoom s o.token
      (.ok (if Order.releases o.so then u.boundary (.fence (scopeLevel o.scope)) else u))) := by
  have hb : (o.so == .rlx) = false := beq_eq_false_iff_ne.2 ho
  simp only [execFence, cissue_on he hs, hb, Bool.false_eq_true, if_false]

theorem execWaitaddr_on {o : CA} (ho : o.so = .rlx ∨ o.so = .acq) :
    let u := s.start (.waitaddr h o) h o.token [s.core.x o.addr, s.core.x o.val, s.core.x o.x] (s.core.x o.addr).toNat [] none
    let n := s.core.units.cmds.length
    let lim := if s.core.x o.val = 0 then none else some (s.regs.m.tbase.toNat + (s.core.x o.val).toNat)
    execWaitaddr h o s = settle (cslot h) s (tokenRoom s o.token (.ok { u with core := { u.core with units := { u.core.units with
      cmds := u.core.units.cmds.take n ++ (u.core.units.cmds.drop n).map (fun k => { k with limit := lim }) } } })) := by
  have hb : (!(o.so == .rlx || o.so == .acq)) = false := by simpa [or_iff_not_imp_left] using ho
  simp only [execWaitaddr, cissue_on he hs, hb, Bool.false_eq_true, if_false]

end

/-! ### LSEND -/

/-- The orders that the row of LSEND lists. -/
theorem orderOf_lsend (h : Head) (o : CB) :
    (orderOf (.lsend h o) == .rlx || orderOf (.lsend h o) == .rel) = (o.order == 0 || o.order == 2) := by
  dsimp only [orderOf]
  generalize o.order = k
  revert k
  decide

/-- The path of a configured channel. -/
theorem State.holdClear_path {s : State} {ch : BitVec 6} {e : ChEntry} (hf : s.chTableFree = true) (hse : s.sendEntry ch = some e) :
    s.holdClear (.path ch) = !s.pathPaused e := by
  simp only [State.holdClear, hf, hse, Bool.true_and]

section
variable {h : Head} {s : State} {o : CB} (he : s.core.enabled h = true) (hs : h.spec = false)
include he hs

theorem execLsend_illegal (ho : o.scope = .sy ∨ (o.order == 0 || o.order == 2) = false) :
    execLsend h o s = .next (s.faulted (cslot h) cILLOP (slotWord (.lsend h o))) := by
  have hc : o.scope = .sy ∨ (!(orderOf (.lsend h o) == .rlx || orderOf (.lsend h o) == .rel)) = true := by
    rw [orderOf_lsend, Bool.not_eq_true']
    exact ho
  simp only [execLsend, cissue_on he hs, if_pos hc]
  rfl

/-- On a channel without an entry LSEND is ILLOP. -/
theorem execLsend_unconfigured (hf : s.chTableFree = true) (hn : s.sendEntry o.shape = none) :
    execLsend h o s = .next (s.faulted (cslot h) cILLOP (slotWord (.lsend h o))) := by
  simp only [execLsend, cissue_on he hs, hf, hn, Bool.not_true, Bool.false_eq_true, if_false]
  split <;> rfl

/-- On a configured channel LSEND waits for the path, then for its token. -/
theorem execLsend_on (hsc : o.scope ≠ .sy) (ho : o.order = 0 ∨ o.order = 2) (hf : s.chTableFree = true) {e : ChEntry}
    (hse : s.sendEntry o.shape = some e) :
    execLsend h o s = settle (cslot h) s (if s.pathPaused e then .hold [.path o.shape]
      else tokenRoom s o.token (.ok
        ((((s.chTouch e).start (.lsend h o) h o.token [s.core.x o.src] (s.core.x o.src).toNat [] none).irrevocable).markIrredispatch true))) := by
  have hc : ¬(o.scope = .sy ∨ (!(orderOf (.lsend h o) == .rlx || orderOf (.lsend h o) == .rel)) = true) := by
    rw [orderOf_lsend]
    simpa [hsc, or_iff_not_imp_left] using ho
  simp only [execLsend, cissue_on he hs, if_neg hc, hf, hse, State.holdClear_path hf hse, Bool.not_true, Bool.not_not, Bool.false_eq_true, if_false]

theorem execLsend_issues (hw : s.memoryWf) (hsc : o.scope ≠ .sy) (ho : o.order = 0 ∨ o.order = 2) (hf : s.chTableFree = true) {e : ChEntry}
    (hse : s.sendEntry o.shape = some e) (hp : s.pathPaused e = false) (hr : (s.core.token o.token).cnt ≠ 15) :
    ∃ t, execLsend h o s = .next t ∧ Issued s t (.lsend h o) o.token [s.core.x o.src] (s.core.x o.src).toNat := by
  have hw' : (s.chTouch e).memoryWf := by rw [State.memoryWf, State.chTouch_mem]; exact hw
  rw [execLsend_on he hs hsc ho hf hse, hp]
  exact ⟨_, settle_tokenRoom hr _, (((State.start_issued _ _ _ _ _ _ _ _ hw').irrevocable).markIrredispatch _).of_chTouch⟩

end

/-- Settles O44: each instruction waits for nothing but its token, and `State.start` leaves its command outstanding. -/
theorem copySlotIssues : Obligations.CopySlotIssues := by
  intro h s hs hw c room issues
  refine ⟨fun he => ⟨fun o hr => ⟨fun hb hrep => ?cpy, fun hsc ho hf ⟨e, hse, hp⟩ => execLsend_issues he hs hw hsc ho hf hse hp hr⟩,
    fun o hr => ⟨fun ho => ?ldg, fun ho => ?stg, ?amo, fun ho => ?cas, fun ho => ?fence, fun ho => ?waitaddr⟩⟩,
    fun o va hr hes hv => ⟨fun ho => ?vldg, fun ho => ?vstg⟩⟩
  case cpy => exact ⟨_, (execCpy_on he hs ⟨hb, hrep⟩).trans (settle_tokenRoom hr _), (s.start_issued _ _ _ _ _ _ _ hw).markIrrevocable _⟩
  case ldg => exact memIssue_issues he hs hw (by simpa [or_assoc] using ho) hr _ _
  case stg => exact memIssue_issues he hs hw (by simpa [or_assoc] using ho) hr _ _
  case amo => exact memIssue_issues he hs hw rfl hr _ _
  case cas => exact memIssue_issues he hs hw (by simpa [← imp_iff_not_or] using ho) hr _ _
  case fence =>
    refine ⟨_, (execFence_on he hs ho).trans (settle_tokenRoom hr _), ?_⟩
    have hi := (s.start_issued (.fence h o) h o.token [] (s.core.x o.addr).toNat [] none hw).markIrrevocable true
    split
    · exact hi.boundary _
    · exact hi
  case waitaddr =>
    exact ⟨_, (execWaitaddr_on he hs ho).trans (settle_tokenRoom hr _), (s.start_issued _ _ _ _ _ _ _ hw).limit _⟩
  case vldg => exact vecIssue_issues hs hw hes hv hr _ (by simpa using ho)
  case vstg => exact vecIssue_issues hs hw hes hv hr _ (by simpa using ho)

end Sys2Proof.Machine
end

section
/-! ## Producers and consumers of rings
A slot of a configured ring is taken where the ring has room after what earlier slots of the bundle reserve; the move waits for the
boundary (03 R81; 11 R271, R272; log 39). -/
namespace Sys2Proof.Machine
open Sys2Proof

/-- The slot that the next producer of the bundle takes. -/
def Core.nextSlot (c : Core) (n : HRing) : Nat := ((c.ring n).resv + BitVec.ofNat 12 (c.claimed n)).toNat

/-- A producer command as it issues: its slot is named, its claim is left to the boundary. -/
def State.produce (s : State) (i : Instr) (h : Head) (tok : KTok) (ops : List Word) (n : HRing) : State :=
  (s.start i h tok ops ((s.core.ring n).slotAddr (s.core.nextSlot n)) [] (some (n.toNat, s.core.nextSlot n))).boundary
    (.claim n ⟨s.core.units.nextSeq, 1, false⟩)

/-- It is outstanding on the slot; the ring stands until the boundary. -/
theorem State.produce_issued {s : State} (hw : s.memoryWf) (i : Instr) (h : Head) (tok : KTok) (ops : List Word) (n : HRing) :
    let t := s.produce i h tok ops n
    Issued s t i tok ops ((s.core.ring n).slotAddr (s.core.nextSlot n)) ∧ t.core.ring n = s.core.ring n ∧
      t.core.front.bnd = s.core.front.bnd ++ [.claim n ⟨s.core.units.nextSeq, 1, false⟩] := by
  refine ⟨(s.start_issued _ _ _ _ _ _ _ hw).boundary _, ?_, ?_⟩
  · simp only [State.produce, Core.ring, State.boundary_core_units, State.start_rings]
  · simp only [State.produce, State.boundary_bnd, State.start_front]

/-! ### What is refused -/

/-- The count that RADV moves by. -/
def Core.radvCount (c : Core) (o : CB) : Nat := fld (c.x o.src) 0 12

section
variable {h : Head} {s : State} (he : s.core.enabled h = true)
include he

/-- What CPYR refuses. -/
theorem execCpyr_illop {o : CB} (hc : ¬s.core.copyable o ∨ (s.core.ring o.ring).on = false ∨ s.okRing (s.core.ring o.ring).word = false ∨
      outsideSlot (slotBytes (s.core.ring o.ring).ssz.toNat) (copyOps s.core o) = true) :
    execCpyr h o s = .next (s.faulted (cslot h) cILLOP (slotWord (.cpyr h o))) := by
  rw [← s.core.copyRefused_iff o, Bool.not_eq_false] at hc
  unfold Core.copyRefused at hc
  have hb : (badShape ((copyOps s.core o).getD 2 0) || (o.flags.getLsbD 1 && decide (o.ssp = 0)) || !(s.core.ring o.ring).on ||
      !s.okRing (s.core.ring o.ring).word || outsideSlot (slotBytes (s.core.ring o.ring).ssz.toNat) (copyOps s.core o)) = true := by
    rcases hc with hc | hc | hc | hc <;> simp only [hc, Bool.not_false, Bool.or_true, Bool.true_or]
  simp only [execCpyr, hb, cissue_illop he, if_true]

/-- RADV is ILLOP on an unconfigured ring and beyond the slots that the ring has. -/
theorem execRadv_illop {o : CB} (hc : (s.core.ring o.ring).on = false ∨ (s.core.ring o.ring).nslot.toNat + 1 < s.core.radvCount o) :
    execRadv h o s = .next (s.faulted (cslot h) cILLOP (slotWord (.radv h o))) := by
  have hb : (!(s.core.ring o.ring).on || decide ((s.core.ring o.ring).nslot.toNat + 1 < fld (s.core.x o.src) 0 12)) = true := by
    rcases hc with hc | hc
    · rw [hc]; rfl
    · rw [decide_eq_true (by exact hc), Bool.or_true]
  simp only [execRadv, hb, cissue_illop he, if_true]

end

/-! ### KLD into a ring -/

/-- Without a ring KLD issues as the other Crucible instructions do. -/
theorem execKld_plain {h : Head} {o : CK} {s : State} (hr : o.ringed = false) : execKld h o s = kissue (.kld h o) h o true false s := by
  simp only [execKld, hr, Bool.not_false, if_true]

section
variable {h : Head} {s : State} (he : s.core.enabled h = true) (hs : h.spec = false)
include he hs

theorem execKld_ring {o : CK} (hr : o.ringed = true) (hon : (s.core.ring o.ring).on = true) (hok : s.okRing (s.core.ring o.ring).word = true) :
    execKld h o s = settle (cslot h) s (if (s.core.ring o.ring).full (1 + s.core.claimed o.ring) then .hold [.ringFull o.ring 1]
      else tokenRoom s o.token (.ok (s.produce (.kld h o) h o.token [s.core.x o.dst, s.core.x o.hnd, s.core.x o.arg] o.ring))) := by
  simp only [execKld, hr, hon, hok, cissue_on he hs, State.holdClear, Bool.not_true, Bool.not_not, Bool.or_self, Bool.false_eq_true, if_false]
  rfl

/-! ### CPYR -/

theorem execCpyr_on {o : CB} (hc : s.core.copyable o) (hon : (s.core.ring o.ring).on = true) (hok : s.okRing (s.core.ring o.ring).word = true)
    (hin : outsideSlot (slotBytes (s.core.ring o.ring).ssz.toNat) (copyOps s.core o) = false) :
    execCpyr h o s = settle (cslot h) s (if (s.core.ring o.ring).full (1 + s.core.claimed o.ring) then .hold [.ringFull o.ring 1]
      else tokenRoom s o.token
        (.ok ((s.produce (.cpyr h o) h o.token (copyOps s.core o) o.ring).markIrrevocable (orderOf (.cpyr h o) != .rlx)))) := by
  have hr := (s.core.copyRefused_iff o).2 hc
  unfold Core.copyRefused at hr
  simp only [execCpyr, hr, hon, hok, hin, cissue_on he hs, State.holdClear, Bool.not_true, Bool.not_not, Bool.or_self, Bool.false_eq_true, if_false]
  rfl

/-! ### RADV -/

/-- On a configured ring RADV by a count that the ring can hold is logged and, as its flag says, pops or claims. -/
theorem execRadv_on {o : CB} (hon : (s.core.ring o.ring).on = true) (hn : s.core.radvCount o ≤ (s.core.ring o.ring).nslot.toNat + 1) :
    let n := s.core.radvCount o
    let u := s.logged (.radv h o) h [s.core.x o.src]
    execRadv h o s = settle (cslot h) s (
      if n = 0 then .ok u
      else if o.flags.getLsbD 0 then
        if n + s.core.taken o.ring ≤ (s.core.ring o.ring).filled then .ok (u.boundary (.pop o.ring ⟨s.core.units.nextNum, n, true⟩))
        else .hold [.ringFill o.ring n]
      else if (s.core.ring o.ring).full (n + s.core.claimed o.ring) then .hold [.ringFull o.ring n]
      else .ok (u.boundary (.claim o.ring ⟨s.core.units.nextSeq, n, true⟩))) := by
  have hb : (!(s.core.ring o.ring).on || decide ((s.core.ring o.ring).nslot.toNat + 1 < fld (s.core.x o.src) 0 12)) = false := by
    rw [hon, decide_eq_false (by exact Nat.not_lt.2 hn)]; rfl
  simp only [execRadv, hb, cissue_on he hs, State.holdClear, Bool.not_not, Bool.not_eq_true', decide_eq_false_iff_not, ite_not,
    Bool.false_eq_true, if_false]
  rfl

end

/-- Settles O45: a Crucible instruction waits for its token; KLD into a ring first for a slot. -/
theorem crucibleIssues : Obligations.CrucibleIssues := by
  intro h o s hs hw he hr ops issues
  have hk (i : Instr) (ok changes : Bool) (ext : List (Nat × Nat)) :
      ∃ t, kissue i h o ok changes s ext = .next t ∧ Issued s t i o.token ops 0 := kissue_issues he hs hw hr i ok changes ext
  refine ⟨hk _ _ _ _, hk _ _ _ _, hk _ _ _ _, hk _ _ _ _, hk _ _ _ _, hk _ _ _ _, hk _ _ _ _, hk _ _ _ _, hk _ _ _ _, hk _ _ _ _,
    hk _ _ _ _, fun hrg => ?plain, fun hrg hon hok => ⟨fun hf => ?full, fun hf => ?room⟩⟩
  case plain =>
    obtain ⟨t, ht, hi⟩ := hk (.kld h o) true false []
    exact ⟨t, (execKld_plain hrg).trans ht, hi⟩
  case full =>
    have hx := execKld_ring he hs hrg hon hok
    rw [if_pos hf] at hx
    exact hx
  case room =>
    have hx := execKld_ring he hs hrg hon hok
    rw [if_neg (by rw [hf]; decide)] at hx
    exact ⟨_, hx.trans (settle_tokenRoom hr _), State.produce_issued hw _ _ _ _ _⟩

/-- Settles O46: CPYR is a producer copy on its ring, RADV claims or pops where the ring has the slots. -/
theorem ringProducers : Obligations.RingProducers := by
  intro h o s hs hw he c r ops n m
  refine ⟨fun hb hrep hon hok hin => ⟨fun hf => ?full, fun hf hr => ?room⟩, fun hon hn => ?radv⟩
  case full =>
    have hx := execCpyr_on he hs ⟨hb, hrep⟩ hon hok hin
    rw [if_pos hf] at hx
    exact hx
  case room =>
    have hx := execCpyr_on he hs ⟨hb, hrep⟩ hon hok hin
    rw [if_neg (by rw [hf]; decide)] at hx
    obtain ⟨hi, hring, hbnd⟩ := State.produce_issued hw (.cpyr h o) h o.token (copyOps s.core o) o.ring
    refine ⟨_, hx.trans (settle_tokenRoom hr _), hi.markIrrevocable _, ?_, ?_⟩
    · unfold State.markIrrevocable; split <;> exact hring
    · unfold State.markIrrevocable; split <;> exact hbnd
  case radv =>
    have hx := execRadv_on he hs hon hn
    dsimp only at hx
    have hl := s.logged_logs (.radv h o) h [s.core.x o.src] []
    have hb := congrArg Front.bnd hl.front
    have hbnd (b : Bnd) : ((s.logged (.radv h o) h [s.core.x o.src]).boundary b).core.front.bnd = s.core.front.bnd ++ [b] := by
      rw [State.boundary_bnd, hb]
    intro same
    have hsame : same (s.logged (.radv h o) h [s.core.x o.src]) := ⟨hl.units, hl.regs, hl.pipe, hl.ctl, hl.mem hw⟩
    refine ⟨fun h0 => ?zero, fun h0 hfl => ⟨fun hlt => ?empty, fun hle => ?pop⟩, fun h0 hfl => ⟨fun hf => ?noRoom, fun hf => ?claim⟩⟩
    case zero =>
      rw [if_pos (by exact h0)] at hx
      exact ⟨_, hx, hb, hsame⟩
    case empty =>
      rw [if_neg (by exact h0), if_pos hfl, if_neg (by exact Nat.not_le.2 hlt)] at hx
      exact hx
    case pop =>
      rw [if_neg (by exact h0), if_pos hfl, if_pos (by exact hle)] at hx
      exact ⟨_, hx, hbnd _, hsame⟩
    case noRoom =>
      rw [if_neg (by exact h0), if_neg (by rw [hfl]; decide), if_pos (by exact hf)] at hx
      exact hx
    case claim =>
      rw [if_neg (by exact h0), if_neg (by rw [hfl]; decide), if_neg (by exact Bool.not_eq_true _ ▸ hf)] at hx
      exact ⟨_, hx, hbnd _, hsame⟩

end Sys2Proof.Machine
end

section
/-! ## The cluster bus
BCAST and LATCH act in a lockstep group on an aligned valid extent (11 R281). -/
namespace Sys2Proof.Machine
open Sys2Proof

theorem State.bus_cluster (s : State) : s.bus.cluster = s.core.cid := by
  unfold State.bus
  cases hf : s.buses.find? (fun b => b.cluster == s.core.cid) with
  | none => rfl
  | some b => exact eq_of_beq (List.find?_some hf :)

/-- The bus of the cluster is the one put there. -/
theorem State.bus_setBus (s : State) {b : Bus} (hb : b.cluster = s.core.cid) : (s.setBus b).bus = b := by
  have hn : (s.buses.filter (fun d => d.cluster != s.core.cid)).find? (fun d => d.cluster == s.core.cid) = none := by simp
  simp only [State.bus, State.setBus, hb, List.find?_append, hn, List.find?_cons, beq_self_eq_true, Option.none_or, Option.getD_some]

/-- A segment driven onto the bus. -/
def State.driven (s : State) (a : Nat) : State := s.setBus { s.bus with segs := s.bus.segs ++ [s.bankRead 0 a 512] }
/-- A LATCH waiting for the segment. -/
def State.latching (s : State) (a : Nat) : State := s.setBus { s.bus with latches := s.bus.latches ++ [(s.core.cnum, a)] }

theorem State.Logs.bus_driven {s t : State} (h : s.Logs t) (a : Nat) :
    (t.driven a).bus = { s.bus with segs := s.bus.segs ++ [s.bankRead 0 a 512] } := by
  refine (State.bus_setBus t (by exact t.bus_cluster)).trans ?_
  rw [h.bus, h.bankRead]

theorem State.Logs.bus_latching {s t : State} (h : s.Logs t) (a : Nat) :
    (t.latching a).bus = { s.bus with latches := s.bus.latches ++ [(s.core.cnum, a)] } := by
  refine (State.bus_setBus t (by exact t.bus_cluster)).trans ?_
  rw [h.bus, h.cnum]

theorem execBcast_bus (h : Head) (o : CB) (s : State) :
    execBcast h o s = busIssue (.bcast h o) h (s.core.x o.src) s (fun u => u.driven (s.core.x o.src).toNat) := rfl
theorem execLatch_bus (h : Head) (o : CB) (s : State) :
    execLatch h o s = busIssue (.latch h o) h (s.core.x o.dst) s (fun u => u.latching (s.core.x o.dst).toNat) := rfl

section
variable {h : Head} {s : State} {a : Word} (he : s.core.enabled h = true) (i : Instr) (f : State → State)
include he

theorem busIssue_ungrouped (hl : s.core.lockm = 0) : busIssue i h a s f = .next (s.faulted (cslot h) cILLOP (slotWord i)) := by
  simp only [busIssue, hl, if_true, cissue_illop he]

variable (hs : h.spec = false) (hl : s.core.lockm ≠ 0)
include hs hl

theorem busIssue_misaligned (ha : a.toNat % 256 ≠ 0) : busIssue i h a s f = .next (s.faulted (cslot h) cALIGN a) := by
  simp only [busIssue, cissue_on he hs, if_neg hl, if_pos ha]
  rfl

theorem busIssue_outside (ha : a.toNat % 256 = 0) (hb : s.okBanks a.toNat 512 = false) :
    busIssue i h a s f = .next (s.faulted (cslot h) cXLATE a) := by
  simp only [busIssue, cissue_on he hs, if_neg hl, if_neg (not_not.2 ha), hb, Bool.not_false, if_true]
  rfl

theorem busIssue_on (ha : a.toNat % 256 = 0) (hb : s.okBanks a.toNat 512 = true) :
    busIssue i h a s f = .next (f (s.logged i h [a]).irrevocable) := by
  simp only [busIssue, cissue_on he hs, if_neg hl, if_neg (not_not.2 ha), hb, Bool.not_true, Bool.false_eq_true, if_false]
  rfl

end

end Sys2Proof.Machine
end

section
/-! ## Receiving
LRECV by what it finds in the queue of its channel (11 R284). -/
namespace Sys2Proof.Machine
open Sys2Proof

/-- The orders that the row of LRECV lists. -/
theorem orderOf_lrecv (h : Head) (o : CB) :
    (orderOf (.lrecv h o) == .rlx || orderOf (.lrecv h o) == .acq) = (o.order == 0 || o.order == 1) := by
  dsimp only [orderOf]
  generalize o.order = k
  revert k
  decide

theorem not_lrecv_illegal {h : Head} {o : CB} (hsc : o.scope ≠ .sy) (ho : o.order = 0 ∨ o.order = 1) :
    ¬(o.scope = .sy ∨ (!(orderOf (.lrecv h o) == .rlx || orderOf (.lrecv h o) == .acq)) = true) := by
  rw [orderOf_lrecv]
  simpa [hsc, or_iff_not_imp_left] using ho

/-- A channel that no sender waits for is not resumed. -/
theorem State.resumeChannel_idle {s : State} {e : Nat} (h : (s.channel e).paused = false) : s.resumeChannel e = s := by
  simp [State.resumeChannel, h]

/-- A channel put back with another queue is found under its own entry. -/
theorem State.channel_requeued (s u : State) (i : Nat) (q : List QMsg) :
    (u.setChannel { s.channel i with queue := q }).channel i = { s.channel i with queue := q } := by
  have hc := u.channel_setChannel { s.channel i with queue := q }
  rwa [show ({ s.channel i with queue := q } : Channel).entry = i from s.channel_entry i] at hc

/-- The state in which LRECV has taken the oldest message of its channel. -/
def State.received (s : State) (h : Head) (o : CB) (e : ChEntry) (bs : List Byte) (rest : List QMsg) : State :=
  let u := ((((s.chTouch e).logged (.lrecv h o) h [s.core.x o.dst]).irrevocable).markIrredispatch true).setChannel
    { s.channel e.idx with queue := rest }
  { u with core := u.core.pushBank 4 (u.bankCellsAll true (s.core.x o.dst).toNat bs) }

/-- What LRECV does at an aligned valid address. -/
def State.receive (s : State) (h : Head) (o : CB) (e : ChEntry) : SlotRes :=
  match (s.channel e.idx).queue with
  | [] => if (s.channel e.idx).down then .fault cLINKDOWN 0xFF (s.core.x o.dst) else .hold [.empty o.shape]
  | .failed code :: _ => .fault code.toNat 0xFF (BitVec.ofNat 64 (2 ^ 63 + o.shape.toNat))
  | .msg bs :: rest =>
    let u := ((((s.chTouch e).logged (.lrecv h o) h [s.core.x o.dst]).irrevocable).markIrredispatch true).setChannel
      { s.channel e.idx with queue := rest }
    let v := u.resumeChannel e.idx
    .ok { v with core := v.core.pushBank 4 (v.bankCellsAll true (s.core.x o.dst).toNat bs) }

section
variable {h : Head} {s : State} {o : CB} (he : s.core.enabled h = true) (hs : h.spec = false)
include he hs

theorem execLrecv_illegal (ho : o.scope = .sy ∨ (o.order == 0 || o.order == 1) = false) :
    execLrecv h o s = .next (s.faulted (cslot h) cILLOP (slotWord (.lrecv h o))) := by
  have hc : o.scope = .sy ∨ (!(orderOf (.lrecv h o) == .rlx || orderOf (.lrecv h o) == .acq)) = true := by
    rw [orderOf_lrecv, Bool.not_eq_true']
    exact ho
  simp only [execLrecv, cissue_on he hs, if_pos hc]
  rfl

/-- On a channel without an entry LRECV is ILLOP. -/
theorem execLrecv_unconfigured (hf : s.chTableFree = true) (hn : s.recvEntry o.shape = none) :
    execLrecv h o s = .next (s.faulted (cslot h) cILLOP (slotWord (.lrecv h o))) := by
  simp only [execLrecv, cissue_on he hs, hf, hn, Bool.not_true, Bool.false_eq_true, if_false]
  split <;> rfl

variable (hsc : o.scope ≠ .sy) (ho : o.order = 0 ∨ o.order = 1) (hf : s.chTableFree = true) {e : ChEntry} (hr : s.recvEntry o.shape = some e)
include hsc ho hf hr

theorem execLrecv_misaligned (ha : (s.core.x o.dst).toNat % 256 ≠ 0) :
    execLrecv h o s = .next (s.faulted (cslot h) cALIGN (s.core.x o.dst)) := by
  simp only [execLrecv, cissue_on he hs, if_neg (not_lrecv_illegal hsc ho), hf, hr, Bool.not_true, Bool.false_eq_true, if_false, if_pos ha]
  rfl

variable (ha : (s.core.x o.dst).toNat % 256 = 0)
include ha

theorem execLrecv_outside (hb : s.okBanks (s.core.x o.dst).toNat 256 = false) :
    execLrecv h o s = .next (s.faulted (cslot h) cXLATE (s.core.x o.dst)) := by
  simp only [execLrecv, cissue_on he hs, if_neg (not_lrecv_illegal hsc ho), hf, hr, Bool.not_true, Bool.false_eq_true, if_false,
    if_neg (not_not.2 ha), hb, Bool.not_false, if_true]
  rfl

variable (hb : s.okBanks (s.core.x o.dst).toNat 256 = true)
include hb

/-- At an aligned valid address the queue decides. -/
theorem execLrecv_on : execLrecv h o s = settle (cslot h) s (s.receive h o e) := by
  simp only [execLrecv, cissue_on he hs, if_neg (not_lrecv_illegal hsc ho), hf, hr, Bool.not_true, Bool.false_eq_true, if_false,
    if_neg (not_not.2 ha), hb]
  unfold State.receive
  generalize (s.channel e.idx).queue = q
  rcases q with _ | ⟨_ | _, _⟩ <;> rfl

theorem execLrecv_empty (hq : (s.channel e.idx).queue = []) (hd : (s.channel e.idx).down = false) :
    execLrecv h o s = .next (s.heldBy [.empty o.shape]) := by
  rw [execLrecv_on he hs hsc ho hf hr ha hb, State.receive, hq, hd]
  rfl

theorem execLrecv_down (hq : (s.channel e.idx).queue = []) (hd : (s.channel e.idx).down = true) :
    execLrecv h o s = .next (s.faulted (cslot h) cLINKDOWN (s.core.x o.dst)) := by
  rw [execLrecv_on he hs hsc ho hf hr ha hb, State.receive, hq, hd]
  rfl

theorem execLrecv_failed {code : BitVec 3} {rest : List QMsg} (hq : (s.channel e.idx).queue = .failed code :: rest) :
    execLrecv h o s = .next (s.faulted (cslot h) code.toNat (BitVec.ofNat 64 (2 ^ 63 + o.shape.toNat))) := by
  rw [execLrecv_on he hs hsc ho hf hr ha hb, State.receive, hq]
  rfl

theorem execLrecv_msg {bs : List Byte} {rest : List QMsg} (hq : (s.channel e.idx).queue = .msg bs :: rest)
    (hp : (s.channel e.idx).paused = false) : execLrecv h o s = .next (s.received h o e bs rest) := by
  have hidle (u : State) : (u.setChannel { s.channel e.idx with queue := rest }).resumeChannel e.idx =
      u.setChannel { s.channel e.idx with queue := rest } :=
    State.resumeChannel_idle (by rw [State.channel_requeued]; exact hp)
  rw [execLrecv_on he hs hsc ho hf hr ha hb, State.receive, hq]
  dsimp only
  rw [hidle]
  rfl

end

/-- The message has left the queue and is on its way to the back banks; nothing else of the core, and no memory, has changed. -/
theorem State.received_spec {s : State} (hw : s.memoryWf) (h : Head) (o : CB) (e : ChEntry) (bs : List Byte) (rest : List QMsg) :
    let t := s.received h o e bs rest
    (t.channel e.idx).queue = rest ∧
    t.core.pipe.bwq = s.core.pipe.bwq ++ [⟨4, s.bankCellsAll true (s.core.x o.dst).toNat bs⟩] ∧ t.core.pipe.pwq = s.core.pipe.pwq ∧
    t.core.regs = s.core.regs ∧ t.core.ctl = s.core.ctl ∧ t.core.units = s.core.units ∧ s.sameMemory t := by
  have hl := (((s.chTouch e).logged_logs (.lrecv h o) h [s.core.x o.dst] []).of_chTouch.irrevocable).markIrredispatch true
  unfold State.received
  generalize (((s.chTouch e).logged (.lrecv h o) h [s.core.x o.dst]).irrevocable).markIrredispatch true = u at hl ⊢
  refine ⟨congrArg Channel.queue (State.channel_requeued s u e.idx rest), ?_, (congrArg Pipe.pwq hl.pipe :), hl.regs, hl.ctl, hl.units, hl.mem hw⟩
  change u.core.pipe.bwq ++ [⟨4, u.bankCellsAll true (s.core.x o.dst).toNat bs⟩] = _
  rw [hl.pipe, hl.bankCellsAll]

/-- Settles O47: each instruction in its own lemma; what is logged first leaves all that is compared. -/
theorem bindAndBus : Obligations.BindAndBus := by
  intro h s hs hw he c still
  have hstill {t u : State} (hl : s.Logs t) (hr : u.core.regs = t.core.regs) (hc : u.core.ctl = t.core.ctl)
      (hu : u.core.units = t.core.units) (hm : u.memory.mem = t.memory.mem) : still u :=
    ⟨hr.trans hl.regs, hc.trans hl.ctl, congrArg Units.cmds (hu.trans hl.units), fun a ha => (congrArg (·.get a) hm).trans (hl.mem hw a ha)⟩
  have hbnd {t : State} (hl : s.Logs t) (b : Bnd) : (t.boundary b).core.front.bnd = c.front.bnd ++ [b] := by
    rw [State.boundary_bnd, hl.front]
  refine ⟨cissue_on he hs true, fun o => ⟨fun hb => ?bind, ?unbind⟩,
    fun o => ⟨fun hg ha hb => ?bcast, fun hg ha hb => ?latch, fun e bs rest hsc ho hf hre hq hp ha hb => ?lrecv⟩⟩
  case bind =>
    have hx : execBind h o s = settle (cslot h) s _ := cissue_on he hs false
    rw [if_neg (by rw [hb]; decide)] at hx
    exact ⟨_, hx, hbnd (s.logged_logs _ _ _ _) _, hstill (s.logged_logs _ _ _ _) rfl rfl rfl rfl⟩
  case unbind =>
    exact ⟨_, cissue_on he hs false, hbnd (s.logged_logs _ _ _ _) _, hstill (s.logged_logs _ _ _ _) rfl rfl rfl rfl⟩
  case bcast =>
    have hl := (s.logged_logs (.bcast h o) h [c.x o.src] []).irrevocable
    exact ⟨_, (execBcast_bus h o s).trans (busIssue_on he _ _ hs hg ha hb), hl.bus_driven _, hl.pipe, hstill hl rfl rfl rfl rfl⟩
  case latch =>
    have hl := (s.logged_logs (.latch h o) h [c.x o.dst] []).irrevocable
    exact ⟨_, (execLatch_bus h o s).trans (busIssue_on he _ _ hs hg ha hb), hl.bus_latching _, hl.pipe, hstill hl rfl rfl rfl rfl⟩
  case lrecv =>
    obtain ⟨hch, hbwq, hpwq, hregs, hctl, hunits, hmem⟩ := State.received_spec hw h o e bs rest
    exact ⟨_, execLrecv_msg he hs hsc ho hf hre ha hb hq hp, hch, hbwq, hpwq, hregs, hctl, congrArg Units.cmds hunits, hmem⟩

end Sys2Proof.Machine
end

section
/-! ## A fan-out that the log's own event completes
A fan-out that awaits nobody is completed by the next write to its line, and the event at the end of a replay's log is such a write. -/
namespace Sys2Proof.Machine
open Sys2Proof

/-- A slot that is always enabled, outside a SPEC bundle. -/
def loggedStepHead : Head := { unit := false, spec := false, ga := 0, gb := 0, gc := 0, gt := 0xFF, tri := false }

/-- SSTEP.st. -/
def loggedStep : CB := { dst := 0, src := 0, shape := 0, token := 0, order := 0, scope := .st, ringed := false, ring := 0, flags := 0 }

/-- A core outside any group that has replayed its log but for an SSTEP; the line of the event ring has a fan-out that performs a write
of the core and awaits neither agents nor the host. -/
def loggedStepState : State :=
  let r := State.reset
  { r with
    core := { r.core with phase := { r.core.phase with log := [⟨.sstep loggedStepHead loggedStep, [], []⟩], replay := some 0 } }
    memory := { r.memory with
      dir := [{ line := 0, sharers := .pointers [], hostShares := false, out := [], twin := none, stamp := (0, 0),
                fan := some { num := 0, await := [], inval := [], acking := [], keep := [], host := false, wrote := [(0, 0)] } }] } }

/-- The fan-out has ended when SSTEP looks for it, and SSTEP goes on. -/
theorem loggedStepState_goesOn :
    ∃ t, exec (.sstep loggedStepHead loggedStep) loggedStepState = .next t ∧ t.core.front.stat = .ready :=
  ⟨_, rfl, by decide⟩

/-- Refutes O48: SSTEP looks for the fan-outs that perform its writes after its log entry, whose event can complete one that awaits nobody,
as no run leaves one; then it does not wait (`loggedStepState_goesOn`). -/
theorem not_barrierIssues : ¬ Obligations.BarrierIssues := by
  intro hall
  obtain ⟨-, -, hwait, -⟩ := hall loggedStepHead loggedStep loggedStepState rfl rfl (by decide) (by decide) (by decide)
  obtain ⟨t, ht, hready⟩ := loggedStepState_goesOn
  have hheld := ht.symm.trans (hwait (by decide) (by decide) (by decide) (by decide))
  rw [Host.Outcome.next.injEq] at hheld
  rw [hheld] at hready
  cases hready

end Sys2Proof.Machine
end

section
/-! ## Where the copy slots refuse
ILLOP by the bundle, by operands and by scope (11 R265, R266, R273 to R284). -/
namespace Sys2Proof.Machine
open Sys2Proof

section
variable {h : Head} {s : State} (he : s.core.enabled h = true)
include he

/-- A barrier instruction is ILLOP in a SPEC bundle and at scope .sy. -/
theorem barIssue_illop {o : CB} (hc : h.spec = true ∨ o.scope = .sy) (i : Instr) (body : State → Host.Outcome State Fault Refusal) :
    barIssue i h o s body = .next (s.faulted (cslot h) cILLOP (slotWord i)) := by
  simp only [barIssue, he, Bool.not_true, Bool.false_eq_true, if_false, if_pos hc]
  rfl

theorem barriers_illop {o : CB} (hc : h.spec = true ∨ o.scope = .sy) :
    let illop (i : Instr) : Prop := exec i s = .next (s.faulted (cslot h) cILLOP (slotWord i))
    illop (.bar h o) ∧ illop (.bara h o) ∧ illop (.barw h o) ∧ illop (.sstep h o) :=
  ⟨(barIssue_illop he hc _ _ : execBar h o s = _), (barIssue_illop he hc _ _ : execBara h o s = _), (barIssue_illop he hc _ _ : execBarw h o s = _),
    (by unfold execSstep; exact barIssue_illop he hc _ _ : execSstep h o s = _)⟩

/-- CPY is ILLOP with a shape or REP that it refuses, and in a SPEC bundle unless it goes into bank pairs. -/
theorem execCpy_illop {o : CB} (hc : ¬s.core.copyable o ∨
      h.spec = true ∧ (o.dsp ≠ 0 ∨ ∃ e ∈ copyDests (copyOps s.core o), s.inPairs e.1 e.2 = false)) :
    execCpy h o s = .next (s.faulted (cslot h) cILLOP (slotWord (.cpy h o))) := by
  rw [← s.core.copyRefused_iff o, Bool.not_eq_false] at hc
  unfold Core.copyRefused at hc
  rcases hc with hc | ⟨hs, hd | ⟨e, hm, hp⟩⟩
  · simp only [execCpy, hc, Bool.true_or, if_true, cissue_illop he]
  · rw [execCpy, decide_eq_false hd]
    exact cissue_spec he hs
  · have hall : (copyDests (copyOps s.core o)).all (fun e => s.inPairs e.1 e.2) = false := List.all_eq_false.2 ⟨e, hm, by simp [hp]⟩
    simp only [execCpy, hs, hall, Bool.not_false, Bool.and_self, Bool.or_true, if_true, cissue_illop he]

/-- In a SPEC bundle a command with a record is ILLOP where it changes the store, or its record lies outside the bank pairs. -/
theorem recordIssue_spec (hs : h.spec = true) {i : Instr} {o : CK} {n : Nat} {changes : Bool}
    (hc : changes = true ∨ s.inPairs (s.core.x o.dst).toNat n = false) :
    recordIssue i h o n changes s = .next (s.faulted (cslot h) cILLOP (slotWord i)) :=
  kissue_spec he hs (by rcases hc with hc | hc <;> simp [hc]) i o changes _

/-- FENCE has no relaxed form. -/
theorem execFence_illop {o : CA} (ho : o.so = .rlx) : execFence h o s = .next (s.faulted (cslot h) cILLOP (slotWord (.fence h o))) := by
  simp only [execFence, ho, beq_self_eq_true, if_true, cissue_illop he]

theorem execWaitaddr_illop {o : CA} (hr : o.so ≠ .rlx) (ha : o.so ≠ .acq) :
    execWaitaddr h o s = .next (s.faulted (cslot h) cILLOP (slotWord (.waitaddr h o))) := by
  have hb : (!(o.so == .rlx || o.so == .acq)) = true := by simp [hr, ha]
  simp only [execWaitaddr, hb, if_true, cissue_illop he]

theorem execBind_illop {o : CA} (hb : badBind s.bindingsNext (s.core.x o.val) (s.core.x o.x) (s.core.x o.addr) = true) :
    execBind h o s = .next (s.faulted (cslot h) cILLOP (slotWord (.bind h o))) := by
  simp only [execBind, hb, if_true, cissue_illop he]

/-- KLD into a ring that is not configured or not valid is ILLOP; so it is into any in a SPEC bundle. -/
theorem execKld_illop {o : CK} (hr : o.ringed = true)
    (hc : h.spec = true ∨ (s.core.ring o.ring).on = false ∨ s.okRing (s.core.ring o.ring).word = false) :
    execKld h o s = .next (s.faulted (cslot h) cILLOP (slotWord (.kld h o))) := by
  simp only [execKld, hr, Bool.not_true, Bool.false_eq_true, if_false]
  rcases hc with hs | hc | hc
  · exact cissue_spec he hs
  · simp only [hc, Bool.not_false, Bool.true_or, if_true, cissue_illop he]
  · simp only [hc, Bool.not_false, Bool.or_true, if_true, cissue_illop he]

end

/-- Settles O49: each instruction by the checks of its issue, in their order. -/
theorem copySlotRefusals : Obligations.CopySlotRefusals := by
  intro h s he c illop
  refine ⟨fun hs => ?spec, fun hs => ⟨fun o => ?memory, fun o va hes hv => ?vector, fun o hes hv => ?outside,
    fun o => ?crucible, fun o => ?copies⟩⟩
  case spec =>
    have hspec (i : Instr) (body : SlotRes) : cissue i h false s body = .next (s.faulted (cslot h) cILLOP (slotWord i)) := cissue_spec he hs
    refine ⟨fun o => ?_, fun o hes => ⟨vecIssue_illop hes _ (.inl hs), vecIssue_illop hes _ (.inl hs)⟩,
      fun o => ⟨hspec _ _, hspec _ _, hspec _ _, hspec _ _, hspec _ _, hspec _ _, hspec _ _, hspec _ _⟩, fun o => ?_⟩
    · obtain ⟨hbar, hbara, hbarw, hsstep⟩ := barriers_illop he (o := o) (.inl hs)
      exact ⟨hspec _ _, hspec _ _, hbar, hbara, hbarw, hsstep, hspec _ _, hspec _ _, hspec _ _, hspec _ _,
        fun hc => execCpy_illop he (.inr ⟨hs, hc⟩)⟩
    · exact ⟨hspec _ _, hspec _ _, hspec _ _, hspec _ _, hspec _ _, hspec _ _, hspec _ _, hspec _ _, fun hr => execKld_illop he hr (.inl hs),
        fun hc => recordIssue_spec he hs (hc.imp_left id), fun hc => recordIssue_spec he hs (.inr hc)⟩
  case memory =>
    refine ⟨fun ho => ?_, fun ho => ?_, fun hsc hfo => ?_, fun ho => execFence_illop he ho, fun hr ha => execWaitaddr_illop he hr ha,
      fun hb => execBind_illop he hb, fun hr => ⟨memIssue_full he hs rfl hr _ _,
        fun ho => ?_, fun ho => ?_, fun ho => ?_, fun ho => ?_, fun ho => ?_⟩⟩
    · exact memIssue_illegal he (by rcases ho with ho | ho <;> rw [ho] <;> rfl) _ _
    · exact memIssue_illegal he (by rcases ho with ho | ho <;> rw [ho] <;> rfl) _ _
    · exact memIssue_illegal he (by rw [hsc, hfo]; rfl) _ _
    · exact memIssue_full he hs (by simpa [or_assoc] using ho) hr _ _
    · exact memIssue_full he hs (by simpa [or_assoc] using ho) hr _ _
    · exact memIssue_full he hs (by simpa [← imp_iff_not_or] using ho) hr _ _
    · exact (execFence_on he hs ho).trans (settle_tokenFull hr _ _)
    · exact (execWaitaddr_on he hs ho).trans (settle_tokenFull hr _ _)
  case vector =>
    refine ⟨fun hr ha => vecIssue_illop hes _ (.inr (.inl ?_)), fun hr ha => vecIssue_illop hes _ (.inr (.inl ?_)),
      fun hfull => ⟨fun ho => vecIssue_full hs hes hv hfull _ ?_, fun ho => vecIssue_full hs hes hv hfull _ ?_⟩⟩
    · simp [hr, ha]
    · simp [hr, ha]
    · simpa using ho
    · simpa using ho
  case outside => exact ⟨vecIssue_illop hes _ (.inr (.inr hv)), vecIssue_illop hes _ (.inr (.inr hv))⟩
  case crucible =>
    refine ⟨fun hr => ?_, fun hrg hc => execKld_illop he hrg (.inr hc)⟩
    have hk (i : Instr) (ok changes : Bool) (ext : List (Nat × Nat)) :
        kissue i h o ok changes s ext = .next (s.heldBy [.tokenFull o.token]) := kissue_full he hs hr i ok changes ext
    refine ⟨hk _ _ _ _, hk _ _ _ _, hk _ _ _ _, hk _ _ _ _, hk _ _ _ _, hk _ _ _ _, hk _ _ _ _, hk _ _ _ _, hk _ _ _ _, hk _ _ _ _,
      hk _ _ _ _, fun hc => ?_⟩
    cases hrg : o.ringed with
    | false => exact (execKld_plain hrg).trans (hk _ _ _ _)
    | true =>
      obtain ⟨hon, hok, hroom⟩ := hc.resolve_left (by rw [hrg]; decide)
      have hx := execKld_ring he hs hrg hon hok
      rw [if_neg (by rw [hroom]; decide)] at hx
      exact hx.trans (settle_tokenFull hr _ _)
  case copies =>
    have hbcast := execBcast_bus h o s
    have hlatch := execLatch_bus h o s
    refine ⟨fun hb => ?shape, fun hrep hssp => ?rep, fun hon => ?off, fun hc => execCpyr_illop he (.inr (.inr hc)),
      fun _ hn => execRadv_illop he (.inr hn), fun hr hb hrep => ?full, fun hg => ?ungrouped,
      fun hg ha => hlatch.trans (busIssue_misaligned he _ _ hs hg ha), fun hg ha hb => hlatch.trans (busIssue_outside he _ _ hs hg ha hb),
      fun hg ha => hbcast.trans (busIssue_misaligned he _ _ hs hg ha), fun hg ha hb => hbcast.trans (busIssue_outside he _ _ hs hg ha hb),
      fun hsc => ?sy, fun ho => ?sendOrder, fun ho => ?recvOrder, fun hf => ⟨execLsend_unconfigured he hs hf, execLrecv_unconfigured he hs hf,
        fun e hsc ho hse => ?send, fun e hsc ho hre => ?recv⟩⟩
    case shape =>
      have hc : ¬s.core.copyable o := fun hc => Bool.false_ne_true (hc.1.symm.trans hb)
      exact ⟨execCpy_illop he (.inl hc), execCpyr_illop he (.inl hc)⟩
    case rep =>
      have hc : ¬s.core.copyable o := fun hc => hc.2 hrep hssp
      exact ⟨execCpy_illop he (.inl hc), execCpyr_illop he (.inl hc)⟩
    case off => exact ⟨execCpyr_illop he (.inr (.inl hon)), execRadv_illop he (.inl hon)⟩
    case full =>
      refine ⟨(execCpy_on he hs ⟨hb, hrep⟩).trans (settle_tokenFull hr _ _), fun hon hok hin hroom => ?_⟩
      have hx := execCpyr_on he hs ⟨hb, hrep⟩ hon hok hin
      rw [if_neg (by rw [hroom]; decide)] at hx
      exact hx.trans (settle_tokenFull hr _ _)
    case ungrouped => exact ⟨hbcast.trans (busIssue_ungrouped he _ _ hg), hlatch.trans (busIssue_ungrouped he _ _ hg)⟩
    case sy =>
      obtain ⟨hbar, hbara, hbarw, hsstep⟩ := barriers_illop he (.inr hsc)
      exact ⟨execLsend_illegal he hs (.inl hsc), execLrecv_illegal he hs (.inl hsc), hbar, hbara, hbarw, hsstep⟩
    case sendOrder => exact execLsend_illegal he hs (.inr (by rcases ho with ho | ho <;> rw [ho] <;> rfl))
    case recvOrder => exact execLrecv_illegal he hs (.inr (by rcases ho with ho | ho <;> rw [ho] <;> rfl))
    case send =>
      have hx := execLsend_on he hs hsc ho hf hse
      refine ⟨fun hp => ?_, fun hp hr => ?_⟩
      · rw [if_pos hp] at hx
        exact hx
      · rw [if_neg (by rw [hp]; decide)] at hx
        exact hx.trans (settle_tokenFull hr _ _)
    case recv =>
      exact ⟨fun ha => execLrecv_misaligned he hs hsc ho hf hre ha, fun ha hb => execLrecv_outside he hs hsc ho hf hre ha hb,
        fun ha hb => ⟨fun hq => ⟨execLrecv_empty he hs hsc ho hf hre ha hb hq, execLrecv_down he hs hsc ho hf hre ha hb hq⟩,
          fun _ _ hq => execLrecv_failed he hs hsc ho hf hre ha hb hq⟩⟩

end Sys2Proof.Machine
end
